-- ==== Sys2Proof/Word.lean ====
section
/-! DEFINITION. The words of the model: bytes and the sparse tables in which the state is held. -/

namespace Sys2Proof

/-- One byte. -/
abbrev Byte := BitVec 8

/-- A sparse table: keys rise, a key that is not listed stands for the table's default value. -/
abbrev Table (α : Type) := List (Nat × α)

end Sys2Proof
end

