-- ==== Sys2Proof/Machine/Tables.lean ====
section
/-! DEFINITION. Sparse tables, sets of numbers, bit fields and byte order: the helpers that every meaning uses. -/

namespace Sys2Proof.Machine

open Sys2Proof

/-- The entry of key `k`, or `d` where the table lists none. -/
def tget {α : Type} (d : α) : Table α → Nat → α
  | [], _ => d
  | (k', v) :: t, k => if k' = k then v else tget d t k

/-- The table with entry `v` at key `k`; keys stay in rising order. -/
def tset {α : Type} : Table α → Nat → α → Table α
  | [], k, v => [(k, v)]
  | (k', v') :: t, k, v =>
    if k = k' then (k, v) :: t
    else if k < k' then (k, v) :: (k', v') :: t
    else (k', v') :: tset t k v

/-- The table without key `k`. -/
def terase {α : Type} : Table α → Nat → Table α
  | [], _ => []
  | (k', v) :: t, k => if k' = k then terase t k else (k', v) :: terase t k

/-- The table with the entry of key `k` changed by `f`. -/
def tmodify {α : Type} (d : α) (t : Table α) (k : Nat) (f : α → α) : Table α :=
  tset t k (f (tget d t k))

/-- A set of numbers, held as a rising list. -/
def numInsert : List Nat → Nat → List Nat
  | [], n => [n]
  | m :: t, n => if n = m then m :: t else if n < m then n :: m :: t else m :: numInsert t n

/-- The set without `n`. -/
def numErase (l : List Nat) (n : Nat) : List Nat := l.filter (fun m => m != n)

/-- Bits `hi` down to `lo` of a number (R11). -/
def field (w hi lo : Nat) : Nat := (w / 2 ^ lo) % 2 ^ (hi + 1 - lo)

/-- One bit of a number. -/
def bit (w i : Nat) : Bool := decide ((w / 2 ^ i) % 2 = 1)

/-- A number whose bits `lo` and up are `v`: the pieces of a layout are added. -/
def place (v lo : Nat) : Nat := v * 2 ^ lo

/-- The number that a signed field of `w` bits spells. -/
def signed (w v : Nat) : Int := if v < 2 ^ (w - 1) then (v : Int) else (v : Int) - 2 ^ w

/-- The `w`-bit two's-complement code of an integer. -/
def twos (w : Nat) (i : Int) : Nat := (i % (2 ^ w : Int)).toNat

/-- A number from its bytes, least significant first (R12). -/
def leNat : List Byte → Nat
  | [] => 0
  | b :: t => b.toNat + 256 * leNat t

/-- The `n` bytes of a number, least significant first (R12). -/
def leBytes : Nat → Nat → List Byte
  | 0, _ => []
  | n + 1, v => BitVec.ofNat 8 v :: leBytes n (v / 256)

/-- `n` bytes of a list from offset `off`; bytes beyond its end read as zero. -/
def sliceBytes (l : List Byte) (off n : Nat) : List Byte :=
  let s := (l.drop off).take n
  s ++ List.replicate (n - s.length) 0

/-- The little-endian number of `n` bytes at offset `off`. -/
def leAt (l : List Byte) (off n : Nat) : Nat := leNat (sliceBytes l off n)

/-- Division rounded up. -/
def ceilDiv (a b : Nat) : Nat := (a + b - 1) / b

/-- A number raised to the next multiple of `b`. -/
def roundUp (a b : Nat) : Nat := ceilDiv a b * b

/-- A sum that sticks at `top`. -/
def stick (top v : Nat) : Nat := min top v

end Sys2Proof.Machine
end

