-- ==== Sys2Proof/Machine/Numbers.lean ====
section
/-! DEFINITION. The number formats of 02_number_formats.md: exact values, rounding, the encodings and the conversions. -/

namespace Sys2Proof.Machine

open Sys2Proof

/-- A value that some format of the module encodes. `fin s m e` is (-1)^s times m times 2^e; m = 0 is a zero of sign s. -/
inductive Val where
  | nan
  | inf (neg : Bool)
  | fin (neg : Bool) (m : Nat) (e : Int)
deriving DecidableEq, Repr, Inhabited

/-- The rounding modes of R52, and the one that ZF12 uses (R61). -/
inductive Round where
  | rne | rtz | rdn | rup | rsr | rto | halfAway
deriving DecidableEq, Repr

/-- `ROUND` codes (R52); 6 and 7 are reserved. -/
def Round.ofCode : Nat → Option Round
  | 0 => some .rne
  | 1 => some .rtz
  | 2 => some .rdn
  | 3 => some .rup
  | 4 => some .rsr
  | 5 => some .rto
  | _ => none

def Val.zero : Val := .fin false 0 0
def Val.one : Val := .fin false 1 0

def Val.ofInt (i : Int) : Val := .fin (decide (i < 0)) i.natAbs 0

def Val.isNaN : Val → Bool
  | .nan => true
  | _ => false

def Val.isInf : Val → Bool
  | .inf _ => true
  | _ => false

def Val.isZero : Val → Bool
  | .fin _ m _ => m == 0
  | _ => false

/-- The sign of a value that is not NaN. -/
def Val.sign : Val → Bool
  | .nan => false
  | .inf s => s
  | .fin s _ _ => s

def Val.neg : Val → Val
  | .nan => .nan
  | .inf s => .inf (!s)
  | .fin s m e => .fin (!s) m e

def Val.abs : Val → Val
  | .nan => .nan
  | .inf _ => .inf false
  | .fin _ m e => .fin false m e

/-- The exact integer that a finite value is when scaled by 2^(-q), q at most its exponent. -/
def Val.scaled (q : Int) : Val → Int
  | .fin s m e => (if s then -1 else 1) * (m * 2 ^ (e - q).toNat : Nat)
  | _ => 0

/-- The exponent of a finite value's unit. -/
def Val.unit : Val → Int
  | .fin _ _ e => e
  | _ => 0

/-- The exact sum. An exact zero from operands that are not both zeros of one sign is +0, or -0 when rounding down (R40). -/
def Val.add (down : Bool) : Val → Val → Val
  | .nan, _ => .nan
  | _, .nan => .nan
  | .inf s, .inf t => if s = t then .inf s else .nan
  | .inf s, .fin _ _ _ => .inf s
  | .fin _ _ _, .inf t => .inf t
  | .fin s m e, .fin t n f =>
    let q := min e f
    let i := Val.scaled q (.fin s m e) + Val.scaled q (.fin t n f)
    if i = 0 then
      (if m = 0 ∧ n = 0 ∧ s = t then .fin s 0 0 else .fin down 0 0)
    else .fin (decide (i < 0)) i.natAbs q

/-- The exact product; zero times infinity is NaN (R200). -/
def Val.mul : Val → Val → Val
  | .nan, _ => .nan
  | _, .nan => .nan
  | .inf s, .inf t => .inf (s != t)
  | .inf s, .fin t n _ => if n = 0 then .nan else .inf (s != t)
  | .fin s m _, .inf t => if m = 0 then .nan else .inf (s != t)
  | .fin s m e, .fin t n f => .fin (s != t) (m * n) (e + f)

/-- A value times a power of two. -/
def Val.scale2 (k : Int) : Val → Val
  | .fin s m e => .fin s m (e + k)
  | x => x

/-- Is `a` below `b`, both without NaN? Zeros of both signs are equal. -/
def Val.lt : Val → Val → Bool
  | .nan, _ => false
  | _, .nan => false
  | .inf s, .inf t => s && !t
  | .inf s, .fin _ _ _ => s
  | .fin _ _ _, .inf t => !t
  | .fin s m e, .fin t n f =>
    let q := min e f
    decide (Val.scaled q (.fin s m e) < Val.scaled q (.fin t n f))

def Val.eqv (a b : Val) : Bool := !a.isNaN && !b.isNaN && !a.lt b && !b.lt a

/-- Bits of a positive number. -/
def bitLen (m : Nat) : Nat := if m = 0 then 0 else Nat.log2 m + 1

/-- The magnitude m times 2^e rounded to `p` significant bits, on no grid finer than `qmin`; `r` is the random value of R54.
Answers the kept bits and the exponent of their unit (R52). -/
def roundMag (mode : Round) (neg : Bool) (p : Nat) (qmin : Option Int) (r : Nat) (m : Nat) (e : Int) : Nat × Int :=
  if m = 0 then (0, e)
  else
    let q0 := e + bitLen m - p
    let q := match qmin with | some g => max q0 g | none => q0
    if q ≤ e then (m * 2 ^ (e - q).toNat, q)
    else
      let sh := (q - e).toNat
      let kept := m / 2 ^ sh
      let rem := m % 2 ^ sh
      let half := 2 ^ (sh - 1)
      let d := if sh ≥ 16 then rem / 2 ^ (sh - 16) else rem * 2 ^ (16 - sh)
      match mode with
      | .rne => (if rem > half ∨ (rem = half ∧ kept % 2 = 1) then kept + 1 else kept, q)
      | .rtz => (kept, q)
      | .rdn => (if neg ∧ rem ≠ 0 then kept + 1 else kept, q)
      | .rup => (if ¬ neg ∧ rem ≠ 0 then kept + 1 else kept, q)
      | .rsr => (if d + r ≥ 65536 then kept + 1 else kept, q)
      | .rto => (if rem ≠ 0 ∧ kept % 2 = 0 then kept + 1 else kept, q)
      | .halfAway => (if rem ≥ half then kept + 1 else kept, q)

/-- The layout of a binary floating-point format (R36). -/
structure FloatSpec where
  ebits : Nat
  mbits : Nat
  bias  : Int
  /-- Is the exponent field of all ones taken by infinity and NaN? -/
  ieee  : Bool
  /-- The largest finite value, mantissa and unit. -/
  maxM  : Nat
  maxE  : Int
deriving DecidableEq, Repr

/-- The element formats of R34. -/
inductive Elem where
  | fp32 | bf16 | fp16 | fp64 | e4m3 | e5m2 | e2m3 | e3m2 | e2m1
  | int4 | int8 | int16 | acc48 | acc48i | acc96 | zf12
deriving DecidableEq, Repr

/-- `ELEM` codes (R34). -/
def Elem.ofCode : Nat → Option Elem
  | 0 => some .fp32
  | 1 => some .bf16
  | 2 => some .fp16
  | 3 => some .fp64
  | 4 => some .e4m3
  | 5 => some .e5m2
  | 6 => some .e2m3
  | 7 => some .e3m2
  | 8 => some .e2m1
  | 9 => some .int4
  | 10 => some .int8
  | 11 => some .int16
  | 12 => some .acc48
  | 13 => some .acc48i
  | 14 => some .acc96
  | 15 => some .zf12
  | _ => none

/-- Bits per element (R34). -/
def Elem.bits : Elem → Nat
  | .fp32 => 32
  | .bf16 | .fp16 | .int16 => 16
  | .fp64 => 64
  | .e4m3 | .e5m2 | .int8 => 8
  | .e2m3 | .e3m2 => 6
  | .e2m1 | .int4 => 4
  | .acc48 | .acc48i => 48
  | .acc96 => 96
  | .zf12 => 12

/-- A format with its block length: 0 for no shared scale, 32 or 16 for an MX format (R34, R35). -/
structure Fmt where
  elem  : Elem
  block : Nat
deriving DecidableEq, Repr

/-- `FMT_DESC` (R34); none where R35 makes it malformed. -/
def Fmt.ofDesc (w : Nat) : Option Fmt :=
  match Elem.ofCode (field w 4 0) with
  | none => none
  | some el =>
    if bit w 5 then none
    else
      let mx := decide ((4 ≤ field w 4 0 ∧ field w 4 0 ≤ 8) ∨ field w 4 0 = 10)
      match field w 7 6 with
      | 0 => some ⟨el, 0⟩
      | 1 => if mx then some ⟨el, 32⟩ else none
      | 2 => if mx then some ⟨el, 16⟩ else none
      | _ => none

def Fmt.isMx (f : Fmt) : Bool := f.block != 0

/-- Row size of a tile record in bytes (R47). -/
def Fmt.rowBytes (f : Fmt) : Nat := 256 * f.elem.bits / 8

/-- Blocks in a row of an MX record. -/
def Fmt.blocks (f : Fmt) : Nat := if f.block = 0 then 0 else 256 / f.block

/-- Tile record size in bytes (R47). -/
def Fmt.recordBytes (f : Fmt) : Nat := 256 * f.rowBytes + 256 * f.blocks

/-- Tile record size in 64-byte granules. -/
def Fmt.recordGran (f : Fmt) : Nat := f.recordBytes / 64

/-- The floating-point layouts of R36. -/
def Elem.float : Elem → Option FloatSpec
  | .e2m1 => some ⟨2, 1, 1, false, 3, 1⟩
  | .e2m3 => some ⟨2, 3, 1, false, 15, -1⟩
  | .e3m2 => some ⟨3, 2, 3, false, 7, 2⟩
  | .e4m3 => some ⟨4, 3, 7, false, 14, 5⟩
  | .e5m2 => some ⟨5, 2, 15, true, 7, 13⟩
  | .fp16 => some ⟨5, 10, 15, true, 2047, 5⟩
  | .bf16 => some ⟨8, 7, 127, true, 255, 120⟩
  | .fp32 => some ⟨8, 23, 127, true, 2 ^ 24 - 1, 104⟩
  | .fp64 => some ⟨11, 52, 1023, true, 2 ^ 53 - 1, 971⟩
  | .acc48 => some ⟨10, 37, 511, true, 2 ^ 38 - 1, 474⟩
  | .acc96 => some ⟨12, 83, 2047, true, 2 ^ 84 - 1, 1964⟩
  | _ => none

/-- The exponent of the unit of the subnormal grid. -/
def FloatSpec.qmin (f : FloatSpec) : Int := 1 - f.bias - f.mbits

/-- The value of a floating-point code (R36). E4M3's S.1111.111 is its only NaN. -/
def FloatSpec.decode (f : FloatSpec) (e4m3 : Bool) (code : Nat) : Val :=
  let s := bit code (f.ebits + f.mbits)
  let ex := field code (f.ebits + f.mbits - 1) f.mbits
  let ma := field code (f.mbits - 1) 0
  let top := 2 ^ f.ebits - 1
  if f.ieee ∧ ex = top then (if ma = 0 then .inf s else .nan)
  else if e4m3 ∧ ex = top ∧ ma = 7 then .nan
  else if ex = 0 then .fin s ma f.qmin
  else .fin s (2 ^ f.mbits + ma) ((ex : Int) - f.bias - f.mbits)

/-- ZF12 (R59): 0x800 is NaN, every other code with E = 0 is +0. -/
def zf12Decode (code : Nat) : Val :=
  if code = 0x800 then .nan
  else if field code 10 6 = 0 then .zero
  else .fin (bit code 11) (64 + field code 5 0) ((field code 10 6 : Int) - 22)

/-- An element's value before any shared scale (R36, R41). FP32 subnormals are flushed on input (R38). -/
def Elem.decode (el : Elem) (mx : Bool) (code : Nat) : Val :=
  match el with
  | .int4 => .ofInt (signed 4 code)
  | .int8 => if mx then (Val.ofInt (signed 8 code)).scale2 (-6) else .ofInt (signed 8 code)
  | .int16 => .ofInt (signed 16 code)
  | .acc48i => .ofInt (signed 48 code)
  | .zf12 => zf12Decode code
  | .fp32 => if field code 30 23 = 0 then .fin (bit code 31) 0 0
             else (FloatSpec.decode ⟨8, 23, 127, true, 2 ^ 24 - 1, 104⟩ false code)
  | el => match el.float with
    | some f => f.decode (decide (el = .e4m3)) code
    | none => .zero

/-- The value of an E8M0 scale code (R43). -/
def scaleValue (code : Nat) : Val := if code = 255 then .nan else .fin false 1 ((code : Int) - 127)

/-- An MX element with its block's scale (R43, R44). -/
def mxValue (el : Elem) (scale code : Nat) : Val :=
  if scale = 255 then .nan else (el.decode true code).scale2 ((scale : Int) - 127)

/-- The canonical NaN (R37). -/
def Elem.nanCode : Elem → Nat
  | .e4m3 => 0x7F
  | .e5m2 => 0x7E
  | .fp16 => 0x7E00
  | .bf16 => 0x7FC0
  | .fp32 => 0x7FC00000
  | .fp64 => 0x7FF8000000000000
  | .acc48 => place 0x3FF 37 + 2 ^ 36
  | .acc96 => place 0xFFF 83 + 2 ^ 82
  | .zf12 => 0x800
  | _ => 0

/-- The code of a finite value that lies on the format's grid and in its range. -/
def FloatSpec.code (f : FloatSpec) (neg : Bool) (m : Nat) (e : Int) : Nat :=
  let s := if neg then 2 ^ (f.ebits + f.mbits) else 0
  if m = 0 then s
  else
    let top := e + bitLen m - 1
    if top ≥ 1 - f.bias then
      let sig := if e ≥ top - f.mbits then m * 2 ^ (e - (top - f.mbits)).toNat
                 else m / 2 ^ ((top - f.mbits) - e).toNat
      s + place (top + f.bias).toNat f.mbits + (sig - 2 ^ f.mbits)
    else
      let sub := if e ≥ f.qmin then m * 2 ^ (e - f.qmin).toNat else m / 2 ^ (f.qmin - e).toNat
      s + sub

/-- The infinity code. -/
def FloatSpec.infCode (f : FloatSpec) (neg : Bool) : Nat :=
  (if neg then 2 ^ (f.ebits + f.mbits) else 0) + place (2 ^ f.ebits - 1) f.mbits

/-- The code of the largest finite value of a sign. -/
def FloatSpec.maxCode (f : FloatSpec) (neg : Bool) : Nat := f.code neg f.maxM f.maxE

/-- Is m times 2^e above n times 2^g? -/
def magGt (m : Nat) (e : Int) (n : Nat) (g : Int) : Bool :=
  let q := min e g
  decide (m * 2 ^ (e - q).toNat > n * 2 ^ (g - q).toNat)

/-- What a conversion writes: the code, and the events that R53 and R55 count. -/
structure Conv where
  code : Nat
  sat  : Bool
  nan  : Bool
deriving DecidableEq, Repr

/-- The overflow outcome of R53: does the result become infinite? -/
def overflowsToInf (mode : Round) (neg : Bool) : Bool :=
  match mode with
  | .rne => true
  | .rdn => neg
  | .rup => !neg
  | _ => false

/-- The conversion of a finite value into a floating-point format (R38, R53). `clampFree`: an MX element clamps without a
`CONVERT_SAT` (R55). -/
def FloatSpec.convFin (f : FloatSpec) (isFp32 clampFree : Bool) (mode : Round) (r : Nat) (neg : Bool) (m : Nat) (e : Int) :
    Conv :=
  let (k, q) := roundMag mode neg (f.mbits + 1) (if isFp32 then none else some f.qmin) r m e
  if k ≠ 0 ∧ magGt k q f.maxM f.maxE then
    if clampFree then ⟨f.maxCode neg, false, false⟩
    else if f.ieee ∧ overflowsToInf mode neg then ⟨f.infCode neg, false, false⟩
    else ⟨f.maxCode neg, true, false⟩
  else if isFp32 ∧ k ≠ 0 ∧ ¬ magGt k q (2 ^ 24 - 1) (-150) then ⟨f.code neg 0 0, false, false⟩
  else ⟨f.code neg k q, false, false⟩

/-- A value rounded to an integer and kept in `w` bits by saturation or by wrap (R42, R55). -/
def convInt (w : Nat) (isat : Bool) (mode : Round) (r : Nat) : Val → Conv
  | .nan => ⟨0, false, true⟩
  | .inf s => ⟨if s then 2 ^ (w - 1) else 2 ^ (w - 1) - 1, true, false⟩
  | .fin s m e =>
    let (k, q) := roundMag mode s (max 1 (bitLen m + (e.natAbs))) (some 0) r m e
    let i : Int := (if s then -1 else 1) * (k * 2 ^ q.toNat : Nat)
    let lo : Int := -(2 ^ (w - 1))
    let hi : Int := 2 ^ (w - 1) - 1
    if isat then
      if i > hi then ⟨2 ^ (w - 1) - 1, true, false⟩
      else if i < lo then ⟨2 ^ (w - 1), true, false⟩
      else ⟨twos w i, false, false⟩
    else ⟨twos w i, false, false⟩

/-- A value written to ZF12 (R61). -/
def convZf12 : Val → Conv
  | .nan => ⟨0x800, false, false⟩
  | .inf s => ⟨if s then 0xFFF else 0x7FF, true, false⟩
  | .fin s m e =>
    let (k, q) := roundMag .halfAway s 7 none 0 m e
    if k = 0 ∨ ¬ magGt k q 127 (-22) then ⟨0, false, false⟩
    else if magGt k q 127 9 then ⟨if s then 0xFFF else 0x7FF, true, false⟩
    else
      let top := q + bitLen k - 1
      let sig := if q ≥ top - 6 then k * 2 ^ (q - (top - 6)).toNat else k / 2 ^ ((top - 6) - q).toNat
      ⟨(if s then 2048 else 0) + place (top + 16).toNat 6 + (sig - 64), false, false⟩

/-- The conversion of one value into a format without a shared scale (R55). -/
def Elem.conv (el : Elem) (isat : Bool) (mode : Round) (r : Nat) (x : Val) : Conv :=
  match el with
  | .int4 => convInt 4 isat mode r x
  | .int8 => convInt 8 isat mode r x
  | .int16 => convInt 16 isat mode r x
  | .acc48i => convInt 48 isat mode r x
  | .zf12 => convZf12 x
  | el =>
    match el.float with
    | none => ⟨0, false, false⟩
    | some f =>
      match x with
      | .nan => if f.ieee ∨ el = .e4m3 then ⟨el.nanCode, false, false⟩ else ⟨0, false, true⟩
      | .inf s => if f.ieee then ⟨f.infCode s, false, false⟩ else ⟨f.maxCode s, true, false⟩
      | .fin s m e => f.convFin (decide (el = .fp32)) false mode r s m e

/-- One element of an MX block, after division by the block scale (R41, R55). -/
def Elem.convMx (el : Elem) (mode : Round) (r : Nat) (scaleExp : Int) (x : Val) : Conv :=
  match el with
  | .int8 =>
    match x with
    | .nan => ⟨0, false, false⟩
    | .inf s => ⟨if s then 0x80 else 0x7F, true, false⟩
    | .fin s m e =>
      let (k, q) := roundMag mode s (bitLen m + e.natAbs + scaleExp.natAbs + 8) (some 0) r m (e - scaleExp + 6)
      let i : Int := (if s then -1 else 1) * (k * 2 ^ q.toNat : Nat)
      if i > 127 then ⟨0x7F, false, false⟩
      else if i < -128 then ⟨0x80, false, false⟩
      else ⟨twos 8 i, false, false⟩
  | el =>
    match el.float with
    | none => ⟨0, false, false⟩
    | some f =>
      match x with
      | .nan => ⟨0, false, false⟩
      | .inf s => if f.ieee then ⟨f.infCode s, false, false⟩ else ⟨f.maxCode s, true, false⟩
      | .fin s m e => f.convFin false true mode r s m (e - scaleExp)

/-- emax of R57. -/
def Elem.emax : Elem → Int
  | .e2m1 => 2
  | .e2m3 => 2
  | .e3m2 => 4
  | .e4m3 => 8
  | .e5m2 => 15
  | _ => 0

/-- floor(log2) of the magnitude of a finite value that is not zero. -/
def Val.log2 : Val → Option Int
  | .fin _ m e => if m = 0 then none else some (e + bitLen m - 1)
  | _ => none

/-- The largest of the floor(log2) figures; the largest magnitude has the largest of them. -/
def maxLog2 : List Val → Option Int
  | [] => none
  | x :: t =>
    match x.log2, maxLog2 t with
    | none, o => o
    | some a, none => some a
    | some a, some b => some (max a b)

/-- The scale code of a block (R57). -/
def blockScale (el : Elem) (xs : List Val) : Nat :=
  if xs.any Val.isNaN then 255
  else match maxLog2 xs with
    | none => 0
    | some l => (min 127 (max (-127) (l - el.emax)) + 127).toNat

/-- The conversion of one block: its scale code and its elements (R57). `rs` gives the random value of each element. -/
def convBlock (el : Elem) (mode : Round) (rs : List Nat) (xs : List Val) : Nat × List Conv :=
  let sc := blockScale el xs
  if sc = 255 then (255, xs.map (fun _ => ⟨0, false, false⟩))
  else (sc, (xs.zip rs).map (fun p => el.convMx mode p.2 ((sc : Int) - 127) p.1))

/-- The generator of R54. -/
def srMix (x : BitVec 64) : BitVec 64 :=
  let a := (x ^^^ (x >>> 30)) * 0xBF58476D1CE4E5B9#64
  let b := (a ^^^ (a >>> 27)) * 0x94D049BB133111EB#64
  b ^^^ (b >>> 31)

/-- The 16-bit random value of R54. -/
def srBits (seed step object index : Nat) : Nat :=
  let k := srMix (BitVec.ofNat 64 seed + BitVec.ofNat 64 step * 0x9E3779B97F4A7C15#64)
  let k := srMix (k ^^^ BitVec.ofNat 64 object)
  (srMix (k ^^^ BitVec.ofNat 64 index)).toNat % 65536

/-- An arithmetic of a fixed precision: significant bits, the unit of the subnormal grid, the exponent of the top. -/
structure Arith where
  p    : Nat
  qmin : Int
  emax : Int
deriving DecidableEq, Repr

/-- Lane arithmetic (R209). -/
def laneArith : Arith := ⟨24, -533, 511⟩
/-- ACC48 arithmetic (R49). -/
def acc48Arith : Arith := ⟨38, -547, 511⟩
/-- ACC96 arithmetic (R51). -/
def acc96Arith : Arith := ⟨84, -2129, 2047⟩
/-- FP64 arithmetic, for the Schedule Engine (R361). -/
def fp64Arith : Arith := ⟨53, -1074, 1023⟩

/-- A value rounded into an arithmetic; beyond its range it becomes an infinity or stays at the largest value by R53. -/
def Arith.round (a : Arith) (mode : Round) : Val → Val
  | .nan => .nan
  | .inf s => .inf s
  | .fin s m e =>
    let (k, q) := roundMag mode s a.p (some a.qmin) 0 m e
    if k ≠ 0 ∧ magGt k q (2 ^ a.p - 1) (a.emax + 1 - a.p) then
      if overflowsToInf mode s then .inf s else .fin s (2 ^ a.p - 1) (a.emax + 1 - a.p)
    else .fin s k q

/-- One addition of an arithmetic (R40, R49, R51, R209). -/
def Arith.add (a : Arith) (mode : Round) (x y : Val) : Val := a.round mode (Val.add (decide (mode = .rdn)) x y)
def Arith.mul (a : Arith) (mode : Round) (x y : Val) : Val := a.round mode (Val.mul x y)

/-- Binary32 arithmetic with the flush of R38 (R354). -/
def fp32Round : Val → Val
  | .nan => .nan
  | .inf s => .inf s
  | .fin s m e =>
    let (k, q) := roundMag .rne s 24 none 0 m e
    if k ≠ 0 ∧ magGt k q (2 ^ 24 - 1) 104 then .inf s
    else if k ≠ 0 ∧ ¬ magGt k q (2 ^ 24 - 1) (-150) then .fin s 0 0
    else .fin s k q

/-- The quotient of two finite magnitudes with a sticky bit, exact enough to be rounded to `p` bits. -/
def divSticky (p m n : Nat) : Nat × Int :=
  let k := p + 3 + bitLen n
  let a := m * 2 ^ k
  (2 * (a / n) + (if a % n = 0 then 0 else 1), -(k : Int) - 1)

/-- The exact quotient up to a sticky bit, with the special operands of IEEE 754-2019. -/
def Val.div (p : Nat) : Val → Val → Val
  | .nan, _ => .nan
  | _, .nan => .nan
  | .inf _, .inf _ => .nan
  | .inf s, .fin t _ _ => .inf (s != t)
  | .fin s _ _, .inf t => .fin (s != t) 0 0
  | .fin s m e, .fin t n f =>
    if n = 0 then (if m = 0 then .nan else .inf (s != t))
    else if m = 0 then .fin (s != t) 0 0
    else
      let (k, q) := divSticky p m n
      .fin (s != t) k (e - f + q)

/-- The square root up to a sticky bit. -/
def Val.sqrt (p : Nat) : Val → Val
  | .nan => .nan
  | .inf s => if s then .nan else .inf false
  | .fin s m e =>
    if m = 0 then .fin s 0 0
    else if s then .nan
    else
      let k := 2 * (p + 3) + (if (e % 2) = 0 then 0 else 1)
      let a := m * 2 ^ k
      let r := Nat.sqrt a
      .fin false (2 * r + (if r * r = a then 0 else 1)) ((e - k) / 2 - 1)

/-- The reciprocal square root up to a sticky bit (R355 VRSQRT; special operands as R229). -/
def Val.rsqrt (p : Nat) : Val → Val
  | .nan => .nan
  | .inf s => if s then .nan else .fin false 0 0
  | .fin s m e =>
    if m = 0 then .inf s
    else if s then .nan
    else
      -- 1/sqrt(m 2^e) = sqrt(2^K / m) 2^((-e-K)/2), K of the parity of e
      let k := 2 * (p + 3 + bitLen m) + (if (e % 2) = 0 then 0 else 1)
      let a := 2 ^ k / m
      let r := Nat.sqrt a
      .fin false (2 * r + (if r * r * m = 2 ^ k then 0 else 1)) ((-e - k) / 2 - 1)

/-- `MAX` of R231: +0 beats -0, NaN wins. -/
def Val.max (a b : Val) : Val :=
  if a.isNaN || b.isNaN then .nan
  else if a.lt b then b
  else if b.lt a then a
  else if a.isZero && a.sign then b else a

/-- `MIN` of R231: -0 beats +0, NaN wins. -/
def Val.min (a b : Val) : Val :=
  if a.isNaN || b.isNaN then .nan
  else if a.lt b then a
  else if b.lt a then b
  else if a.isZero && a.sign then a else b

/-- The code of an ACC48 or ACC96 entry. -/
def accCode (el : Elem) (x : Val) : Nat := (el.conv true .rne 0 x).code

end Sys2Proof.Machine
end

