-- ==== Sys2Proof/Syntax.lean ====
section
/-! DEFINITION. The commands of the block: one constructor for each row of the table of operations and events. -/

namespace Sys2Proof

/-- An instant: line time in lt, and the cycle count of the physical Station that the command concerns (R6: the two
never mix). -/
structure Tick where
  lt : Nat
  sc : Nat
deriving DecidableEq, Repr

/-- An error that a read of an accumulator entry finds (R123): its tile row and column, and whether it can be corrected. -/
structure AccError where
  row       : Nat
  col       : Nat
  corrected : Bool
deriving DecidableEq, Repr

/-- The instant at which a departure may issue, the granules of the Station store in which the reads that it makes at its issue
find an uncorrected error (R307), and the errors that a drain's reads find in accumulator memory (R123). -/
structure IssueTick where
  lt  : Nat
  sc  : Nat
  bad : List Nat
  acc : List AccError
deriving DecidableEq, Repr

/-- A value that came wrong out of the array while a row passed through it (R80): a cell row's sum (0 to 255), the check row's
S_ref (256) or M (257), of one block on the block path, in the first or the second entry of a row entered twice. -/
structure RowFault where
  row    : Fin 258
  block  : Nat
  second : Bool
  value  : Machine.Val
deriving DecidableEq, Repr

/-- What a received Ethernet frame carries. -/
inductive FrameKind where
  | arp | ndp | icmpEcho | ptp | udp | other
deriving DecidableEq, Repr

/-- A received Ethernet frame, its standard headers read by the IEEE and IETF formats that the spec names (R313, R316). -/
structure Frame where
  /-- FCS good and every RS codeword corrected (check 1). -/
  good    : Bool
  /-- RS codewords that the FEC corrected. -/
  fixed   : Nat
  dstMac  : BitVec 48
  kind    : FrameKind
  srcIp   : BitVec 128
  dstIp   : BitVec 128
  /-- No extension header, option or fragment. -/
  plain   : Bool
  udpSrc  : BitVec 16
  udpDst  : BitVec 16
  udpSum  : BitVec 16
  /-- ECN is CE. -/
  ce      : Bool
  /-- Frame bytes, for the granule counters. -/
  size    : Nat
  hdr     : BitVec 384
  body    : List Byte
  tag     : BitVec 128
  crc     : BitVec 32
deriving DecidableEq, Repr

/-- A PTP message that the module uses (R141), with the offset from the source that its timestamps show, in 1/4 lt. -/
inductive PtpMsg where
  /-- A two-step Sync is timed by its Follow_Up; `interval` is its log sync interval. -/
  | sync (twoStep : Bool) (interval offset : Int)
  | followUp (offset : Int)
  | delayResp (offset : Int)
deriving DecidableEq, Repr

/-- An error that ECC or PCIe finds in a granule of a read (R401): its number in the read, and whether it was corrected. -/
structure ReadError where
  gran      : Nat
  corrected : Bool
deriving DecidableEq, Repr

/-- An error that a read of an object by the collective engine or an Update Engine finds (R401): the object, its granule, and whether
it was corrected. -/
structure ObjError where
  object    : Nat
  gran      : Nat
  corrected : Bool
deriving DecidableEq, Repr

/-- A `COLL` at its issue: the instant, and the errors that its reads of objects find. -/
structure CollTick where
  tick : IssueTick
  errs : List ObjError
deriving DecidableEq, Repr

/-- A `RESUME`: the instant, and the granules of the context's save area in which its read-back finds an uncorrected error (R136). -/
structure ResumeTick where
  lt  : Nat
  bad : List Nat
deriving DecidableEq, Repr

/-- The spill of a Station's cascaded pair: additions that the residue check found wrong once, one that it found wrong twice (R122), and
the errors that its reads of the primary row and of the partner row find (R123). -/
structure SpillWork where
  station : Fin 128
  retries : Nat
  fatal   : Bool
  errs    : List AccError
deriving DecidableEq, Repr

/-- How many more flits of a Consist have had time to arrive, its header the first and at least one, and the instant. -/
structure FlitTick where
  flits : Nat
  lt    : Nat
deriving DecidableEq, Repr

/-- The line of a hop, and the bits of its oldest flit in flight that changed on it: 0 to 2047 of its data and 2048 + n for sideband
bit n. -/
structure HopFlips where
  line : Fin 2
  bits : List (Fin 2092)
deriving DecidableEq, Repr

/-- What the reading of a `TURN`'s source came to: sc in which the buffer waited for a source row (R247), the errors that the read found,
and the granules of the Station store in which a waiting take finds an uncorrected error once the record is in its Siding. -/
structure TurnRead where
  feed : Nat
  errs : List ReadError
  ring : List Nat
deriving DecidableEq, Repr

/-- What the reading of a fill came to: the errors that it found, by granule of those read, in order, and the granules of the Station
store as for a `TURN`. -/
structure FillFound where
  errs : List ReadError
  ring : List Nat
deriving DecidableEq, Repr

/-- A Siding, and an instant. -/
structure SidingTick where
  siding : Fin 16
  tick   : Tick
deriving DecidableEq, Repr

/-- A Station, and an instant of line time. -/
structure StationTick where
  station : Fin 128
  lt      : Nat
deriving DecidableEq, Repr

/-- The PTP domain of a message and its transport: 0 UDP on IPv6, 1 UDP on IPv4, 2 Ethernet (R440's `TRANSPORT`). -/
structure PtpNet where
  domain    : Nat
  transport : Nat
deriving DecidableEq, Repr

/-- The time signal less a Station's copy, in 1/16 lt, found at a cycle of the Station (R145). -/
structure CopyTick where
  err : Int
  sc  : Nat
deriving DecidableEq, Repr

/-- A run of an Update Engine: the errors that the program's reads of objects find, whether there was an uncorrected error in the engine's
scratch or registers, and the instant. -/
structure UnitTick where
  errs  : List ObjError
  upset : Bool
  lt    : Nat
deriving DecidableEq, Repr

/-- What ECC or PCIe found on a read (R401). -/
inductive Ecc where
  | clean | corrected | uncorrected
deriving DecidableEq, Repr

/-- A message between a member and a Depot holder (R367, R408, R414, R415, R419), read by a format that the spec does not give.
Optimizer pages have object 2^21 + 8 × unit + 4 × buffer + number. -/
inductive DepotMsg where
  /-- A Class P page of step E, into the staging copy. -/
  | classP (object page : Nat) (data : List Byte)
  /-- A page of the shard during seeding. -/
  | shard (object page epoch : Nat) (data : List Byte)
  /-- The seeding is complete. -/
  | seedEnd
  /-- The mirror of a log, as a collective message with `STAGE` 5. -/
  | mirror
  /-- A member asks its holder for its whole shard, or for Class P pages. -/
  | ask (whole : Bool) (pages : List (Nat × Nat))
  /-- The holder's answer: an installed Class P page, an optimizer page, a chunk of a log, and the end with the holder's count of
  committed Right-aways. -/
  | backClassP (object page : Nat) (data : List Byte)
  | backShard (object page epoch : Nat) (data : List Byte)
  | backLog (unit chunk : Nat) (data : List Byte)
  | backEnd (committed : Nat)
deriving DecidableEq, Repr

/-- The commands. `now` is line time in lt at the command; a register value is what the host writes. -/
inductive Instr where
  -- Signal Box commands: the command that queue q runs (R435)
  | identify (q : Fin 9) (now : Nat)
  | resetContext (q : Fin 9) (now : Nat)
  | resetWarm (q : Fin 9) (now : Nat)
  | resetCold (q : Fin 9) (now : Nat)
  | fence (q : Fin 9) (now : Nat)
  | setPolicy (q : Fin 9) (now : Nat)
  | setCap (q : Fin 9) (now : Nat)
  | setTime (q : Fin 9) (now : Nat)
  | netConfig (q : Fin 9) (now : Nat)
  | keyInstall (q : Fin 9) (now : Nat)
  | ownerEnrol (q : Fin 9) (now : Nat)
  /-- `img`: the bytes read from the host ranges; none for a PCIe error. -/
  | loadImage (q : Fin 9) (now : Nat) (img : Option (List Byte))
  | bind (q : Fin 9) (now : Nat) (img flows : Option (List Byte))
  | release (q : Fin 9) (now : Nat)
  | start (q : Fin 9) (now : Nat)
  | halt (q : Fin 9) (now : Nat)
  | preempt (q : Fin 9) (now : Nat)
  | resume (q : Fin 9) (t : ResumeTick)
  | cancelSection (q : Fin 9) (now : Nat)
  | depotSnapshot (q : Fin 9) (now : Nat)
  | adopt (q : Fin 9) (now : Nat)
  | census (q : Fin 9) (now : Nat)
  | readCensus (q : Fin 9) (now : Nat)
  | readCounters (q : Fin 9) (now : Nat)
  | readLog (q : Fin 9) (now : Nat)
  -- Host registers, queues, interrupts, Census
  | sqTailWrite (q : Fin 8) (v : BitVec 32)
  | cqHeadWrite (q : Fin 8) (v : BitVec 32)
  | queueEnable (q : Fin 8) (v : BitVec 32)
  | queueDisable (q : Fin 8) (v : BitVec 32)
  | evtHeadWrite (v : BitVec 32) (now : Nat)
  | eventRingEnable (v : BitVec 32) (now : Nat)
  | registerWrite (off size : Nat) (v : BitVec 64)
  /-- The header at SQ_HEAD and the parameter bytes that it names, as host memory holds them; none for a PCIe error. -/
  | commandFetch (q : Fin 8) (header : BitVec 256) (params : Option (List Byte)) (now : Nat)
  | mctpRequest (header : BitVec 256) (params : List Byte) (now : Nat)
  | msixMessage (vec : Fin 64) (now : Nat)
  | eventRecordFlush (now : Nat)
  | censusLatch (now : Nat)
  -- Departures: the head departure of running line j of logical Station k
  | token (k : Fin 128) (j : Fin 4) (t : IssueTick)
  | sectionEnd (k : Fin 128) (j : Fin 4) (t : IssueTick)
  | points (k : Fin 128) (j : Fin 4) (t : IssueTick)
  | pointsSelect (t : Tick)
  | warningBoard (k : Fin 128) (j : Fin 4) (t : IssueTick)
  | stage (k : Fin 128) (j : Fin 4) (t : IssueTick)
  | mma (k : Fin 128) (j : Fin 4) (t : IssueTick)
  | mmaCplx (k : Fin 128) (j : Fin 4) (t : IssueTick)
  | loopSend (k : Fin 128) (j : Fin 4) (t : IssueTick)
  | loopTake (k : Fin 128) (j : Fin 4) (t : IssueTick)
  | ballast (k : Fin 128) (j : Fin 4) (t : IssueTick)
  | groupOpen (k : Fin 128) (j : Fin 4) (t : IssueTick)
  | groupClose (k : Fin 128) (j : Fin 4) (t : IssueTick)
  | turn (k : Fin 128) (j : Fin 4) (t : IssueTick)
  | drain (k : Fin 128) (j : Fin 4) (t : IssueTick)
  | drainCplx (k : Fin 128) (j : Fin 4) (t : IssueTick)
  | convert (k : Fin 128) (j : Fin 4) (t : IssueTick)
  | act (k : Fin 128) (j : Fin 4) (t : IssueTick)
  | ew (k : Fin 128) (j : Fin 4) (t : IssueTick)
  | norm (k : Fin 128) (j : Fin 4) (t : IssueTick)
  | vstats (k : Fin 128) (j : Fin 4) (t : IssueTick)
  | manifest (k : Fin 128) (j : Fin 4) (t : IssueTick)
  | sidingSet (k : Fin 128) (j : Fin 4) (t : IssueTick)
  | sidingExpect (k : Fin 128) (j : Fin 4) (t : IssueTick)
  | coll (k : Fin 128) (j : Fin 4) (t : CollTick)
  | rightAway (k : Fin 128) (j : Fin 4) (t : IssueTick)
  -- Timetable events
  /-- The departure at this place of a section's Timetable. -/
  | departureComplete (k : Fin 128) (j : Fin 4) (sect index : Nat) (lt sc : Nat)
  | tokenSignalLand (k : Fin 128) (tok : Fin 256) (t : Tick)
  | waitTimeout (k : Fin 128) (j : Fin 4) (now : Nat)
  | watchdogExpiry (k : Fin 128) (j : Fin 4) (now : Nat)
  | sectionBoundary (now : Nat)
  -- Array and accumulators of logical Station k; `sc` is the Station's cycle
  /-- `bad`: granules of the store or of a Siding's ring in which the row's reads find an uncorrected error (R307). -/
  | rowEntry (k : Fin 128) (sc : Nat) (bad : List Nat)
  | invalidRowEntry (k : Fin 128) (sc : Nat)
  | stagingComplete (k : Fin 128) (sc : Nat)
  /-- `faults`: the sums of the row that the array formed wrong (R80). -/
  | checkVerdict (k : Fin 128) (faults : List RowFault) (now : Nat)
  | rowRelease (k : Fin 128)
  /-- `retries`: additions of the row that the residue check found wrong once; `fatal`: one that it found wrong twice (R122); `errs`:
  the errors that its reads of entries find (R123). -/
  | accTermWrite (k : Fin 128) (retries : Nat) (fatal : Bool) (errs : List AccError) (now : Nat)
  | cascadeSpill (w : SpillWork)
  | drainInterlockEnd (k : Fin 128) (sc : Nat) (acc : List AccError)
  | accSave (k : Fin 128) (t : Tick) (acc : List AccError)
  -- The Loop: node p (a physical Station, or 136 + s for the junction after Sector s), line l (0 Up, 1 Down). The hop
  -- is named by the node that sends on it; CONSIST_ARRIVE names the node that receives.
  | consistInsert (p : Fin 136) (l : Fin 2)
  | consistArrive (p : Fin 144) (l : Fin 2) (t : FlitTick)
  | loopFlitParityError (p : Fin 144) (x : HopFlips)
  | loopReplayRequest (p : Fin 144) (l : Fin 2)
  | loopHopDown (p : Fin 144) (l : Fin 2) (now : Nat)
  | stationRetire (p : Fin 136) (now : Nat)
  | stepReplay (now : Nat)
  | turnRecordServe (u : Fin 8) (r : TurnRead) (t : Tick)
  -- Pilot
  | waybillBurstFetch (t : StationTick)
  /-- `errs`: errors that the read of the burst finds, each granule a Waybill. -/
  | waybillBurstArrive (k : Fin 128) (errs : List ReadError) (now : Nat)
  | sidingFillStart (k : Fin 128) (t : SidingTick)
  /-- `i`: which of the fills in flight. -/
  | sidingFillLand (k : Fin 128) (sid : Fin 16) (i : Nat) (r : FillFound) (t : Tick)
  | writebackStart (k : Fin 128)
  /-- `bad`: granules of the source in which the store read found an uncorrected error. -/
  | writebackDone (k : Fin 128) (bad : List Nat) (now : Nat)
  | sidingOverflow (k : Fin 128) (sid : Fin 16) (now : Nat)
  -- Shunter and scrub
  | pageMoveStart
  | pageMoveComplete (i : Nat) (errs : List ReadError) (now : Nat)
  | shuntReadySignal (object : Nat) (now : Nat)
  | scrubRead (tier : Fin 3) (frame gran : Nat) (ecc : Ecc) (now : Nat)
  -- Network
  | ethFrameReceive (port : Fin 48) (frame : Frame) (now : Nat)
  | arpNdpRequest (port : Fin 48) (mac : BitVec 48) (ip : BitVec 128)
  | icmpEchoRequest (port : Fin 48) (src dst : BitVec 128) (data : List Byte)
  | gatewayRefresh (port : Fin 48) (mac : BitVec 48) (now : Nat)
  | bililjoDataReceive (flow : Fin 262144) (now : Nat)
  | bililjoAckReceive (flow : Fin 262144) (now : Nat)
  | bililjoProbeReceive (flow : Fin 262144) (now : Nat)
  | bililjoDataSend (flow : Fin 262144) (now : Nat)
  | ackDelayExpiry (flow : Fin 262144) (now : Nat)
  | rtoExpiry (flow : Fin 262144) (now : Nat)
  | pathSuspendExpiry (flow : Fin 262144) (path : Fin 256) (now : Nat)
  | portLockLoss (port : Fin 48) (now : Nat)
  | portRejoin (port : Fin 48) (now : Nat)
  | slotWindowOpen (flow : Fin 262144) (i : Nat) (now : Nat)
  | slotWindowClose (flow : Fin 262144) (i : Nat) (now : Nat)
  | keyActivate (flow : Fin 262144) (now : Nat)
  | keyWithdraw (flow : Fin 262144) (now : Nat)
  | flowDrainTimeout (flow : Fin 262144) (now : Nat)
  | cageTrainComplete (cage : Fin 12) (now : Nat)
  /-- `watts`: the maximum power that the OSFP module declares. -/
  | osfpInsert (cage : Fin 12) (watts : Nat) (now : Nat)
  | osfpRemove (cage : Fin 12) (now : Nat)
  -- Line time
  | ptpMessageReceive (port : Fin 48) (net : PtpNet) (msg : PtpMsg) (now : Nat)
  | ptpDelayReqSend (now : Nat)
  | ptpSyncLoss (now : Nat)
  /-- `sub`: quarters of a lt by which the edge follows `now`. -/
  | ppsEdge (sub : Fin 4) (now : Nat)
  | holdoverExpire (now : Nat)
  | lineTimeCorrect (p : Fin 136) (t : CopyTick)
  -- Collectives, Update Engine, Right-away, Depot
  | collMessageDeliver (flow : Fin 262144) (now : Nat)
  | stageClose (coll unit : Nat) (stage : Fin 2) (now : Nat)
  | ueUnitRun (die : Fin 2) (t : UnitTick)
  | rightAwayCommit (now : Nat)
  | rightAwayReject (now : Nat)
  | depotMessageReceive (rank : Nat) (msg : DepotMsg) (now : Nat)
  /-- `page`: the shard page sent; none when the holder has installed every page. -/
  | depotSeed (replica : Fin 2) (page : Option (Nat × Nat)) (now : Nat)
  | peerProbe (rank : Nat) (now : Nat)
  | peerLost (rank : Nat) (now : Nat)
  -- Power, clocks, temperature
  /-- `period`: the region's count of clock periods. -/
  | clockStretchRequest (region : Fin 152) (margin0 : Bool) (period now : Nat)
  | marginWarn (p : Fin 136) (now : Nat)
  | trimLapse (sector : Fin 8) (now : Nat)
  /-- `steps`: whole 0.5 % steps of slowdown since manufacture. -/
  | ageingMeasure (sector : Fin 8) (steps : Nat) (now : Nat)
  /-- `avg`: the 2 µs average input power in mW; `surge`: a Sector current above its calibrated limit. -/
  | fastLimitWindow (avg : Nat) (surge : Bool) (now : Nat)
  /-- `avg`: the same average of a window that ends at this instant. -/
  | fastCeilingRise (avg now : Nat)
  /-- `avg`: the 50 µs average input power in mW; `rail`, `island`: compute-die rail and network-island power in mW; `comp`:
  the calibrated compute-die power at f_set in mW; `joules`: input energy counted in the window. -/
  | capWindow (avg rail island comp joules : Nat) (now : Nat)
  | thermalWindow (now : Nat)
  | rampMeterGrant (now : Nat)
  | stationFallRequest (k : Fin 128) (t : Tick)
  | stationRiseRequest (k : Fin 128) (now : Nat)
  | powerStateRelax (now : Nat)
  | preRampHoldEnd (now : Nat)
  /-- `reading` in 1/8 °C; none for a point that was not updated. -/
  | tempConversion (point : Fin 1280) (reading : Option Int) (now : Nat)
  | thermalTrip (point : Fin 1280) (now : Nat)
  /-- `reason`: 1 input, 2 regulator, 3 books (R453). -/
  | powerFault (reason : Fin 4) (mv : Nat) (now : Nat)
  | inputShutdown (mv : Nat)
  -- Start-up, resets, pins, PCIe
  | powerUpBegin (mv : Nat)
  | inrushComplete
  | standbyComplete
  | mainRailsComplete
  /-- `fails`: physical Stations that failed, with the STATION_CHECK reason (R462); `hot`: points that read out of range. -/
  | selftestComplete (fails : List (Fin 136 × Fin 8)) (hot : List (Fin 1280)) (now : Nat)
  /-- `bad`: frames found in error. -/
  | tierTrainingComplete (tier : Fin 3) (bad : List Nat) (now : Nat)
  /-- MOD_RESET# low for `ns`; `held`: still low. -/
  | modReset (ns : Nat) (held : Bool)
  | perstDeassert (link : Fin 2) (now : Nat)
  /-- `cause`: 0 PERST#, 1 Hot Reset, 2 FLR. -/
  | pcieResetPrimary (cause : Fin 3) (now : Nat)
  | pcieResetSecondary (cause : Fin 3) (now : Nat)
  | pcieConfigRequest (link : Fin 2) (now : Nat)
  | pcieLinkDown (link : Fin 2) (now : Nat)
  | referenceLoss (now : Nat)
  | runEpoch (now : Nat)
  | pcieLinkUp (link : Fin 2) (now : Nat)
  | i3cDynamicAddress (a : BitVec 7)
  | holderAnswerTimeout (now : Nat)
  | pathProbeTimeout (flow : Fin 262144) (path : Fin 256) (now : Nat)
deriving DecidableEq, Repr

end Sys2Proof
end

