-- ==== Sys2Proof/Decode.lean ====
section
/-! DEFINITION. The table of operations gives none of its rows bits: a command is an access, an event or a departure with operands,
and no word spells one. -/

namespace Sys2Proof

/-- The command that a word spells by the table's bits: the table gives no row any (notes/assumptions/2.md). -/
def decodeTableWord (_nbits _w : Nat) : Option Instr := none

end Sys2Proof
end

