-- ==== Sys2Proof/Config.lean ====
section
/-! DEFINITION. What the spec leaves to the implementation, and the external standards that it names and does not restate:
constants without a body, so that no statement can rest on a value of theirs. -/

namespace Sys2Proof

open Sys2Proof.Machine

/-- A free value (R228, R486): the module's own choice among the lane values within a function's error bound, for a function's code
(256 more for its derivative) and an operand in its one form; the same input repeats the same value. -/
opaque Config.freeOffset : Nat → Val → Nat

/-- A free value (R30, R354, R356): what a lane of an Update Engine vector register holds that the running program has not written, by
register and lane; the same for every unit and run. -/
opaque Config.freeVector : Nat → Nat → BitVec 32

/-- SHA-384 (R447, R448, R469). -/
opaque Config.sha384 : List Byte → BitVec 384

/-- ECDSA P-384 verification (FIPS 186-5): key, digest, r and s (R448). -/
opaque Config.ecdsaVerify : List Byte → BitVec 384 → List Byte → Bool

/-- Is this pair of 48-byte integers a point on P-384 (R471)? -/
opaque Config.onP384 : List Byte → Bool

/-- The GCM tag of AES-256 over a nonce, additional data and plaintext (R319). -/
opaque Config.gcmTag : BitVec 256 → BitVec 96 → List Byte → List Byte → BitVec 128

/-- AES-256-GCM's encryption of a payload under a key and nonce (R319). -/
opaque Config.gcmSeal : BitVec 256 → BitVec 96 → List Byte → List Byte

/-- The decryption. -/
opaque Config.gcmOpen : BitVec 256 → BitVec 96 → List Byte → List Byte

/-- A part's calibrated sub-grid voltage, in mV: by Sector and operating point in MHz (R377). -/
opaque Config.calibratedMv : Nat → Nat → Nat

/-- A free value for a quantity that the spec leaves open, by the model's own index. -/
opaque Config.freeValue : Nat → Nat

end Sys2Proof
end

