-- ==== Sys2Proof/Machine/Functions.lean ====
section
/-! DEFINITION. The exact values of the functions of R228 and of their derivatives (R486), to far more than lane precision, and the
lane values that lie within an error bound of them. -/

namespace Sys2Proof.Machine

open Sys2Proof

/-- One in the fixed-point numbers of this file: 1,024 fraction bits. -/
def fxOne : Int := 2 ^ 1024

def fxMul (a b : Int) : Int := a * b / fxOne
def fxDiv (a b : Int) : Int := a * fxOne / b

/-- A finite value as a fixed-point number. -/
def fxOf : Val → Int
  | .fin s m e =>
    let a : Nat := if -1024 ≤ e then m * 2 ^ (e + 1024).toNat else m / 2 ^ (-1024 - e).toNat
    if s then -(a : Int) else a
  | _ => 0

/-- A fixed-point number as a value. -/
def fxVal (x : Int) : Val := .fin (decide (x < 0)) x.natAbs (-1024)

def fxSqrt (x : Int) : Int := Nat.sqrt (x.toNat * 2 ^ 1024)

/-- Terms t r^i / ((n) (n + 1) ...) of the exponential series. -/
def expSum (r : Int) : Nat → Nat → Int → Int → Int
  | 0, _, _, acc => acc
  | f + 1, n, t, acc => expSum r f (n + 1) (fxMul t r / n) (acc + t)

/-- Odd terms t z2^i / (n + 2 i) of the inverse tangents. -/
def atanSum (z2 : Int) : Nat → Nat → Int → Int → Int
  | 0, _, _, acc => acc
  | f + 1, n, t, acc => atanSum z2 f (n + 2) (fxMul t z2) (acc + t / n)

/-- atanh z for |z| at most 1/3. -/
def fxAtanh (z : Int) : Int := atanSum (fxMul z z) 340 1 z 0

def fxLn2 : Int := 2 * fxAtanh (fxOne / 3)

def fxSquares : Nat → Int → Int
  | 0, y => y
  | n + 1, y => fxSquares n (fxMul y y)

/-- e^x; from e^400 on only that it is beyond the lane range, and below e^-700 nothing. -/
def fxExp (x : Int) : Int :=
  let x := min x (400 * fxOne)
  if x < -(700 * fxOne) then 0
  else
    let k := x / fxLn2
    let y := fxSquares 8 (expSum ((x - k * fxLn2) / 256) 120 1 fxOne 0)
    if 0 ≤ k then y * 2 ^ k.toNat else y / 2 ^ (-k).toNat

/-- ln of m times 2^e. -/
def fxLn (m : Nat) (e : Int) : Int :=
  let l := bitLen m
  let t : Int := (m * 2 ^ 1024 : Nat) / (2 ^ (l - 1) : Nat)
  (e + l - 1) * fxLn2 + 2 * fxAtanh (fxDiv (t - fxOne) (t + fxOne))

/-- ln(1 + y) for y from 0 to 1. -/
def fxLn1p (y : Int) : Int := 2 * fxAtanh (fxDiv y (2 * fxOne + y))

def fxSigmoid (x : Int) : Int :=
  let e := fxExp (-x.natAbs)
  if 0 ≤ x then fxDiv fxOne (fxOne + e) else fxDiv e (fxOne + e)

def fxTanh (x : Int) : Int :=
  let t := fxExp (-(2 * x.natAbs))
  let y := fxDiv (fxOne - t) (fxOne + t)
  if 0 ≤ x then y else -y

def fxSoftplus (x : Int) : Int :=
  let l := fxLn1p (fxExp (-x.natAbs))
  if 0 ≤ x then x + l else l

/-- atan(1/q). -/
def fxAtanInv (q : Nat) : Int := atanSum (-(fxOne / (q * q))) 230 1 (fxOne / q) 0

def fxPi : Int := 4 * (4 * fxAtanInv 5 - fxAtanInv 239)

/-- Terms of the sine (n = 2) and cosine (n = 1) series: t, then t times -r^2 / (n (n + 1)). -/
def trigSum (r2 : Int) : Nat → Nat → Int → Int → Int
  | 0, _, _, acc => acc
  | f + 1, n, t, acc => trigSum r2 f (n + 2) (-(fxMul t r2) / (n * (n + 1))) (acc + t)

/-- The sine of x plus `quarters` right angles. -/
def fxSin (quarters : Int) (x : Int) : Int :=
  let h := fxPi / 2
  let q := x / h
  let r := x - q * h
  let s := trigSum (fxMul r r) 100 2 r 0
  let c := trigSum (fxMul r r) 100 1 fxOne 0
  match (q + quarters) % 4 with
  | 0 => s
  | 1 => c
  | 2 => -s
  | _ => -c

/-- Terms t (2 z2)^i / ((n) (n + 2) ...) of the error function's series. -/
def erfSum (z2 : Int) : Nat → Nat → Int → Int → Int
  | 0, _, _, acc => acc
  | f + 1, n, t, acc => erfSum z2 f (n + 2) (2 * fxMul t z2 / n) (acc + t)

def fxErf (z : Int) : Int :=
  if 20 * fxOne ≤ z then fxOne
  else if z ≤ -(20 * fxOne) then -fxOne
  else
    let z2 := fxMul z z
    fxMul (fxDiv (2 * fxOne) (fxSqrt fxPi)) (fxDiv (erfSum z2 1800 3 z 0) (fxExp z2))

/-- The normal distribution and its density. -/
def fxPhi (x : Int) : Int := (fxOne + fxErf (fxMul x (fxSqrt (fxOne / 2)))) / 2
def fxDensity (x : Int) : Int := fxDiv (fxExp (-(fxMul x x) / 2)) (fxSqrt (2 * fxPi))

/-- The constant 0.044715 of GELU_TANH, and u of its definition with its derivative. -/
def fxCubic : Int := 44715 * fxOne / 1000000
def fxU (x : Int) : Int := fxMul (fxSqrt (fxDiv (2 * fxOne) fxPi)) (x + fxMul fxCubic (fxMul x (fxMul x x)))
def fxDu (x : Int) : Int := fxMul (fxSqrt (fxDiv (2 * fxOne) fxPi)) (fxOne + 3 * fxMul fxCubic (fxMul x x))

/-- The definition of a function of R228 whose bound exceeds 0.5, at a finite operand in its domain. -/
def funcExact (code : Nat) (x : Val) : Val :=
  let a := fxOf x
  match code with
  | 0x04 => fxVal (fxSigmoid a)
  | 0x05 => fxVal (fxTanh a)
  | 0x06 => fxVal (fxMul a (fxPhi a))
  | 0x07 => fxVal (fxMul a (fxSigmoid (2 * fxU a)))
  | 0x08 => fxVal (fxMul a (fxSigmoid a))
  | 0x09 => fxVal (fxSoftplus a)
  | 0x0A => fxVal (fxExp a)
  | 0x0B => fxVal (fxExp (fxMul a fxLn2))
  | 0x0C => match x with
    | .fin _ m e => fxVal (fxLn m e)
    | _ => .nan
  | 0x0D => Val.div 300 .one x
  | 0x0F => Val.rsqrt 300 x
  | 0x10 => fxVal (fxSin 0 a)
  | 0x11 => fxVal (fxSin 1 a)
  | _ => .nan

/-- Its bound, in units in the last place (R228). -/
def funcBound : Nat → Nat
  | 0x04 | 0x05 | 0x09 | 0x10 | 0x11 => 2
  | 0x06 | 0x07 | 0x08 => 3
  | _ => 1

/-- f' of R228's last column at a finite operand in its domain, where no rule fixes its bits. -/
def derivExact (code : Nat) (x : Val) : Val :=
  let a := fxOf x
  match code with
  | 0x04 => Val.mul x (Val.add false .one x.neg)
  | 0x05 => Val.add false .one (Val.mul x x).neg
  | 0x06 => fxVal (fxPhi a + fxMul a (fxDensity a))
  | 0x07 =>
    let u := 2 * fxU a
    fxVal (fxSigmoid u + fxMul (2 * fxMul a (fxDu a)) (fxMul (fxSigmoid u) (fxSigmoid (-u))))
  | 0x08 => fxVal (fxMul (fxSigmoid a) (fxOne + fxMul a (fxSigmoid (-a))))
  | 0x09 => fxVal (fxSigmoid a)
  | 0x0B => fxVal (fxMul a fxLn2)
  | 0x0C => Val.div 300 .one x
  | 0x0D => (Val.mul x x).neg
  | 0x0E => Val.div 300 (.fin false 1 (-1)) x
  | 0x0F => (Val.mul (.fin false 1 (-1)) (Val.mul x (Val.mul x x))).neg
  | 0x10 => fxVal (fxSin 1 a)
  | 0x11 => fxVal (fxSin 2 a)
  | 0x13 => x.scale2 1
  | _ => .nan

/-- The unit in the last place of the lane value at an exact result. -/
def laneUlp : Val → Int
  | .fin _ m e => max (e + bitLen m - 24) (-533)
  | _ => 0

/-- A significand without its trailing zeros. -/
def oddPart : Nat → Nat → Int → Nat × Int
  | 0, m, e => (m, e)
  | n + 1, m, e => if m % 2 = 0 then oddPart n (m / 2) (e + 1) else (m, e)

/-- The one form of a value: an odd significand, or zero with exponent 0. -/
def Val.canon : Val → Val
  | .fin s m e => if m = 0 then .fin s 0 0 else .fin s (oddPart (bitLen m) m e).1 (oddPart (bitLen m) m e).2
  | x => x

/-- Is `w` within `t` of `x`? This file knows `x` to far better than 2^-150 of the unit of `t`, and a lane value that near to the bound lies
on it. -/
def withinOf (t x w : Val) : Bool :=
  let d := (Val.add false w x.neg).abs
  !w.isInf && !Val.lt (Val.add false t (.fin false 1 (t.unit - 150))) d

/-- A lane value within `t` of an exact value: `n` of 2 × `top` steps across the span, and the nearest lane value where that step
leaves the span by its rounding. Every lane value within the span is some step's, for `top` large enough. -/
def laneStep (t x : Val) (top n : Nat) : Val :=
  let d := Val.add false (Val.mul t (.fin false (n % (2 * top + 1)) 0)) (Val.mul t (.fin true top 0))
  let w := laneArith.round .rne (Val.add false x (Val.div 200 d (.fin false top 0)))
  if withinOf t x w then w else laneArith.round .rne x

/-- One of the lane values within `bound` units in the last place of an exact value; `choice` is the module's own (R228). -/
def laneWithin (choice bound : Nat) (x : Val) : Val := laneStep (.fin false bound (laneUlp x)) x (4096 * bound) choice

/-- One of the lane values within 2^-22 of an exact value. -/
def laneNear22 (choice : Nat) (x : Val) : Val := laneStep (.fin false 1 (-22)) x (2 ^ 520) choice

end Sys2Proof.Machine
end

