-- ==== Sys2Proof/Machine/State.lean ====
section
/-! DEFINITION. The state of the module as plain data, the model's own stops, and the state after reset. -/

namespace Sys2Proof.Machine

open Sys2Proof

/-- The model's fault: a command that names a thing the spec says does not exist. -/
inductive Fault where
  /-- Raised by SCRUB_READ and TIER_TRAINING_COMPLETE for a frame or granule beyond the tier (R255). Safe: the hardware has
  no such frame. -/
  | noFrame
deriving DecidableEq, Repr

/-- The model's refusal. -/
inductive Refusal where
  /-- Raised by exec's arm of a command that has no meaning yet. Safe: nothing can be proved of the command. -/
  | notModelled (mnemonic : String)
deriving DecidableEq, Repr

/-- The three parts (R1). -/
inductive Part where
  | m2b | m1b | m2a
deriving DecidableEq, Repr

/-- `STATE` of MODULE_STATE (R426). -/
inductive ModState where
  | resetting | training | ready | stopped | noSpare
deriving DecidableEq, Repr

/-- `TIME_STATE` (R140). -/
inductive TimeState where
  | free | acquiring | locked | holdover | lost
deriving DecidableEq, Repr

/-- Power-up phases (R459, R475). -/
inductive Phase where
  | off | inrush | standby | mainRails | training | up
deriving DecidableEq, Repr

/-- The power-up sequencer and the pins that drive it (R459, R461, R474, R478). -/
structure Startup where
  phase       : Phase
  selfTest    : Bool
  tierDone    : List Nat
  inputMv     : Nat
  modResetLow : Bool
  /-- A retirement of this start found no spare (R462). -/
  needNoSpare : Bool
  straps      : Nat
  i3cDyn      : Option Nat
deriving DecidableEq, Repr

/-- What R469 reads from flash and what the module keeps through every reset (R468). -/
structure Flash where
  serial         : List Byte
  macBase        : Nat
  ownerKey       : Option (List Byte)
  requireSigned  : Bool
  /-- Retired physical Stations (R406). -/
  retired        : List Nat
  /-- Retired frames, tier × 2^21 + frame (R282). -/
  retiredFrames  : List Nat
  /-- Lifetime trim steps by Sector (R382). -/
  lifeTrim       : Table Nat
  topOpMhz       : Nat
  /-- Slowdown steps already answered, by Sector (R382). -/
  slowdown       : Table Nat
  framesAtStart  : Nat
  stationsAtStart : Nat
  lastReset      : Nat
  resetCause     : Nat
deriving DecidableEq, Repr

/-- The copy of line time that a physical Station keeps (R145). -/
structure LineCopy where
  /-- The copy less line time, in 1/16 lt, when it was last compared, and the Station's cycle then. -/
  err   : Int
  since : Nat
deriving DecidableEq, Repr

/-- Line time and its discipline (R139 to R145, R440). -/
structure TimeKeeper where
  lt        : Nat
  state     : TimeState
  /-- 0 none, 1 PTP, 2 reference. -/
  source    : Nat
  transport : Nat
  domain    : Nat
  refFreq   : Nat
  primary   : Nat
  secondary : Nat
  onSecondary : Bool
  holdoverMs : Nat
  ppsLt     : Nat
  /-- Measurements in a row within ±10 lt. -/
  goodRun   : Nat
  /-- Last measured offset from the source, 1/4 lt. -/
  offset    : Int
  /-- The secondary has been measured within ±10 lt. -/
  secGood   : Bool
  holdoverFrom : Nat
  /-- Rate correction in force, ppm, within ±100 (R143). -/
  slewPpm   : Int
  /-- Ports on which a two-step Sync has come whose Follow_Up has not (R141). -/
  followDue : List Nat
  /-- Line time of the last Sync on the port in use, and its log sync interval (R141). -/
  syncLt    : Nat
  syncLog   : Int
  /-- The physical Stations' copies of line time. -/
  copies    : Table LineCopy
deriving DecidableEq, Repr

/-- Module-wide policies (R16, R439). `false` is the first value of R16. -/
structure Policies where
  budget   : Bool
  prompt   : Bool
  /-- The recovery order of the recovery under way (R439). -/
  promptNow : Bool
  drop     : Bool
  padded   : Bool
  /-- A late-contributions value waiting for the next Right-away. -/
  dropNext : Option Bool
  /-- A stepping value waiting for the next START, RESUME or ADOPT. -/
  paddedNext : Option Bool
deriving DecidableEq, Repr

/-- A Station change waiting at the ramp meter (R391, R393): when it was requested, the logical Station, and rise or fall. -/
structure MeterReq where
  since : Nat
  k     : Nat
  rise  : Bool
deriving DecidableEq, Repr

/-- A Warning Board in force (R394). -/
structure Board where
  /-- S of R394, the instant at which the pre-ramp begins, and S + `DURATION`. -/
  startLt : Nat
  rampLt  : Nat
  endLt   : Nat
  target  : Nat
  /-- Stations that are to be active for the measured draw to reach the target. -/
  want    : Nat
  raised  : List Nat
deriving DecidableEq, Repr

/-- One temperature point (R397). -/
structure Point where
  reading : Int
  failed  : Bool
  missed  : Nat
  /-- Hottest reading in the present 1 ms window. -/
  peak    : Int
deriving DecidableEq, Repr

/-- Power, clocks and temperature (14_power_clocks_thermal.md). -/
structure Power where
  capW      : Nat
  fMax      : Nat
  floor     : Nat
  rampW     : Nat
  straggleHold : Bool
  fSet      : Nat
  /-- Operating point whose voltage is in force, in MHz, and the line time at which it last rose (R377). -/
  voltMhz   : Nat
  voltAt    : Nat
  fastCeil  : Nat
  capCeil   : Nat
  thermCeil : Nat
  /-- Tier admission in force, and the one ordered, in sixteenths (R386, R391). -/
  admission : Nat
  admTarget : Nat
  /-- The fast limiter's trigger held in its last window, and the line time of the fast ceiling's last rise (R385). -/
  fastOn    : Bool
  fastRose  : Nat
  /-- Average input power of the last 50 µs window, mW (R383). -/
  lastAvg   : Nat
  /-- That of the last 2 µs window and of the last 1 ms window, and the sum of the 50 µs averages of the 1 ms window in progress. -/
  avgFast   : Nat
  avgMs     : Nat
  sumMs     : Nat
  qBase     : Nat
  qComp     : Nat
  /-- Windows in a row that ended with Q_FREE below 0 (R389). -/
  booksBad  : Nat
  /-- The power state is tight (R390). -/
  tight     : Bool
  /-- Line time at which the last tight condition ended. -/
  calmSince : Option Nat
  energyWin  : Nat
  energyPrev : Nat
  /-- Line times from which the meter may grant the next rise and the next fall (R391). -/
  meterUp   : Nat
  meterDown : Nat
  meterQ    : List MeterReq
  /-- Temporary trims by Sector: lapse times of +5 mV trims (R381). -/
  tempTrims : Table (List Nat)
  boards    : List Board
  /-- Granted stretches by region: period numbers (R379). -/
  stretches : Table (List Nat)
  points    : Table Point
  /-- Logical Stations that are active (R393). -/
  active    : List Nat
  /-- Cycle at which a logical Station last entered a valid row (R393). -/
  validSc   : Table Nat
  /-- Which dies and clocks are stopped by R398 or R399. -/
  compStopped : Bool
  dieStopped : List Nat
  /-- The stop that MODULE_STATE STOPPED reports: false THERMAL_TRIP, true POWER_FAULT. -/
  powerStop : Bool
deriving DecidableEq, Repr

/-- A command fetched from a queue and not yet replied (R427, R430). -/
structure FetchedCmd where
  header   : BitVec 256
  params   : List Byte
  /-- Order of fetching over all queues. -/
  seq      : Nat
  accepted : Bool
  parked   : Bool
  /-- Its parameters could not be read from host memory (R433). -/
  hostErr  : Bool
deriving DecidableEq, Repr

/-- One queue: the ring registers of R426 and the commands fetched. Queue 8 is the management queue. -/
structure Queue where
  sqBase : Nat
  cqBase : Nat
  enable : Bool
  vec    : Nat
  log2   : Nat
  error  : Bool
  sqTail : Nat
  sqHead : Nat
  cqHead : Nat
  cqTail : Nat
  phase  : Bool
  cmds   : List FetchedCmd
deriving DecidableEq, Repr

/-- An event record (R452); a field that does not apply holds all ones. -/
structure EvtRec where
  lt      : Nat
  seq     : Nat
  family  : Nat
  code    : Nat
  scope   : Nat
  context : Nat
  pstation : Nat
  lstation : Nat
  line    : Nat
  sect    : Nat
  index   : Nat
  object  : Nat
  page    : Nat
  loc     : Nat
deriving DecidableEq, Repr

/-- The event ring (R451). -/
structure EventRing where
  base   : Nat
  enable : Bool
  vec    : Nat
  log2   : Nat
  head   : Nat
  tail   : Nat
  buffer : List EvtRec
  seq    : Nat
  faultLost : Bool
deriving DecidableEq, Repr

/-- The Census (R457). -/
inductive CensusState where
  | idle
  | scheduled (q : Nat) (trigger slot t : Nat)
  | armed (q : Nat) (slot family code : Nat)
  | triggered (q : Nat) (slot t : Nat) (rec : EvtRec)
  | held (parts : List (List Byte))
deriving DecidableEq, Repr

/-- Counters (R15, R455); `inst` numbers are those of the group. -/
inductive Ctr where
  -- module
  | pointsClamp | latelogLost | latelogFull | timeLostEvents | ptpSyncRx
  | shuntMoves | shuntMoveGran | shuntZeroFills | shuntFallbackTiles | shuntLatePages | shuntFrameRetired | t3PoisonFull
  | stepsBad
  | marginExhausted | freqSteps | fastLimit | capWindowsOver | throttleMs | collPeerLateMax | tempSensorFail | pwrInputJ
  | depRetired | depReplays | depWatchdog | depotPushGran | depotReplicaLost | peerLost | adoptions
  | evtLost
  -- physical Station
  | rowsValid | rowsBubble | rowsBallast | rowsDiscarded | abftRetry | abftDup
  | loopFlits (l : Fin 2) | loopEmpty (l : Fin 2) | loopCreditWait (l : Fin 2) | loopHeld (l : Fin 2) | loopDiscard (l : Fin 2)
  | loopReplay (l : Fin 2)
  | accCascadeSpill | accDrainWait | accLongSum | accResidueRetry | accEccCorrected | accEccUncorrected
  | ttIssued | ttLate | ttLateLt | ttDispatchPassed
  | mmaIntRange | mmaAcc96Ovf | mmaSwitch
  | drainRows | vecRows | vecFeedYield | drainPathBusy
  | pilotWaybills | pilotFillGran | pilotWriteGran | pilotSlotWait | sidingDiscard | pilotPoison
  | govWithheldSc
  -- logical Station
  | convertSat | convertNan
  -- region
  | clkStretch | clkStretchDenied | marginWarn
  -- Turntable
  | turnRecords | turnFlits | turnQueueWait | turnFeedWait
  -- die
  | netStrangerAddr | netStrangerFlow | netStrangerAuth | netCrc | netRxBeyond | netDup | netRetx | netRto | netCe
  | pathSuspend | slotOverrun | slotUntimed | netKeyAge
  | collMsgTx | collMsgRx | collFolded | collDropped | collDiscard | stragLost | ueUnits | ueCycles | raCommits | raRejects
  | ueRollForward
  | ueConvertSat | ueConvertNan
  -- port
  | netTxFrames | netRxFrames | netTxGran | netRxGran | netFcsErr | netFecCorrected
  -- tier
  | memCorrected | scrubPasses
  -- queue
  | sbCommands | sbErrors
deriving DecidableEq, Repr

/-- A counter's value with its SAT bit (R15). -/
structure CtrVal where
  value : Nat
  sat   : Bool
deriving DecidableEq, Repr

/-- States of a context slot (R434). -/
inductive SlotState where
  | empty | loaded | bound | running | recovering | preempted | stopped
deriving DecidableEq, Repr

/-- An image as LOAD_IMAGE and BIND read it (R446, R447). -/
structure Image where
  bytes  : List Byte
  digest : BitVec 384
  ranges : List (Nat × Nat)
deriving DecidableEq, Repr

/-- What BIND gives and allocates (R449, R264). -/
structure Binding where
  jobRank  : Nat
  g        : Nat
  k        : Nat
  rho      : Nat
  depotFrames : Nat
  peerTimeoutMs : Nat
  shard1   : Nat
  shard2   : Nat
  /-- Tier 3 frames of the grant, in range order. -/
  t3Frames : List Nat
  t3Ranges : List (Nat × Nat)
  flows    : List Nat
  /-- First map entry of each object; system items 0 to 3 stand at 1,048,576 + item. -/
  mapBase  : Table Nat
  peak     : Nat
deriving DecidableEq, Repr

/-- A Points departure of the running section (R172). -/
structure PointsSel where
  station  : Nat
  line     : Nat
  index    : Nat
  base     : Nat
  targets  : Nat
  mask     : Bool
  predict  : Nat
  join     : Nat
  value    : Nat
  poisoned : Bool
  /-- Sections selected, once broadcast. -/
  selected : Option (List Nat)
deriving DecidableEq, Repr

/-- The run of a context (R149, R150, R441). -/
structure Run where
  epoch     : Nat
  sect      : Nat
  sectEpoch : Nat
  /-- Line time at which the section became the running section. -/
  began     : Nat
  /-- NEXT_SECTION of a cancel in force (R443). -/
  cancelled : Option Nat
  /-- The cancel is a `HALT`: it stops the departures of every section (R306). -/
  halting   : Bool
  /-- The cancel is a `PREEMPT`: the Stations save the context (R306, R442). -/
  switching : Bool
  points    : Option PointsSel
  /-- Sections that follow while Points targets run; 0xFFFF ends the run. -/
  follow    : List Nat
  /-- PREEMPT with WHEN 1 waits for the boundary; the queue it came from. -/
  preemptAt : Option Nat
  /-- Fixed epochs in the past float (R409, R442). -/
  floatPast : Bool
  /-- The pages below target at the section's epoch have been counted (R279). -/
  epochSeen : Bool
  /-- START's run epoch has not come yet. -/
  waiting   : Bool
deriving DecidableEq, Repr

/-- The step of a context (R308, R344, R358, R362). -/
structure StepState where
  committed  : Nat
  bad        : Bool
  collIssued : List Nat
  raIssued   : Option (Nat × Nat × Nat)
  voted      : Bool
  /-- Class P pages written since the last Right-away: object, page (R408, R414). -/
  dirty      : List (Nat × Nat)
  /-- Those of them that have been sent to the holders. -/
  pushed     : List (Nat × Nat)
  /-- Uses already signalled in the step: object, section (R278). -/
  signalled  : List (Nat × Nat)
  /-- Sections that have ended in the step (R271, R276). -/
  ended      : List Nat
deriving DecidableEq, Repr

/-- A context's lateness log (R169, R170). -/
structure LateLog where
  entries : List Nat
  lost    : Nat
  full    : Bool
deriving DecidableEq, Repr

/-- Replica states (R415). -/
inductive Replica where
  | absent | seeding | current | lost
deriving DecidableEq, Repr

/-- A group slot's state record (R115) and whether it is closing (R208). -/
structure Group where
  isOpen   : Bool
  closing  : Bool
  base     : Nat
  count    : Nat
  kind     : Nat
  orderFixed : Bool
  cascade  : Bool
  isPartner : Bool
  partner  : Nat
  owner    : Nat
  nextSeq  : Nat
  openSection : Nat
  inFlight : Nat
  /-- A LONG_SUM event has been raised since the group opened (R125). -/
  longSum  : Bool
  /-- Cycle of the last write of one of its rows or spills, or of the cancel that ended the last of them (R130). -/
  lastWrite : Nat
deriving DecidableEq, Repr

/-- `ROW_STATUS` (R113). -/
structure RowStatus where
  longSum    : Bool
  cancelMark : Bool
  clear      : Bool
  termCount  : Nat
deriving DecidableEq, Repr

/-- A tile in a stationary plane (R70, R188): format descriptor, tile record, poisoned granules, its section. -/
structure Plane where
  desc   : Nat
  bytes  : List Byte
  poison : List Nat
  tag    : Nat
  sect   : Nat
  /-- The check references r[j] and a[j] of a staged tile (R79); empty in a streamed record. -/
  refs   : List Val
  mags   : List Val
deriving DecidableEq, Repr

/-- A departure that has issued: running line, position, and the Station's own issue number, so that a section run again
never confuses its departures with those of the earlier run. -/
structure DepId where
  line  : Nat
  index : Nat
  uid   : Nat
deriving DecidableEq, Repr

/-- The shadow plane (R187). `doneSc`: the cycle at which staging completes, known once the record's data is at hand. -/
inductive Shadow where
  | empty
  | staging (tag desc : Nat) (dep : DepId) (data : Option Plane) (doneSc : Nat)
  | full (plane : Plane) (doneSc : Nat)
deriving DecidableEq, Repr

/-- A departure that has issued and not completed (R157, R166). -/
structure Prog where
  id      : DepId
  sect    : Nat
  word    : BitVec 256
  /-- P of R166. -/
  planned : Nat
  issueLt : Nat
  issueSc : Nat
  /-- Its signals have fired. -/
  fired   : Bool
  /-- Next row, pass or record to take. -/
  next    : Nat
  pass    : Nat
  /-- Rows of the departure whose last term has been written. -/
  written : Nat
  /-- The cycle at which the departure completes, once its work is done. -/
  doneSc  : Option Nat
  /-- First Siding position claimed (R288), and the line time at which the departure came to the position that it takes from (R303). -/
  claim   : Nat
  reachLt : Nat
  /-- Its issue by the Station's copy of line time, in 1/16 lt, and its issue delay W by cause in 1/16 lt (R166, R167). -/
  issueAt : Nat
  waits   : List (Nat × Nat)
  /-- Cycles of the stalls after its issue that have been charged so far, by cause (R167). -/
  stalls  : List (Nat × Nat)
  /-- Of a multiply: the cycle in which its next row would enter without a stall, and whether a retry of R82 has come since. -/
  due     : Nat
  redone  : Bool
deriving DecidableEq, Repr

/-- A valid row in the array (R68, R82). -/
structure Row where
  dep    : DepId
  t      : Nat
  pass   : Nat
  entry  : Nat
  c      : Nat
  group  : Nat
  /-- Tile row reached; the lower of the two in an ACC96 group. -/
  tileRow : Nat
  /-- What each cell row sends to the check column, before any scale, and the scale exponents of its block terms (R75). -/
  sums   : List (List Val)
  exps   : List (List (Option Int))
  neg    : Bool
  /-- S_ref, by block on the block path, and M (R80). -/
  refs   : List Val
  bound  : Val
  /-- Terms of each column, exact (R75). -/
  terms  : List (List Val)
  /-- Columns that the row poisons (R201). -/
  poison : List Nat
  nterms : Nat
  /-- 0 block with 32 elements, 1 block with 16, 2 integer, 3 float chain, 4 FP64 chain (R75). -/
  path   : Nat
  isat   : Bool
  dup    : Bool
  ovf    : Bool
  judged : Bool
  /-- The row has been entered again after a mismatch. -/
  retried : Bool
  /-- Siding and position whose last row this is: released with the row (R84). -/
  frees  : Option (Nat × Nat)
deriving DecidableEq, Repr

/-- A spill of a cascaded pair on its way to the partner (R127). -/
structure Spill where
  slot    : Nat
  /-- Tile row of the primary (the lower of a pair in ACC96). -/
  tileRow : Nat
  values  : List Val
  poison  : List Nat
  mark    : Bool
  /-- Cycle of the trigger, and the adder tree's shift at it (R120, R122). -/
  trigger : Nat
  hold    : Nat
deriving DecidableEq, Repr

/-- A departure that holds the drain path's interlock: a drain, or a close (R130, R132). -/
structure Waiting where
  dep     : DepId
  isClose : Bool
  groups  : List Nat
  since   : Nat
deriving DecidableEq, Repr

/-- A departure that the drain path carries out, its reads by cycle (R216 to R219), and what the Station's memories held before it:
a cancel takes back what it had not done. -/
structure DrainRun where
  dep    : DepId
  /-- Groups that a drain reads. -/
  groups : List Nat
  /-- Cycle of the first read, and cycles in which the operands read once are read. -/
  start  : Nat
  once   : Nat
  rows   : Nat
  pace   : Nat
  /-- Cycles of a row in which the array-feed port is read, none for a drain, and those that the reads have waited for it (R217). -/
  reads  : Nat
  yields : Nat
  /-- Cycles to write its reduction results. -/
  red    : Nat
  /-- The path's last write before this departure. -/
  before : Nat
  store  : List Host.Cell
  storePoison : List Nat
  acc    : Table (List Nat)
  accPoison : List Nat
  status : Table RowStatus
deriving DecidableEq, Repr

/-- States of a Siding position (R289); `reserved` holds no slot, and `gone` is a slot released before its fill is done. -/
inductive PosState where
  | reserved | inFlight | filled | returning | gone
deriving DecidableEq, Repr

/-- What fills a Siding position: a Waybill of a Manifest, or a Turntable (R288). -/
inductive PosSource where
  | waybill (manifest : DepId) (i : Nat)
  | expect (desc : Nat) (turned : Bool)
deriving DecidableEq, Repr

/-- A page that a read in flight reads (R274). -/
structure FillRead where
  /-- Map entry of the page, the frame that served it when the read began, tier × 2^21 + frame, and whether it read as zero then. -/
  entry : Nat
  frame : Nat
  zero  : Bool
deriving DecidableEq, Repr

/-- The oldest reserved position of a Siding whose fill waits for a slot or for ring space (R290): the cycle at which the wait began, the one
up to which it has been counted, and the line time since which no issued take has held a claim on the Siding (R303). -/
structure FillWait where
  num     : Nat
  began   : Nat
  since   : Nat
  hungLt  : Option Nat
deriving DecidableEq, Repr

/-- A position of a Siding with its entry fields (R288 to R290). -/
structure Pos where
  /-- Number of the position in the Siding's order (R288). -/
  num     : Nat
  state   : PosState
  source  : PosSource
  object  : Nat
  row     : Nat
  col     : Nat
  desc    : Nat
  sect    : Nat
  poison  : Bool
  /-- Granule offset in the ring, and length. -/
  ringAt  : Nat
  len     : Nat
  /-- The fill is done in position order (R299). -/
  done    : Bool
  /-- Its read was cancelled in flight (R304). -/
  cut     : Bool
  /-- It belongs to a section that has not begun (R298). -/
  ahead   : Bool
  /-- Of a fill in flight: the pages that it reads (R274), the line time before which no data is at the Pilot, and the cycle at which it
  began (R302). -/
  reads   : List FillRead
  firstLt : Nat
  beganSc : Nat
deriving DecidableEq, Repr

/-- A Siding (R286). -/
structure Siding where
  isSet  : Bool
  base   : Nat
  size   : Nat
  line   : Nat
  fillAt : Nat
  slots  : List Pos
  /-- Number of the next position reserved, and of the next position claimed by a take (R288). -/
  next   : Nat
  claimed : Nat
  wait   : Option FillWait
deriving DecidableEq, Repr

/-- A burst of Waybills that has been fetched and has not arrived (R294, R302): the line time before which it is not at the Pilot, and
the pages that it reads. -/
structure Burst where
  firstLt : Nat
  reads   : List FillRead
deriving DecidableEq, Repr

/-- A Waybill in a slot of its Station (R294). -/
structure Wb where
  index   : Nat
  word    : Nat
  /-- 0 fetched, 1 started, 2 done. -/
  stage   : Nat
deriving DecidableEq, Repr

/-- A Manifest in the Pilot queue (R292, R293). -/
structure Manifest where
  dep     : DepId
  issueLt : Nat
  sect    : Nat
  object  : Nat
  first   : Nat
  count   : Nat
  writeBack : Bool
  siding  : Nat
  forSect : Nat
  token   : Nat
  /-- Waybills whose burst has been fetched, and whose burst has arrived and been checked. -/
  fetched : Nat
  arrived : Nat
  bursts  : List Burst
  wbs     : List Wb
  failed  : Bool
  cancelled : Bool
deriving DecidableEq, Repr

/-- Why the head of a line is delayed, from an instant of the Station's copy on, in 1/16 lt: the head's planned time in lt, before which
it only waits for that, and the cause from there on (R166, R167). -/
structure Delay where
  start   : Nat
  planned : Nat
  cause   : Nat
deriving DecidableEq, Repr

/-- A running line of a Station (R155, R164, R405). -/
structure RunLine where
  next    : Nat
  headLt  : Nat
  ended   : Bool
  /-- Cycle since which the ready head has been passed over while power is tight. -/
  passedFrom : Option Nat
  /-- Line time at which the head's last Token or `GSEQ` wait came to be met while it stood at the head (R405). -/
  metLt   : Option Nat
  /-- Cycle since which the head, a `TURN`, waits for room in its Turntable's queue alone (R247). -/
  queueSc : Option Nat
  /-- The delays of the line's heads in this section, oldest first (R166). -/
  delays  : List Delay
deriving DecidableEq, Repr

/-- A Token signal in transit (R160, R161). -/
structure Signal where
  token  : Nat
  count  : Nat
  /-- The signaller: Station, line, index (all ones for an engine), and the Waybill index of a Pilot signal. -/
  bySt   : Nat
  byLine : Nat
  byIx   : Nat
  bySect : Nat
  wb     : Option Nat
  /-- Cycle in which it was sent, where it goes to a Token of the signalling Station itself (R160). -/
  sc     : Option Nat
deriving DecidableEq, Repr

/-- A logical Station (R63, R112, R158, R187, R286). -/
structure Station where
  store   : List Host.Cell
  storePoison : List Nat
  tokens  : Table Nat
  /-- Line to which a Token is bound in this section (R158). -/
  bound   : Table Nat
  transit : List Signal
  lines   : Table RunLine
  /-- Departures issued, and the cycle of the last issue (R163). -/
  issued  : Nat
  lastIssue : Option Nat
  progs   : List Prog
  groups  : Table Group
  /-- Codes of the 256 entries of a tile row; a row not listed holds zeros. -/
  acc     : Table (List Nat)
  accPoison : List Nat
  rows    : Table RowStatus
  active  : Option Plane
  /-- Line time at which a multiply last switched in a tile (R188). -/
  switched : Option Nat
  shadow  : Shadow
  /-- Entry cycle of the first row that used the active tile (R71). -/
  switchSc : Option Nat
  /-- Multiplies and Ballasts accepted by the array, oldest first. -/
  mulq    : List DepId
  /-- Product time of the last departure whose row has entered; 1 after a reset (R73). -/
  prodTime : Nat
  /-- Entry cycle and product time of the last valid row, and of the last invalid one (R73). -/
  lastEntry : Option (Nat × Nat)
  lastInvalid : Option (Nat × Nat)
  inArray : List Row
  /-- Rows discarded by R82 that wait to enter again, oldest first, and the cycle from which they may. -/
  redo    : List Row
  redoFrom : Nat
  /-- Released rows whose last term is not yet written, with release cycle. -/
  tree    : List (Nat × Row)
  treeHold : Nat
  /-- Cycle of the adder tree's last write. -/
  treeLast : Nat
  spills  : List Spill
  waits   : List Waiting
  /-- Cycle at which the drain path makes its last write, and from which it accepts the next departure (R216). -/
  drainFree : Nat
  drainLast : Nat
  /-- Departures of the drain path that run, oldest first. -/
  runs    : List DrainRun
  /-- Spans in which the feeder reads through the array-feed port: first cycle, and the cycle after (R86). -/
  feeds   : List (Nat × Nat)
  sidings : Table Siding
  pilot   : List Manifest
  /-- Held Waybill slots (R294). -/
  wbHeld  : Nat
  /-- `FOR` and Token of the Manifests issued, and the Tokens that the next boundary sets to 0 (R305). -/
  named   : List (Nat × Nat)
  zeroAt  : List Nat
  /-- Takes that wait for the Consist on a line: departure, line, tag. -/
  takes   : List (DepId × Nat × Nat)
  /-- The Station's accumulator save is done (R136). -/
  saved   : Bool
deriving DecidableEq, Repr

/-- A Consist (R90, R91): header flit bits [255:0], payload, poisoned granules. -/
structure Consist where
  header  : BitVec 256
  data    : List Byte
  poison  : List Nat
  /-- Logical distance travelled so far. -/
  dist    : Nat
  /-- The sending departure, when it was sent by this Station's LOOP_SEND or TURN. -/
  dep     : Option DepId
  /-- Flits that are launched, the header included: all of them, or those launched before a cancel (R105). -/
  size    : Nat
  /-- Cycle of the sending Station from which the header may leave (R244). -/
  readyAt : Nat
deriving DecidableEq, Repr

/-- What a node does with the Consist at the head of its input on a line (R95, R96, R105). -/
inductive InMode where
  /-- It waits for a departure that takes its tag. -/
  | holding
  | passing
  /-- Its flits go to this departure, and on where the path goes on; `first`: the departure's row that the record begins with. -/
  | given (dep : DepId) (first : Nat)
  /-- Its path ends here, where nothing takes it. -/
  | ending
  | dropping
deriving DecidableEq, Repr

/-- The output of a node on a line with the hop that leaves it (R99, R100), and the input of the node on that line. Nodes
0 to 135 are the physical Stations and 136 + s the junction after Sector s. -/
structure Hop where
  /-- The hop's books, in flits: credits held, flits in flight, entries occupied, credits returning (R99). -/
  credits   : Nat
  inFlight  : Nat
  occupied  : Nat
  retCred   : Nat
  /-- SEQ of the next flit (R92). -/
  seq       : Nat
  /-- SEQ of the flits kept for replay, oldest first (R100). -/
  replay    : List Nat
  /-- A replay has been requested from this SEQ. -/
  request   : Option Nat
  /-- Failures in a row of the present flit (R101). -/
  fails     : Nat
  down      : Bool
  /-- Own Consists waiting to be inserted, oldest first. -/
  own       : List Consist
  /-- The Consist whose flits leave the node on this hop, or whose header is still on it, with the flits launched so far. -/
  moving    : Option Consist
  sent      : Nat
  /-- Its header has been read at the other end. -/
  arrived   : Bool
  /-- It is forwarded from this node's own input. -/
  passes    : Bool
  /-- Cycle at which its header was launched, and since which its next flit waits for a credit (R111). -/
  startSc   : Nat
  waitSince : Option Nat
  /-- The Consist at the head of this node's input on this line (R96), what is done with it, and its flits read out. -/
  held      : Option Consist
  mode      : InMode
  read      : Nat
  /-- Its flits that have had time to arrive. -/
  due       : Nat
  /-- Cycle since which it is held, or taken. -/
  heldSince : Nat
  /-- Line time at which it reached the head of the input (R180). -/
  heldLt    : Nat
deriving DecidableEq, Repr

/-- A TURN accepted by a Turntable (R245). -/
structure TurnReq where
  station : Nat
  dep     : DepId
  sect    : Nat
  word    : BitVec 256
  row     : Nat
  col     : Nat
  /-- Cycle of its Station at which it was accepted. -/
  sc      : Nat
deriving DecidableEq, Repr

/-- A `TURN` whose output holds one of a Turntable's two buffers (R244): until its last flit has left, at `freeSc` of its Station for
a Siding, and told by the launch for a line. -/
structure TurnOut where
  station : Nat
  dep     : DepId
  freeSc  : Option Nat
deriving DecidableEq, Repr

/-- A Placement Map entry (R265). -/
structure MapEntry where
  epoch  : Nat
  object : Nat
  page   : Nat
  tier   : Nat
  frame  : Nat
  destTier : Nat
  destFrame : Nat
  /-- 0 FREE, 1 RESIDENT, 2 MOVING. -/
  state  : Nat
  pinned : Bool
  zero   : Bool
deriving DecidableEq, Repr

/-- The Shunter (R270 to R283). -/
structure Shunter where
  chain   : List Nat
  /-- Target tier of each page that the running context holds, by map entry (R271). -/
  targets : Table Nat
  /-- Objects to which the plan has given Tier S or Tier 1 frames, with the tier (R271). -/
  claims  : Table Nat
  /-- Moves in flight and moves queued, by map index, with destination tier. -/
  moving  : List Nat
  queued  : List (Nat × Nat)
  /-- Frames to be retired once their page has moved out, tier × 2^21 + frame (R282). -/
  retiring : List Nat
deriving DecidableEq, Repr

/-- The memory tiers (R255). Keys of `mem`: (tier × 2^21 + frame) × 2^23 + byte; of `poison`: the same over granules. -/
structure Tiers where
  mem    : List Host.Cell
  poison : List Nat
  map    : Table MapEntry
  /-- Line times of the corrected errors of a frame in the last 24 hours (R402). -/
  errors : Table (List Nat)
  /-- Granules scrubbed in the present pass, by tier. -/
  scrubbed : Table Nat
  /-- Home tier of each page that holds a frame, by map entry (R269). -/
  homes    : Table Nat
  /-- Retired frames of the bound contexts' Tier 3 grants (R257, R282). -/
  t3Retired : List Nat
  /-- Source frames whose page has left them while reads are in flight, tier × 2^21 + frame (R274). -/
  draining : List Nat
deriving DecidableEq, Repr

/-- A cage (R312, R480). -/
structure Cage where
  mode    : Option Nat
  trained : Bool
  watts   : Option Nat
deriving DecidableEq, Repr

/-- A port (R314): its entry (R450) and what the module learned. -/
structure Port where
  entry  : BitVec 512
  /-- The IPv6 gateway's MAC address and the IPv4 gateway's, with the line times at which they were resolved (R314). -/
  gw6    : Option (Nat × Nat)
  gw4    : Option (Nat × Nat)
  lock   : Bool
  lockAt : Nat
  /-- When the port will have sent all that is queued for it, in 1/200 lt: at 1,600 Gb/s a byte takes one (R312, R328). -/
  busy   : Nat
deriving DecidableEq, Repr

/-- A key slot (R323). -/
structure Key where
  id     : Nat
  key    : BitVec 256
  since  : Nat
deriving DecidableEq, Repr

/-- A PSN in the send books (R330). -/
structure Sent where
  psn     : Nat
  msg     : Nat
  off     : Nat
  len     : Nat
  last    : Bool
  poison  : Bool
  slot    : Bool
  path    : Nat
  firstLt : Nat
  lastLt  : Nat
  /-- 0 in flight, 1 received out of order, 2 lost awaiting retransmission. -/
  state   : Nat
deriving DecidableEq, Repr

/-- A message to send: number, bytes, poisoned granules, section (R324, R332). -/
structure OutMsg where
  num    : Nat
  data   : List Byte
  poison : List Nat
  sect   : Nat
  off    : Nat
deriving DecidableEq, Repr

/-- A received packet that has passed the checks of R320 and waits to be taken. -/
structure RxPkt where
  hdr   : BitVec 384
  body  : List Byte
  ce    : Bool
deriving DecidableEq, Repr

/-- A message in reassembly, or delivered (R324). -/
structure InMsg where
  num    : Nat
  data   : List Byte
  poison : List Nat
deriving DecidableEq, Repr

/-- A flow (R321, R322). -/
structure Flow where
  state   : Nat
  slot    : Nat
  peerAddr : Nat
  peerFlow : Nat
  peerUdp : Nat
  portMask : Nat
  npaths  : Nat
  dscp    : Nat
  peerRank : Nat
  keyIdTx : Nat
  keyIdRx : Nat
  txKeys  : List Key
  /-- A send key has taken over: the first of `txKeys` is in use (R323). -/
  txLive  : Bool
  rxKeys  : List Key
  txSeq   : Nat
  sndNxt  : Nat
  sndUna  : Nat
  rcvNxt  : Nat
  cwnd    : Nat
  srtt    : Nat
  minRtt  : Nat
  /-- Samples of the last 10 s: line time and rtt (R321). -/
  rtts    : List (Nat × Nat)
  rto     : Nat
  rtoRun  : Nat
  targetQ : Nat
  lastCut : Nat
  sent    : List Sent
  /-- PSN received above RCV_NXT. -/
  rcvMap  : List Nat
  /-- Last packet of each message still incomplete: PSN and message, in PSN order. -/
  lastPsn : List (Nat × Nat)
  /-- Largest TX_SEQ accepted under an installed key, by KEY_ID × 256 + path, plus one. -/
  seen    : Table Nat
  rxq     : List RxPkt
  out     : List OutMsg
  nextMsg : Nat
  inbox   : List InMsg
  delivered : List InMsg
  unacked : Nat
  ackFrom : Option Nat
  ackEcho : Nat
  ackPath : Nat
  ceCount : Nat
  rotation : Nat
  /-- Suspended paths, with the line time of suspension. -/
  suspended : Table Nat
  probing : List Nat
  /-- Losses in a row by path (R328). -/
  pathLoss : Table Nat
  /-- Slot windows open (index in the slot table). -/
  window  : Option Nat
  /-- Line time at which the last window that was ignored began (R335). -/
  ignored : Option Nat
  /-- Earliest line time of the next new packet under its pace, in 1/65,536 lt (R329). -/
  paced   : Nat
  drainFrom : Nat
  /-- Line time of the last `ACK` received (R417). -/
  heard   : Nat
deriving DecidableEq, Repr

/-- IP and UDP fields of a Bililjo packet (R316). -/
structure IpUdp where
  v4    : Bool
  src   : Nat
  dst   : Nat
  /-- IPv6 traffic class or IPv4 DSCP. -/
  dscp  : Nat
  /-- 2: ECT(0). 0: Not-ECT. -/
  ecn   : Nat
  /-- IPv6 hop limit or IPv4 TTL. -/
  ttl   : Nat
  /-- IPv4 don't-fragment. -/
  df    : Bool
  sport : Nat
  dport : Nat
  /-- UDP checksum. -/
  sum   : Nat
deriving DecidableEq, Repr

/-- What a frame carries (R314, R315, R316). -/
inductive TxBody where
  | bililjo (path : Nat) (ip : IpUdp) (hdr : BitVec 384) (body : List Byte) (tag : BitVec 128) (crc : BitVec 32)
  | arpReply (mac ip : Nat)
  | resolve (ip : Nat)
  | echoReply (src dst : Nat) (data : List Byte)
  | delayReq
deriving DecidableEq, Repr

/-- A frame handed to a port: its 802.1Q tag as PCP and VLAN ID (R314), the MAC addresses (no `dst`: not resolved yet, or not given by
the spec), its bytes, and the line time at which it leaves. -/
structure TxFrame where
  port  : Nat
  vlan  : Option (Nat × Nat)
  src   : Nat
  dst   : Option Nat
  size  : Nat
  leave : Nat
  body  : TxBody
deriving DecidableEq, Repr

/-- A contribution as this member collects it (R345, R347, R353): FP32 codes by element, chunk by chunk. -/
structure Contrib where
  epoch  : Nat
  coll   : Nat
  unit   : Nat
  /-- 0 stage 1, 1 stage 2. -/
  stage  : Nat
  sender : Nat
  /-- Chunks that have arrived. -/
  got    : List Nat
  vals   : Table Nat
  /-- Poisoned elements. -/
  poison : List Nat
  /-- `LATE_LT` of its headers. -/
  late   : Nat
  /-- The close of the same stage and unit in a later step has passed, and that step is not decided yet. -/
  passed : Bool
deriving DecidableEq, Repr

/-- A collective in progress on this member (R344). -/
structure CollRun where
  id     : Nat
  dep    : DepId
  sect   : Nat
  /-- The section's epoch. -/
  epochLt : Nat
  /-- Issue delay W of the `COLL`, lt (R347). -/
  w      : Nat
deriving DecidableEq, Repr

/-- A group sum of stage 1: ACC48 codes, and poisoned elements (R346). -/
structure GroupSum where
  codes  : List Nat
  poison : List Nat
deriving DecidableEq, Repr

/-- A unit whose log is complete and whose program is still to run: the instant of completion, the unit, and the job rank whose
Depot replica it is, none for this member's own unit (R354, R367). -/
structure UeJob where
  lt   : Nat
  unit : Nat
  rank : Option Nat
deriving DecidableEq, Repr

/-- An Update Engine (R354): V0 to V63 by lane, S0 to S31 and the scratch words, all FP32 codes. -/
structure UpdateEngine where
  queue   : List UeJob
  /-- Line time at which its last run ended (R357). -/
  freeLt  : Nat
  vregs   : Table (List Nat)
  sregs   : Table Nat
  scratch : Table Nat
deriving DecidableEq, Repr

/-- A vote or a result (R363). -/
structure VoteRec where
  rank     : Nat
  result   : Nat
  firstBad : Nat
  badCount : Nat
  dropped  : Nat
  folded   : Nat
deriving DecidableEq, Repr

/-- A page that this member holds for another, with its poisoned granules (R413, R414). An optimizer page has object 2^21 +
8 × unit + 4 × buffer + number; a Class P page has its owner's object number. -/
structure HeldPage where
  object : Nat
  page   : Nat
  epoch  : Nat
  data   : List Byte
  poison : List Nat
deriving DecidableEq, Repr

/-- A mirrored log (R367). -/
structure MirrorLog where
  unit   : Nat
  got    : List Nat
  vals   : Table Nat
  poison : List Nat
deriving DecidableEq, Repr

/-- The Depot reservation for one rank (R413 to R415). -/
structure DepotShard where
  pages   : List HeldPage
  staged  : List HeldPage
  logs    : List MirrorLog
  /-- Units whose replica has been updated in this step. -/
  updated : List Nat
  /-- Its seeding is complete (R415). -/
  ready   : Bool
  /-- A message exceeded the declared size (R413). -/
  lost    : Bool
deriving DecidableEq, Repr

/-- A request for this member's shard: what for (0 replay, 1 adoption, 2 `RESUME`), which holder (1 or 2), and since when (R408,
R419, R442). -/
structure Ask where
  purpose : Nat
  holder  : Nat
  since   : Nat
deriving DecidableEq, Repr

/-- Where an adoption stands (R419). -/
inductive AdoptPhase where
  | fetch | roll | vote | known
deriving DecidableEq, Repr

/-- A message with chunks of a unit that the collective engine has handed to a flow (R344, R409). -/
structure CollSent where
  coll  : Nat
  unit  : Nat
  stage : Nat
  /-- First chunk. -/
  chunk : Nat
  flow  : Nat
  /-- Number of the message within the flow. -/
  msg   : Nat
deriving DecidableEq, Repr

/-- The collective engine and the Depot of one context (13, 15), with what both dies hold for all of them: the Update Engines'
registers and the straggler rings. -/
structure Collective where
  runs    : List CollRun
  /-- Contributions for the step in progress whose stage has not closed. -/
  arrivals : List Contrib
  /-- Contributions that were missing at their close (R351, R353), with what has come of them. -/
  late    : List Contrib
  folds   : List Contrib
  /-- Fold contributions consumed in this step, kept for a reject (R366). -/
  used    : List Contrib
  /-- Units whose stage 1 this member has closed as group owner. -/
  groupSums : Table GroupSum
  /-- Units whose log is complete on this member as final owner (R346). -/
  logged  : List Nat
  /-- Units that this member has updated as final owner. -/
  updated : List Nat
  /-- Chunks of working weights written, by 2^20 × collective + unit (R344, R345). -/
  gathered : Table (List Nat)
  /-- Messages of units that have been sent and not dropped (R344, R409). -/
  sending : List CollSent
  votes   : List VoteRec
  result  : Option VoteRec
  /-- The last result that the leaders of this member decided or passed on, with its step (R368). -/
  last    : Option (Nat × VoteRec)
  /-- Sections cancelled in this step (R371). -/
  cut     : List Nat
  /-- A unit's log was incomplete when a member failed (R369, R417). -/
  incomplete : Bool
  /-- Collectives in which a header with `LATE_LT` above 0 came (R396). -/
  lateColls : List Nat
  dropped : Nat
  folded  : Nat
  engines : Table UpdateEngine
  /-- Straggler rings by die: records, oldest first, and the index of the oldest. -/
  strag   : Table (List Nat)
  stragAt : Table Nat
  /-- Records lost since the last `CONSUME` (R456). -/
  stragLost : Table Nat
  replicas : Table Replica
  /-- Shard pages already sent to a SEEDING replica. -/
  seeded  : Table (List (Nat × Nat))
  /-- Depot messages sent to holders and not acknowledged: replica, flow, message. -/
  depotPending : List (Nat × Nat × Nat)
  lostPeers : List Nat
  /-- Spans of line time in which waits were suspended (R417): start, and end once over. -/
  suspends : List (Nat × Option Nat)
  /-- Reservations for peers, by rank. -/
  shards  : Table DepotShard
  asked   : Option Ask
  adopt   : Option AdoptPhase
  /-- Line time of the first `PROBE` to a rank since BIND (R417). -/
  probedAt : Table Nat
deriving DecidableEq, Repr

/-- A Station's part of a saved context (R136, R306). -/
structure StationSave where
  /-- Codes of the 256 entries of a tile row; a row not listed holds zeros. -/
  acc     : Table (List Nat)
  accPoison : List Nat
  rows    : Table RowStatus
  groups  : Table Group
  tokens  : Table Nat
  sidings : Table Siding
deriving DecidableEq, Repr

/-- A context slot (R434). -/
structure Slot where
  state   : SlotState
  image   : Option Image
  binding : Option Binding
  run     : Option Run
  step    : StepState
  log     : LateLog
  saved   : Table StationSave
  /-- PREEMPT: some save area holds the context, and whether RESUME replays the step (R442). -/
  savedNow : Bool
  successor : Nat
  /-- Objects that are live (R263). -/
  live    : List Nat
  keyed   : List Nat
  /-- The wait that the context's `WAIT_TIMEOUT` fault names: 0 to 3 `WAIT0` to `WAIT3`, 4 `GSEQ`, 5 the tag (R180). -/
  timedOut : Option Nat
  /-- The Siding that its `SIDING_OVERFLOW` fault names (R303). -/
  overSiding : Option Nat
deriving DecidableEq, Repr

/-- One PCIe link (R465 to R467). -/
structure Pcie where
  perstLow : Bool
  /-- Line time at which PERST# was seen deasserted with the rails up. -/
  readyFrom : Option Nat
  up       : Bool
  configured : Bool
deriving DecidableEq, Repr

/-- One entry of the MSI-X table and the vector's state (R426, R429). -/
structure Vector where
  entry   : BitVec 128
  pending : Bool
  sentAt  : Option Nat
deriving DecidableEq, Repr

/-- The machine. -/
structure State where
  pending : List Instr
  part    : Part
  modState : ModState
  startup : Startup
  flash   : Flash
  time    : TimeKeeper
  policies : Policies
  power   : Power
  queues  : Table Queue
  fetchSeq : Nat
  pass    : Nat
  evt     : EventRing
  vectors : Table Vector
  census  : CensusState
  ctrs    : List ((Ctr × Nat) × CtrVal)
  pcie    : Table Pcie
  slots   : Table Slot
  stations : Table Station
  /-- Cycles of each physical Station: the model's own count (R6). -/
  cycles  : Table Nat
  hops    : Table Hop
  turns   : Table (List TurnReq)
  turnOut : Table (List TurnOut)
  tiers   : Tiers
  shunter : Shunter
  cages   : Table Cage
  ports   : Table Port
  flows   : Table Flow
  /-- The collective engine and Depot of slot `collSlot`; those of the other slots stand in `parked`. -/
  coll    : Collective
  collSlot : Option Nat
  parked  : Table Collective
  /-- Physical Stations whose STATION_CHECK asks for their retirement (R406). -/
  retireQ : List Nat
  /-- The step of the running context is to be replayed (R408). -/
  replay  : Bool
  hostMem : List Host.Cell
  /-- What left the module: frames, MSI-X vectors, management responses. -/
  txFrames : List TxFrame
  msixSent : List Nat
  mctpSent : List (List Byte)
  /-- Data of a management response, until its reply goes (R430). -/
  mctpData : List Byte
  /-- The model's own index of free values (R228). -/
  freeIx  : Nat
deriving DecidableEq, Repr

/-- A queue block after a reset (R438). -/
def Queue.init : Queue :=
  { sqBase := 0, cqBase := 0, enable := false, vec := 0, log2 := 0, error := false, sqTail := 0, sqHead := 0, cqHead := 0,
    cqTail := 0, phase := true, cmds := [] }

/-- The event ring after a cold reset (R468). -/
def EventRing.init : EventRing :=
  { base := 0, enable := false, vec := 0, log2 := 0, head := 0, tail := 0, buffer := [], seq := 0, faultLost := false }

/-- A counter that has counted nothing (R15). -/
def CtrVal.init : CtrVal := { value := 0, sat := false }

def StepState.init : StepState :=
  { committed := 0, bad := false, collIssued := [], raIssued := none, voted := false, dirty := [], pushed := [], signalled := [], ended := [] }

def LateLog.init : LateLog := { entries := [], lost := 0, full := false }

/-- An empty slot (R434). -/
def Slot.init : Slot :=
  { state := .empty, image := none, binding := none, run := none, step := StepState.init, log := LateLog.init, saved := [],
    savedNow := false, successor := 0xFFFF, live := [], keyed := [], timedOut := none, overSiding := none }

/-- A closed group slot. -/
def Group.init : Group :=
  { isOpen := false, closing := false, base := 0, count := 0, kind := 0, orderFixed := false, cascade := false,
    isPartner := false, partner := 0, owner := 0, nextSeq := 0, openSection := 0, inFlight := 0, longSum := false,
    lastWrite := 0 }

/-- A tile row after START: CLEAR set, the rest zero (R441). At reset, before any START, the spec gives `ROW_STATUS` no value and the
model takes the same word (DESIGN CHOICE, notes/assumptions/3.md). -/
def RowStatus.init : RowStatus := { longSum := false, cancelMark := false, clear := true, termCount := 0 }

/-- An unset, empty Siding (R287). -/
def Siding.init : Siding :=
  { isSet := false, base := 0, size := 0, line := 0, fillAt := 0, slots := [], next := 0, claimed := 0, wait := none }

def RunLine.init : RunLine := { next := 0, headLt := 0, ended := false, passedFrom := none, metLt := none, queueSc := none, delays := [] }

/-- A Station with nothing stored and nothing running (R441). -/
def Station.init : Station :=
  { store := [], storePoison := [], tokens := [], bound := [], transit := [], lines := [], issued := 0,
    lastIssue := none, progs := [], groups := [],
    acc := [], accPoison := [], rows := [], active := none, switched := none, shadow := .empty, switchSc := none,
    mulq := [], prodTime := 1, lastEntry := none, lastInvalid := none, inArray := [], redo := [], redoFrom := 0, tree := [], treeHold := 0, treeLast := 0, spills := [],
    waits := [], drainFree := 0, drainLast := 0, runs := [], feeds := [], sidings := [], pilot := [], wbHeld := 0, named := [], zeroAt := [], takes := [], saved := false }

/-- An ordinary hop, empty, with its 6 credits (R89). -/
def Hop.init : Hop :=
  { credits := 6, inFlight := 0, occupied := 0, retCred := 0, seq := 0, replay := [], request := none, fails := 0,
    down := false, own := [], moving := none, sent := 0, arrived := false, passes := false, startSc := 0, waitSince := none,
    held := none, mode := .passing, read := 0, due := 0, heldSince := 0, heldLt := 0 }

/-- A free map entry (R265). -/
def MapEntry.init : MapEntry :=
  { epoch := 0, object := 0, page := 0, tier := 0, frame := 0, destTier := 0, destFrame := 0, state := 0, pinned := false,
    zero := false }

def Cage.init : Cage := { mode := none, trained := false, watts := none }
def Port.init : Port := { entry := 0, gw6 := none, gw4 := none, lock := false, lockAt := 0, busy := 0 }

/-- A CLOSED flow; the figures are those with which BIND opens it (R322). -/
def Flow.init : Flow :=
  { state := 0, slot := 0, peerAddr := 0, peerFlow := 0, peerUdp := 0, portMask := 0, npaths := 1, dscp := 0, peerRank := 0,
    keyIdTx := 0, keyIdRx := 0, txKeys := [], txLive := false, rxKeys := [], txSeq := 0, sndNxt := 0, sndUna := 0, rcvNxt := 0, cwnd := 640,
    srtt := 0, minRtt := 0xFFFFFF, rtts := [], rto := 1000000, rtoRun := 0, targetQ := 5000, lastCut := 0, sent := [], rcvMap := [],
    lastPsn := [], seen := [], rxq := [], out := [], nextMsg := 0, inbox := [], delivered := [], unacked := 0,
    ackFrom := none, ackEcho := 0, ackPath := 0, ceCount := 0, rotation := 0, suspended := [], probing := [],
    pathLoss := [], window := none, ignored := none, paced := 0, drainFrom := 0, heard := 0 }

def UpdateEngine.init : UpdateEngine := { queue := [], freeLt := 0, vregs := [], sregs := [], scratch := [] }

def Collective.init : Collective :=
  { runs := [], arrivals := [], late := [], folds := [], used := [], groupSums := [], logged := [], updated := [],
    gathered := [], sending := [], votes := [], result := none, last := none, cut := [], incomplete := false, lateColls := [],
    dropped := 0, folded := 0, engines := [], strag := [], stragAt := [], stragLost := [], replicas := [], seeded := [],
    depotPending := [], lostPeers := [], suspends := [], shards := [], asked := none, adopt := none, probedAt := [] }

def DepotShard.init : DepotShard := { pages := [], staged := [], logs := [], updated := [], ready := false, lost := false }

def Pcie.init : Pcie := { perstLow := false, readyFrom := none, up := false, configured := false }
def Vector.init : Vector := { entry := 0, pending := false, sentAt := none }

/-- A point at 25 °C: DESIGN CHOICE, notes/assumptions/3.md. -/
def Point.init : Point := { reading := 200, failed := false, missed := 0, peak := 200 }

/-- Line time after a cold reset (R139, R460); the default holdover limit is 2 s (R143). -/
def TimeKeeper.init : TimeKeeper :=
  { lt := 0, state := .free, source := 0, transport := 0, domain := 0, refFreq := 0, primary := 0, secondary := 0xFF,
    onSecondary := false, holdoverMs := 2000, ppsLt := 0, goodRun := 0, offset := 0, secGood := false, holdoverFrom := 0,
    slewPpm := 0, followDue := [], syncLt := 0, syncLog := 0, copies := [] }

/-- The default policies (R439). -/
def Policies.init : Policies :=
  { budget := false, prompt := false, promptNow := false, drop := false, padded := false, dropNext := none, paddedNext := none }

/-- Power after a cold reset: the defaults of R388 and the 800 MHz point of R459; the ceilings that the spec does not give
do not limit (DESIGN CHOICE, notes/assumptions/3.md). -/
def Power.init : Power :=
  { capW := 3200, fMax := 1800, floor := 0, rampW := 256, straggleHold := true, fSet := 800, voltMhz := 800, voltAt := 0, fastCeil := 2000,
    capCeil := 2000, thermCeil := 2000, admission := 16, admTarget := 16, fastOn := false, fastRose := 0, lastAvg := 0, avgFast := 0, avgMs := 0, sumMs := 0, qBase := 0, qComp := 0, booksBad := 0, tight := false,
    calmSince := none, energyWin := 0, energyPrev := 0, meterUp := 0, meterDown := 0, meterQ := [], tempTrims := [],
    boards := [], stretches := [], points := [], active := [], validSc := [], compStopped := false, dieStopped := [], powerStop := false }

/-- Flash of a part as shipped: nothing retired (R106), no owner (R471); the serial number and the MAC address are DESIGN
CHOICE (notes/assumptions/9.md). -/
def Flash.init : Flash :=
  { serial := List.replicate 16 0, macBase := 0, ownerKey := none, requireSigned := false, retired := [],
    retiredFrames := [], lifeTrim := [], topOpMhz := 2000, slowdown := [], framesAtStart := 0, stationsAtStart := 0,
    lastReset := 2, resetCause := 2 }

/-- The sequencer right after a cold RESET: the standby phase has ended and the main rails come up (R459, R467). -/
def Startup.init : Startup :=
  { phase := .mainRails, selfTest := false, tierDone := [], inputMv := 54000, modResetLow := false, needNoSpare := false,
    straps := 7, i3cDyn := none }

/-- The machine right after reset: a ZT9-M2B that a cold RESET has brought to the end of its standby phase (R467, R468;
DESIGN CHOICE of the instant, notes/assumptions/5.md). -/
def State.reset : State :=
  { pending := [], part := .m2b, modState := .resetting, startup := Startup.init, flash := Flash.init,
    time := TimeKeeper.init, policies := Policies.init, power := Power.init, queues := [], fetchSeq := 0, pass := 0,
    evt := EventRing.init, vectors := [], census := .idle, ctrs := [], pcie := [], slots := [], stations := [],
    cycles := [], hops := [], turns := [], turnOut := [],
    tiers := { mem := [], poison := [], map := [], errors := [], scrubbed := [], homes := [], t3Retired := [], draining := [] },
    shunter := { chain := [], targets := [], claims := [], moving := [], queued := [], retiring := [] }, cages := [], ports := [],
    flows := [], coll := Collective.init, collSlot := none, parked := [], retireQ := [], replay := false, hostMem := [], txFrames := [], msixSent := [], mctpSent := [], mctpData := [],
    freeIx := 0 }

end Sys2Proof.Machine
end

