-- ==== Sys2Proof/Machine/Memory.lean ====
section
/-! DEFINITION. Addressed memory: the Station stores, the tier frames and the host memory that the module writes, each a
canonical sparse list of bytes, and the granules that carry a poison bit (R48, R485). -/

namespace Sys2Proof.Machine

open Sys2Proof

/-- What an address that the list does not name reads as: zero (tiers: R459; stores: R441; notes/assumptions/4.md). -/
def memEmpty : Byte := 0

/-- The byte at an address. -/
def memRead : List Host.Cell → Nat → Byte
  | [], _ => memEmpty
  | (k, v) :: t, a => if k = a then v else memRead t a

/-- The memory with one byte written; an entry equal to what an unlisted address reads as is not kept. -/
def memWrite : List Host.Cell → Nat → Byte → List Host.Cell
  | [], a, b => if b = memEmpty then [] else [(a, b)]
  | (k, v) :: t, a, b =>
    if a = k then (if b = memEmpty then t else (a, b) :: t)
    else if a < k then (if b = memEmpty then (k, v) :: t else (a, b) :: (k, v) :: t)
    else (k, v) :: memWrite t a b

/-- The cells of the bytes that lie from an address up; zero bytes take no entry. -/
def cellsAt : Nat → List Byte → List Host.Cell
  | _, [] => []
  | a, b :: t => if b = memEmpty then cellsAt (a + 1) t else (a, b) :: cellsAt (a + 1) t

/-- The memory with the cells of [a, e) replaced by `c`. -/
def memSplice (m : List Host.Cell) (a e : Nat) (c : List Host.Cell) : List Host.Cell :=
  m.filter (fun x => decide (x.1 < a)) ++ c ++ m.filter (fun x => decide (e ≤ x.1))

/-- Bytes written from an address up. -/
def memWriteBytes (m : List Host.Cell) (a : Nat) (bs : List Byte) : List Host.Cell :=
  memSplice m a (a + bs.length) (cellsAt a bs)

/-- The bytes of [a, e). -/
def memSpread : List Host.Cell → Nat → Nat → List Byte
  | [], a, e => List.replicate (e - a) memEmpty
  | (k, v) :: t, a, e =>
    if k < a then memSpread t a e
    else if k < e then List.replicate (k - a) memEmpty ++ v :: memSpread t (k + 1) e
    else List.replicate (e - a) memEmpty

/-- `n` bytes from an address up. -/
def memReadBytes (m : List Host.Cell) (a n : Nat) : List Byte := memSpread m a (a + n)

/-- A little-endian number of `n` bytes. -/
def memReadNat (m : List Host.Cell) (a n : Nat) : Nat := leNat (memReadBytes m a n)

/-- The memory with every byte of [a, a + n) back at what an unlisted address reads as. -/
def memClear (m : List Host.Cell) (a n : Nat) : List Host.Cell := memSplice m a (a + n) []

/-- The canonical form: addresses rise strictly from `lo` on, and no entry reads as an unlisted address. -/
def memWfFrom : Nat → List Host.Cell → Bool
  | _, [] => true
  | lo, (k, v) :: t => decide (lo ≤ k) && decide (v ≠ memEmpty) && memWfFrom (k + 1) t

/-- The canonical form of a memory. -/
def Memory.wf (m : List Host.Cell) : Bool := memWfFrom 0 m

/-- The cells of [a, a + n) moved to start at b. -/
def memCells (m : List Host.Cell) (a n b : Nat) : List Host.Cell :=
  (m.filter (fun c => decide (a ≤ c.1 ∧ c.1 < a + n))).map (fun c => (c.1 - a + b, c.2))

/-- Copies n bytes from a to b. -/
def memCopy (m : List Host.Cell) (a b n : Nat) : List Host.Cell := memSplice m b (b + n) (memCells m a n b)

/-- Granules (64 bytes) that [a, a + n) touches. -/
def granulesOf (a n : Nat) : List Nat :=
  if n = 0 then [] else (List.range ((a + n - 1) / 64 + 1 - a / 64)).map (fun i => a / 64 + i)

/-- The poison bits after a write of [a, a + n), `bad` telling whether the data written in a granule is poisoned: a whole
granule takes the poison of the data, a part only adds poison (R485). -/
def poisonWrite (p : List Nat) (a n : Nat) (bad : Nat → Bool) : List Nat :=
  (granulesOf a n).foldl (fun p g =>
    if bad g then numInsert p g
    else if a ≤ 64 * g ∧ 64 * g + 64 ≤ a + n then numErase p g
    else p) p

end Sys2Proof.Machine
end

