-- ==== Sys2Proof/Machine/Image.lean ====
section
/-! DEFINITION. The Gelsin image: header fields (R446), section table and Timetable (R147, R148), descriptors (R259), the
other tables, and the departure (R151). -/

namespace Sys2Proof.Machine

open Sys2Proof

/-- The header field of `n` bytes at offset `off`. -/
def Image.le (i : Image) (off n : Nat) : Nat := leAt i.bytes off n

def Image.latProfile (i : Image) : Nat := i.le 10 1
def Image.needLock (i : Image) : Bool := bit (i.le 11 1) 0
def Image.isSigned (i : Image) : Bool := bit (i.le 11 1) 1
/-- `WAIT_TIMEOUT` in µs (R180). -/
def Image.waitTimeout (i : Image) : Nat := i.le 12 4
def Image.srSeed (i : Image) : Nat := i.le 24 8
def Image.firstSection (i : Image) : Nat := i.le 32 2
def Image.sectionCount (i : Image) : Nat := i.le 34 2
def Image.stepFirst (i : Image) : Nat := i.le 36 2
def Image.latelogLog2 (i : Image) : Nat := i.le 38 1
def Image.horizon (i : Image) : Nat := i.le 39 1
def Image.objectCount (i : Image) : Nat := i.le 40 4
def Image.slotCount (i : Image) : Nat := i.le 44 4
def Image.unitCount (i : Image) : Nat := i.le 48 4
def Image.collCount (i : Image) : Nat := i.le 52 4
def Image.schedCount (i : Image) : Nat := i.le 56 2
def Image.initCount (i : Image) : Nat := i.le 60 4

/-- Section record s (R147). -/
def Image.sectionRec (i : Image) (s : Nat) : Nat := leAt i.bytes (i.le 64 8 + 32 * s) 32

structure SectionRec where
  epochPlan : Nat
  sect      : Nat
  next      : Nat
  pointsStation : Nat
  hasPoints : Bool
  anchor    : Nat
  tresetBase : Nat
  tresetCount : Nat
deriving DecidableEq, Repr

/-- The fields of a section record (R147). -/
def SectionRec.ofNat (w : Nat) : SectionRec :=
  { epochPlan := field w 255 192, sect := field w 191 176, next := field w 175 160, pointsStation := field w 159 153,
    hasPoints := bit w 152, anchor := field w 151 150, tresetBase := field w 149 142, tresetCount := field w 141 133 }

def Image.sect (i : Image) (s : Nat) : SectionRec := SectionRec.ofNat (i.sectionRec s)

/-- The word of running line j in the Station section header of section s, Station k (R148). -/
def Image.lineWord (i : Image) (s k j : Nat) : Nat := leAt i.bytes (i.le 72 8 + 32 * (s * 128 + k) + 8 * j) 8

/-- `COUNT` of a running line. -/
def Image.lineCount (i : Image) (s k j : Nat) : Nat := field (i.lineWord s k j) 23 0

/-- Departure n of a running line. -/
def Image.departure (i : Image) (s k j n : Nat) : BitVec 256 :=
  BitVec.ofNat 256 (leAt i.bytes (i.le 72 8 + 32 * (field (i.lineWord s k j) 63 24 + n)) 32)

/-- `TOKEN_INIT` of Token t of Station k; engine Tokens start at 0 (R146, R162). -/
def Image.tokenInit (i : Image) (k t : Nat) : Nat := if t < 0xC0 then leAt i.bytes (i.le 88 8 + 2 * (0xC0 * k + t)) 2 else 0

/-- Object descriptor (R259). -/
structure ObjDesc where
  rows    : Nat
  cols    : Nat
  extent  : Nat
  desc    : Nat
  layout  : Nat
  kind    : Nat
  pattern : Nat
  layer   : Nat
  first   : Nat
  last    : Nat
  useA    : Nat
  useB    : Nat
  readyEn : Bool
  readyStation : Nat
  readyToken : Nat
  object  : Nat
deriving DecidableEq, Repr

def ObjDesc.ofNat (w : Nat) : ObjDesc :=
  { rows := field w 319 296, cols := field w 295 272, extent := field w 271 224, desc := field w 223 216,
    layout := field w 215 214, kind := field w 213 210, pattern := field w 209 207, layer := field w 206 187,
    first := field w 186 171, last := field w 170 155, useA := field w 154 139, useB := field w 138 123,
    readyEn := bit w 122, readyStation := field w 121 115, readyToken := field w 114 112, object := field w 111 92 }

def Image.objWord (i : Image) (o : Nat) : Nat := leAt i.bytes (i.le 96 8 + 64 * o) 64

/-- Descriptor of object o; none beyond the table. -/
def Image.obj (i : Image) (o : Nat) : Option ObjDesc :=
  if o < i.objectCount then some (ObjDesc.ofNat (i.objWord o)) else none

/-- Page size in bytes (R255). -/
def pageBytes : Nat := 8388608

/-- Record size of a TILE object. -/
def ObjDesc.recordBytes (d : ObjDesc) : Nat := match Fmt.ofDesc d.desc with | some f => f.recordBytes | none => 0

/-- Pages of an object (R262). -/
def ObjDesc.pages (d : ObjDesc) : Nat :=
  match d.layout with
  | 0 => ceilDiv (d.rows * d.cols * d.recordBytes) pageBytes
  | 1 => ceilDiv (d.extent / 8) 699050
  | _ => ceilDiv d.extent pageBytes

/-- Bytes of an object's extent; for ZF12 the bytes of its groups as they lie in pages (R60, R262). -/
def ObjDesc.bytes (d : ObjDesc) : Nat :=
  match d.layout with
  | 0 => d.rows * d.cols * d.recordBytes
  | 1 => d.extent / 8 * 12
  | _ => d.extent

/-- Is the data of this object Aborting class (R17, R260)? -/
def ObjDesc.aborting (d : ObjDesc) : Bool := decide (4 ≤ d.kind)

/-- Is an object live while section s runs (R263)? -/
def ObjDesc.liveIn (d : ObjDesc) (s : Nat) : Bool := d.pattern == 0 || (decide (d.first ≤ s) && decide (s ≤ d.last))

/-- Record n of the slot table (R333). -/
def Image.slotRec (i : Image) (n : Nat) : Nat := leAt i.bytes (i.le 104 8 + 16 * n) 16
/-- Record u of the unit table (R338). -/
def Image.unitRec (i : Image) (u : Nat) : Nat := leAt i.bytes (i.le 112 8 + 64 * u) 64
/-- Record n of the collective table (R340). -/
def Image.collRec (i : Image) (n : Nat) : Nat := leAt i.bytes (i.le 120 8 + 64 * n) 64
/-- Record n of the schedule table (R360). -/
def Image.schedRec (i : Image) (n : Nat) : Nat := leAt i.bytes (i.le 128 8 + 32 * n) 32
/-- Record n of the initial-data table (R446). -/
def Image.initRec (i : Image) (n : Nat) : Nat := leAt i.bytes (i.le 136 8 + 32 * n) 32

/-- Collective descriptor (R340). -/
structure CollDesc where
  id    : Nat
  kind  : Nat
  unitBase : Nat
  unitCount : Nat
  sect  : Nat
  due1  : Nat
  due2  : Nat
  straggle : Nat
  wire  : Nat
  comp  : Nat
  topk  : Nat
  hier  : Bool
  sigStation : Nat
  sigToken : Nat
deriving DecidableEq, Repr

def CollDesc.ofNat (w : Nat) : CollDesc :=
  { id := field w 231 216, kind := field w 215 214, unitBase := field w 213 194, unitCount := field w 193 174,
    sect := field w 173 158, due1 := field w 157 126, due2 := field w 125 94, straggle := field w 93 70,
    wire := field w 69 62, comp := field w 61 60, topk := field w 59 48 + 1, hier := bit w 47,
    sigStation := field w 46 40, sigToken := field w 39 35 }

def Image.coll (i : Image) (n : Nat) : CollDesc := CollDesc.ofNat (i.collRec n)

/-- Section in which a collective's `COLL` lies. -/
def collSection (i : Image) (n : Nat) : Nat := (i.coll n).sect

/-- Update unit record (R338). -/
structure UnitDesc where
  holdMod : Nat
  owner   : Nat
  die     : Nat
  sched   : Nat
  prog    : Nat
  progOff : Nat
  grad    : Nat
  log     : Nat
  opt     : Nat
  nopt    : Nat
  resid   : Nat
  work    : Nat
  workFmt : Nat
  workRound : Nat
  rows    : Nat
  cols    : Nat
deriving DecidableEq, Repr

def UnitDesc.ofNat (w : Nat) : UnitDesc :=
  { holdMod := field w 463 448, owner := field w 447 432, die := field w 431 431, sched := field w 430 419,
    prog := field w 418 399, progOff := field w 398 375, grad := field w 374 355, log := field w 354 335,
    opt := field w 334 315, nopt := field w 314 313 + 1, resid := field w 312 293, work := field w 292 273,
    workFmt := field w 272 265, workRound := field w 264 262, rows := field w 261 238, cols := field w 237 214 }

def Image.unit (i : Image) (u : Nat) : UnitDesc := UnitDesc.ofNat (i.unitRec u)

/-- Elements of a unit. -/
def UnitDesc.size (u : UnitDesc) : Nat := u.rows * u.cols

/-- No object (R338). -/
def noObject : Nat := 0xFFFFF

/-- The `POINTS` departure that a section's `POINTS_STATION` holds, and its line (R171, R172). -/
def Image.pointsOf (i : Image) (s : Nat) : Option (BitVec 256) :=
  let r := i.sect s
  if r.hasPoints then
    [0, 1, 2, 3].findSome? (fun j =>
      (List.range (i.lineCount s r.pointsStation j)).findSome? (fun n =>
        let d := i.departure s r.pointsStation j n
        if field d.toNat 199 192 = 3 then some d else none))
  else none

/-- The target that a section's `PREDICT` names (R171). -/
def Image.predictOf (i : Image) (s : Nat) : Option Nat :=
  match i.pointsOf s with
  | some d =>
    let p := field d.toNat 84 80
    if p ≤ field d.toNat 89 86 then some (field d.toNat 105 90 + p) else none
  | none => none

/-- Is an object part of a unit that the Depot keeps otherwise or not at all: a working-weight or an optimizer object (R411)? -/
def Image.unitObject (i : Image) (o : Nat) : Bool :=
  (List.range i.unitCount).any (fun n =>
    let u := i.unit n
    u.work == o || (u.opt != noObject && decide (u.opt ≤ o ∧ o < u.opt + 2 * u.nopt)))

/-- Is an object Class P of the Depot (R411)? -/
def Image.classP (i : Image) (o : Nat) : Bool :=
  match i.obj o with
  | some d => d.pattern == 0 && d.kind != 6 && d.kind != 7 && !i.unitObject o
  | none => false

/-- A Token wait of a departure (R151). -/
structure Wait where
  tok   : Nat
  count : Nat
deriving DecidableEq, Repr

/-- A Token signal of a departure (R151). -/
structure Sig where
  station : Nat
  tok     : Nat
  count   : Nat
deriving DecidableEq, Repr

namespace Dep

/-- Bits hi down to lo of a departure. -/
def f (d : BitVec 256) (hi lo : Nat) : Nat := field d.toNat hi lo

def notBefore (d : BitVec 256) : Nat := f d 255 224
def allowance (d : BitVec 256) : Nat := f d 223 204
def energy (d : BitVec 256) : Nat := f d 203 200
def opcode (d : BitVec 256) : Nat := f d 199 192

/-- Wait fields 0 to 3, with the unused ones. -/
def waitFields (d : BitVec 256) : List Wait :=
  [⟨f d 155 148, f d 147 144⟩, ⟨f d 167 160, f d 159 156⟩, ⟨f d 179 172, f d 171 168⟩, ⟨f d 191 184, f d 183 180⟩]

/-- The waits in use. -/
def waits (d : BitVec 256) : List Wait := (waitFields d).filter (fun w => w.count != 0)

def sigFields (d : BitVec 256) : List Sig :=
  [⟨f d 124 118, f d 117 110, f d 109 106⟩, ⟨f d 143 137, f d 136 129, f d 128 125⟩]

def sigs (d : BitVec 256) : List Sig := (sigFields d).filter (fun w => w.count != 0)

/-- An unused wait or signal field with bits set (R151). -/
def unusedSet (d : BitVec 256) : Bool :=
  (waitFields d).any (fun w => w.count == 0 && w.tok != 0) ||
  (sigFields d).any (fun w => w.count == 0 && (w.tok != 0 || w.station != 0))

end Dep

end Sys2Proof.Machine
end

