-- ==== Sys2Proof/Machine/Ops.lean ====
section
/-! DEFINITION. The shared operations: access to the parts of State, time, the logical map (R106 to R109), counters (R15,
R455), the event ring (R451 to R453), replies (R427 to R433) and the stop of a context (R181). -/

namespace Sys2Proof.Machine

open Sys2Proof

/-- What a command answers. -/
abbrev Out := Host.Outcome State Fault Refusal

/-- The node after `p` on line `l` (0 Up, 1 Down), a retired Station included (R88). -/
def stepNode (p l : Nat) : Nat :=
  if l = 0 then
    if 136 ≤ p then 17 * ((p - 136 + 1) % 8)
    else if p % 17 = 16 then 136 + p / 17 else p + 1
  else
    if 136 ≤ p then 17 * (p - 136) + 16
    else if p % 17 = 0 then 136 + (p / 17 + 7) % 8 else p - 1

/-- Is the hop that leaves `p` a long hop (R108)? -/
def longHop (retired : List Nat) (p l : Nat) : Bool := retired.contains (stepNode p l)

/-- Credits of a hop (R89). -/
def hopCredits (retired : List Nat) (p l : Nat) : Nat := if longHop retired p l then 10 else 6

/-- Entries of the crossing buffer at the end of a hop, and those of them that never carry a credit (R89, R99, R102). -/
def bufferEntries (retired : List Nat) (p l : Nat) : Nat := if longHop retired p l then 12 else 8
def guardEntries : Nat := 2

def State.slot (s : State) (c : Nat) : Slot := tget Slot.init s.slots c
def State.setSlot (s : State) (c : Nat) (v : Slot) : State := { s with slots := tset s.slots c v }
def State.modSlot (s : State) (c : Nat) (f : Slot → Slot) : State := s.setSlot c (f (s.slot c))
def State.station (s : State) (k : Nat) : Station := tget Station.init s.stations k
def State.setStation (s : State) (k : Nat) (v : Station) : State := { s with stations := tset s.stations k v }
def State.modStation (s : State) (k : Nat) (f : Station → Station) : State := s.setStation k (f (s.station k))
def State.queue (s : State) (q : Nat) : Queue := tget Queue.init s.queues q
def State.setQueue (s : State) (q : Nat) (v : Queue) : State := { s with queues := tset s.queues q v }
def State.modQueue (s : State) (q : Nat) (f : Queue → Queue) : State := s.setQueue q (f (s.queue q))
/-- The hop that leaves node `p` on line `l`; one that the table does not list is empty and holds all its credits. -/
def State.hop (s : State) (p l : Nat) : Hop :=
  tget { Hop.init with credits := hopCredits s.flash.retired p l } s.hops (2 * p + l)
def State.setHop (s : State) (p l : Nat) (v : Hop) : State := { s with hops := tset s.hops (2 * p + l) v }
def State.modHop (s : State) (p l : Nat) (f : Hop → Hop) : State := s.setHop p l (f (s.hop p l))
def State.cage (s : State) (i : Nat) : Cage := tget Cage.init s.cages i
def State.setCage (s : State) (i : Nat) (v : Cage) : State := { s with cages := tset s.cages i v }
def State.port (s : State) (i : Nat) : Port := tget Port.init s.ports i
def State.setPort (s : State) (i : Nat) (v : Port) : State := { s with ports := tset s.ports i v }
def State.flow (s : State) (i : Nat) : Flow := tget Flow.init s.flows i
def State.setFlow (s : State) (i : Nat) (v : Flow) : State := { s with flows := tset s.flows i v }
def State.modFlow (s : State) (i : Nat) (f : Flow → Flow) : State := s.setFlow i (f (s.flow i))
def State.vector (s : State) (i : Nat) : Vector := tget Vector.init s.vectors i
def State.setVector (s : State) (i : Nat) (v : Vector) : State := { s with vectors := tset s.vectors i v }
def State.link (s : State) (i : Nat) : Pcie := tget Pcie.init s.pcie i
def State.setLink (s : State) (i : Nat) (v : Pcie) : State := { s with pcie := tset s.pcie i v }
def State.mapEntry (s : State) (i : Nat) : MapEntry := tget MapEntry.init s.tiers.map i
def State.setTiers (s : State) (v : Tiers) : State := { s with tiers := v }
def State.setPower (s : State) (v : Power) : State := { s with power := v }
def State.setTime (s : State) (v : TimeKeeper) : State := { s with time := v }
def State.setFlash (s : State) (v : Flash) : State := { s with flash := v }
def State.setColl (s : State) (v : Collective) : State := { s with coll := v }
def State.setStartup (s : State) (v : Startup) : State := { s with startup := v }

def Station.line (st : Station) (j : Nat) : RunLine := tget RunLine.init st.lines j
def Station.group (st : Station) (g : Nat) : Group := tget Group.init st.groups g
def Station.setGroup (st : Station) (g : Nat) (v : Group) : Station := { st with groups := tset st.groups g v }
/-- `ROW_STATUS` of a tile row; rows that the table does not list are clear. -/
def Station.row (st : Station) (r : Nat) : RowStatus := tget RowStatus.init st.rows r
def Station.setRow (st : Station) (r : Nat) (v : RowStatus) : Station := { st with rows := tset st.rows r v }
def Station.siding (st : Station) (i : Nat) : Siding := tget Siding.init st.sidings i
def Station.setSiding (st : Station) (i : Nat) (v : Siding) : Station := { st with sidings := tset st.sidings i v }
def Station.token (st : Station) (t : Nat) : Nat := tget 0 st.tokens t

/-- A command of the compute die: nothing happens there while its clocks are stopped (R398, R399). -/
def State.clocked (s : State) (f : State → Out) : Out := if s.power.compStopped then .next s else f s

/-- The wait that a metered change of cost c, in W, makes the next change in its direction keep, lt (R391). -/
def Power.meterWait (p : Power) (c : Nat) : Nat := (c * 10000 + (p.rampW - 110) - 1) / (p.rampW - 110)

/-- Is line time running (R459: it starts with the main rails)? -/
def State.timeRuns (s : State) : Bool := s.startup.phase == .training || s.startup.phase == .up

/-- Line time reaches `n`; it never steps backward (R139). -/
def State.advance (s : State) (n : Nat) : State :=
  if s.timeRuns then { s with time := { s.time with lt := max s.time.lt n } } else s

/-- The cycle count of physical Station `p`. -/
def State.cycle (s : State) (p : Nat) : Nat := tget 0 s.cycles p

/-- The copy of line time of physical Station `p`, in 1/16 lt (R145): the difference that it was found to have is worked off by 1/16 lt
in each cycle. -/
def State.copy (s : State) (p : Nat) : Nat :=
  let c := tget { err := 0, since := 0 } s.time.copies p
  let n : Int := ((s.cycle p - c.since : Nat) : Int)
  let err := if 0 ≤ c.err then max 0 (c.err - n) else min 0 (c.err + n)
  (16 * (s.time.lt : Int) + err).toNat

/-- Its count reaches `n`. -/
def State.advanceSc (s : State) (p n : Nat) : State := { s with cycles := tset s.cycles p (max (s.cycle p) n) }

/-- The first retired Station of Sector `x`, which is the one that remapped it (R106, R108, R407). -/
def firstRetired (retired : List Nat) (x : Nat) : Option Nat := retired.find? (fun p => p / 17 == x)

/-- The physical Station of logical Station `k`; none where the number has none (R407). -/
def physOf (retired : List Nat) (k : Nat) : Option Nat :=
  let x := k / 16
  let p := match firstRetired retired x with
    | some r => if 17 * x + k % 16 < r then 17 * x + k % 16 else 17 * x + k % 16 + 1
    | none => 17 * x + k % 16
  if retired.contains p then none else some p

/-- The logical number that physical Station `p` carries. -/
def logOf (retired : List Nat) (p : Nat) : Option Nat :=
  (List.range 16).map (fun i => 16 * (p / 17) + i) |>.find? (fun k => physOf retired k == some p)

/-- Does Sector `x` hold an unused spare (R106)? -/
def hasSpare (retired : List Nat) (x : Nat) : Bool := (firstRetired retired x).isNone

def State.phys (s : State) (k : Nat) : Option Nat := physOf s.flash.retired k
def State.logical (s : State) (p : Nat) : Option Nat := logOf s.flash.retired p

/-- The slot that is RUNNING or RECOVERING: at most one (R434). -/
def State.runSlot (s : State) : Option Nat :=
  (List.range 8).find? (fun c => (s.slot c).state == .running || (s.slot c).state == .recovering)

/-- The slot whose work the Stations hold: the one that runs, or one that a fault has stopped, whose issued departures run to
completion (R181). -/
def State.workSlot (s : State) : Option Nat :=
  match s.runSlot with
  | some c => some c
  | none => (List.range 8).find? (fun c => (s.slot c).state == .stopped && (s.slot c).run.isSome)

/-- The collective engine as context `l` has it, with what the dies hold for every context taken from `now`. -/
def Collective.onDies (l now : Collective) : Collective :=
  { l with
    strag := now.strag, stragAt := now.stragAt, stragLost := now.stragLost
    engines := [0, 1].map (fun d => (d, { tget UpdateEngine.init now.engines d with
                                          queue := (tget UpdateEngine.init l.engines d).queue })) }

/-- The same state with the collective engine and Depot of slot `c` in `coll` (R344, R413: each context has its own). -/
def State.withSlot (s : State) (c : Nat) : State :=
  if s.collSlot = some c then s
  else
    let kept := match s.collSlot with | some d => tset s.parked d s.coll | none => s.parked
    { s with coll := (tget Collective.init kept c).onDies s.coll, collSlot := some c, parked := terase kept c }

/-- What a command does to slot `c` while another slot may run: the running slot's collective engine stands in `coll` again
afterwards. -/
def State.inSlot (s : State) (c : Nat) (f : State → State) : State :=
  let t := f (s.withSlot c)
  match t.runSlot, s.collSlot with
  | some r, _ => t.withSlot r
  | none, some d => t.withSlot d
  | none, none => t

/-- The same for a command's answer. -/
def State.inSlotOut (s : State) (c : Nat) (f : State → Out) : Out :=
  match f (s.withSlot c) with
  | .next t => .next (s.inSlot c (fun _ => t))
  | o => o

/-- Is a slot bound, or beyond (R435, R440)? -/
def SlotState.boundOrLater : SlotState → Bool
  | .empty | .loaded => false
  | _ => true

def State.anyBound (s : State) : Bool := (List.range 8).any (fun c => (s.slot c).state.boundOrLater)

/-- Largest value of a counter: 32-bit event counters and 64-bit ones (R15). -/
def Ctr.is32 : Ctr → Bool
  | .pointsClamp | .latelogFull | .timeLostEvents | .shuntFrameRetired | .t3PoisonFull | .stepsBad | .marginExhausted
  | .fastLimit | .tempSensorFail | .depRetired | .depWatchdog | .depotReplicaLost | .peerLost | .abftRetry | .abftDup
  | .loopReplay _ | .accLongSum | .accResidueRetry | .accEccCorrected | .accEccUncorrected | .mmaIntRange | .mmaAcc96Ovf
  | .pilotPoison | .convertSat | .convertNan | .clkStretchDenied | .marginWarn | .pathSuspend | .slotOverrun | .slotUntimed
  | .netKeyAge | .raRejects | .ueRollForward | .ueConvertSat | .ueConvertNan => true
  | _ => false

def Ctr.top (c : Ctr) : Nat := if c.is32 then 2 ^ 32 - 1 else 2 ^ 64 - 1

/-- The counters of a group in their order (R455). -/
def groupCtrs : Nat → List Ctr
  | 0 => [.pointsClamp, .latelogLost, .latelogFull, .timeLostEvents, .ptpSyncRx,
          .shuntMoves, .shuntMoveGran, .shuntZeroFills, .shuntFallbackTiles, .shuntLatePages, .shuntFrameRetired,
          .t3PoisonFull, .stepsBad,
          .marginExhausted, .freqSteps, .fastLimit, .capWindowsOver, .throttleMs, .collPeerLateMax, .tempSensorFail,
          .pwrInputJ,
          .depRetired, .depReplays, .depWatchdog, .depotPushGran, .depotReplicaLost, .peerLost, .adoptions, .evtLost]
  | 1 => [.rowsValid, .rowsBubble, .rowsBallast, .rowsDiscarded, .abftRetry, .abftDup,
          .loopFlits 0, .loopEmpty 0, .loopCreditWait 0, .loopHeld 0, .loopDiscard 0, .loopReplay 0,
          .loopFlits 1, .loopEmpty 1, .loopCreditWait 1, .loopHeld 1, .loopDiscard 1, .loopReplay 1,
          .accCascadeSpill, .accDrainWait, .accLongSum, .accResidueRetry, .accEccCorrected, .accEccUncorrected,
          .ttIssued, .ttLate, .ttLateLt, .ttDispatchPassed, .mmaIntRange, .mmaAcc96Ovf, .mmaSwitch,
          .drainRows, .vecRows, .vecFeedYield, .drainPathBusy,
          .pilotWaybills, .pilotFillGran, .pilotWriteGran, .pilotSlotWait, .sidingDiscard, .pilotPoison,
          .govWithheldSc]
  | 2 => [.convertSat, .convertNan]
  | 3 => [.clkStretch, .clkStretchDenied, .marginWarn]
  | 4 => [.turnRecords, .turnFlits, .turnQueueWait, .turnFeedWait]
  | 5 => [.netStrangerAddr, .netStrangerFlow, .netStrangerAuth, .netCrc, .netRxBeyond, .netDup, .netRetx, .netRto, .netCe,
          .pathSuspend, .slotOverrun, .slotUntimed, .netKeyAge,
          .collMsgTx, .collMsgRx, .collFolded, .collDropped, .collDiscard, .stragLost, .ueUnits, .ueCycles, .raCommits,
          .raRejects, .ueRollForward, .ueConvertSat, .ueConvertNan]
  | 6 => [.netTxFrames, .netRxFrames, .netTxGran, .netRxGran, .netFcsErr, .netFecCorrected]
  | 7 => [.memCorrected, .scrubPasses]
  | 8 => [.sbCommands, .sbErrors]
  | _ => []

/-- Instances of a counter group (R455). -/
def groupInstances : Nat → Nat
  | 0 => 1 | 1 => 136 | 2 => 128 | 3 => 152 | 4 => 8 | 5 => 2 | 6 => 48 | 7 => 3 | 8 => 9
  | _ => 0

/-- The group of a counter. -/
def Ctr.group (c : Ctr) : Nat := ((List.range 9).find? (fun g => (groupCtrs g).contains c)).getD 0

/-- Its position in the group. -/
def Ctr.position (c : Ctr) : Nat := (groupCtrs c.group).idxOf c

/-- The value of a counter. -/
def ctrGet (t : List ((Ctr × Nat) × CtrVal)) (c : Ctr) (i : Nat) : CtrVal :=
  match t with
  | [] => CtrVal.init
  | (k, v) :: r => if k = (c, i) then v else ctrGet r c i

/-- The table with one counter set. -/
def ctrSet (t : List ((Ctr × Nat) × CtrVal)) (c : Ctr) (i : Nat) (v : CtrVal) : List ((Ctr × Nat) × CtrVal) :=
  match t with
  | [] => [((c, i), v)]
  | (k, w) :: r => if k = (c, i) then (k, v) :: r else (k, w) :: ctrSet r c i v

/-- A counter after `n` more: it sticks at its maximum and sets `SAT` (R15). -/
def CtrVal.add (c : Ctr) (v : CtrVal) (n : Nat) : CtrVal :=
  if v.value + n ≥ c.top then { value := c.top, sat := true } else { v with value := v.value + n }

def State.ctr (s : State) (c : Ctr) (i : Nat) : CtrVal := ctrGet s.ctrs c i

/-- Counts without a notice. -/
def State.count (s : State) (c : Ctr) (i n : Nat) : State := { s with ctrs := ctrSet s.ctrs c i ((s.ctr c i).add c n) }

/-- Does this count bring the counter to its maximum? -/
def State.saturates (s : State) (c : Ctr) (i n : Nat) : Bool := !(s.ctr c i).sat && ((s.ctr c i).add c n).sat

/-- All ones of a field: "does not apply" (R452). -/
def ones (w : Nat) : Nat := 2 ^ w - 1

/-- A record of which nothing applies. -/
def EvtRec.blank : EvtRec :=
  { lt := 0, seq := 0, family := 0, code := 0, scope := 0, context := 15, pstation := 255, lstation := 255, line := 3,
    sect := 0xFFFF, index := ones 24, object := ones 21, page := ones 22, loc := ones 64 }

/-- The 64 bytes of an event record (R452). -/
def EvtRec.word (r : EvtRec) : Nat :=
  place r.lt 448 + place r.seq 432 + place r.family 428 + place r.code 420 + place r.scope 417 + place r.context 413 +
  place r.pstation 405 + place r.lstation 397 + place r.line 395 + place r.sect 379 + place r.index 355 +
  place r.object 334 + place r.page 312 + place r.loc 248

/-- Bytes written to host memory. -/
def State.hostWrite (s : State) (a : Nat) (bs : List Byte) : State := { s with hostMem := memWriteBytes s.hostMem a bs }

/-- A vector is raised (R429). -/
def State.raiseVec (s : State) (v : Nat) : State := s.setVector v { s.vector v with pending := true }

/-- Records of the event ring. -/
def EventRing.records (e : EventRing) : Nat := 2 ^ e.log2

/-- Is there space for a record (R451)? -/
def EventRing.space (e : EventRing) : Bool := e.enable && (e.tail + 1) % e.records != e.head

/-- The record is written, then the tail advances, then the vector is raised (R451). -/
def State.ringWrite (s : State) (r : EvtRec) : State :=
  let e := s.evt
  let s := s.hostWrite (e.base + 64 * e.tail) (leBytes 64 r.word)
  { s with evt := { e with tail := (e.tail + 1) % e.records } }.raiseVec e.vec

/-- A record enters the ring or, for a fault, its buffer; answers whether it was lost (R451). Fault records that wait keep
their order. -/
def State.post (s : State) (r : EvtRec) : State × Bool :=
  let r := { r with seq := s.evt.seq }
  let s := { s with evt := { s.evt with seq := (s.evt.seq + 1) % 65536 } }
  if r.family = 0 then
    if s.evt.space then (s.ringWrite r, false) else (s, true)
  else if s.evt.space ∧ s.evt.buffer = [] then (s.ringWrite r, false)
  else if s.evt.buffer.length < 64 then ({ s with evt := { s.evt with buffer := s.evt.buffer ++ [r] } }, false)
  else ({ s with evt := { s.evt with faultLost := true } }, true)

/-- The `COUNTER_SAT` notice (R453). -/
def satNotice (lt : Nat) (c : Ctr) (i : Nat) : EvtRec :=
  { EvtRec.blank with lt := lt, code := 3, loc := place c.group 56 + place i 40 + place c.position 32 }

/-- A record is posted; a lost one counts in `EVT_LOST` (R451), whose own saturation raises its notice. -/
def State.emit (s : State) (r : EvtRec) : State :=
  let p := s.post { r with lt := s.time.lt }
  if p.2 then
    if p.1.saturates .evtLost 0 1 then ((p.1.count .evtLost 0 1).post (satNotice s.time.lt .evtLost 0)).1
    else p.1.count .evtLost 0 1
  else p.1

/-- A counter counts `n`, with one notice when it saturates (R15). -/
def State.bump (s : State) (c : Ctr) (i n : Nat) : State :=
  if n = 0 then s
  else if s.saturates c i n then (s.count c i n).emit (satNotice s.time.lt c i)
  else s.count c i n

/-- `n` of a counter's counts are taken back; one that has stuck stays so. -/
def State.uncount (s : State) (c : Ctr) (i n : Nat) : State :=
  let v := s.ctr c i
  if n = 0 ∨ v.sat then s else { s with ctrs := ctrSet s.ctrs c i { v with value := v.value - n } }

/-- A notice of the running machine (R453). -/
def State.notice (s : State) (code : Nat) (context loc : Nat) : State :=
  s.emit { EvtRec.blank with code := code, context := context, loc := loc }

/-- A fault report: the record is posted and an armed Census that it matches is triggered, 64 lt ahead (R457). -/
def State.report (s : State) (r : EvtRec) : State :=
  let r := { r with lt := s.time.lt, seq := s.evt.seq }
  let s' := s.emit r
  match s'.census with
  | .armed q slot family code =>
    if family = r.family ∧ (code = 255 ∨ code = r.code) then
      { s' with census := .triggered q slot (s.time.lt + 64) r }
    else s'
  | _ => s'

/-- Fields of a command header (R431). -/
def FetchedCmd.f (c : FetchedCmd) (hi lo : Nat) : Nat := field c.header.toNat hi lo
def FetchedCmd.opcode (c : FetchedCmd) : Nat := c.f 159 152
def FetchedCmd.context (c : FetchedCmd) : Nat := c.f 151 148

/-- The reply word (R432). -/
def replyWord (q : Nat) (cmd : FetchedCmd) (status r0 r1 lt : Nat) (early phase : Bool) : Nat :=
  place r0 192 + place r1 128 + place lt 64 + place (cmd.f 175 160) 48 + place status 32 + place cmd.opcode 24 +
  place q 20 + place (if early then 1 else 0) 19 + place (if phase then 1 else 0) 18

/-- Is an earlier, parked command of the queue still waiting (R424)? -/
def Queue.early (b : Queue) (cmd : FetchedCmd) : Bool := b.cmds.any (fun x => x.parked && decide (x.seq < cmd.seq))

/-- The reply of command `cmd` of queue `q`: written at `CQ_TAIL`, or sent as an MCTP response, and the command is done
(R427, R429, R430, R432, R454). -/
def State.reply (s : State) (q : Nat) (cmd : FetchedCmd) (status r0 r1 : Nat) : State :=
  let b := s.queue q
  let w := replyWord q cmd status r0 r1 s.time.lt (b.early cmd) b.phase
  let b' := { b with cmds := b.cmds.filter (fun x => x.seq != cmd.seq) }
  let s := (s.bump .sbCommands q 1).bump .sbErrors q (if status ≥ 0x2000 then 1 else 0)
  if q = 8 then
    { (s.setQueue 8 b') with mctpSent := s.mctpSent ++ [leBytes 32 w ++ s.mctpData], mctpData := [] }
  else
    let next := (b.cqTail + 1) % 2 ^ b.log2
    let s := s.hostWrite (b.cqBase + 32 * b.cqTail) (leBytes 32 w)
    let s := s.setQueue q { b' with cqTail := next, phase := if next = 0 then !b.phase else b.phase }
    if cmd.f 147 147 = 1 then s.raiseVec b.vec else s

/-- Every outstanding command that `pick` names ends with `status` (R433, R438). -/
def State.endCommands (s : State) (pick : Nat → FetchedCmd → Bool) (status : Nat) : State :=
  (List.range 9).foldl (fun s q =>
    ((s.queue q).cmds.filter (pick q)).foldl (fun s c => s.reply q c status 0 0) s) s

/-- A recovery of context c is over (R424, R436, R457): parked commands go on, and a Census whose instant fell in it moves. -/
def State.recovered (s : State) (c : Nat) : State :=
  let s := (List.range 9).foldl (fun s q =>
    if (s.queue q).cmds.any (fun x => x.parked) then
      s.modQueue q (fun b => { b with cmds := b.cmds.map (fun x => { x with parked := false }) })
    else s) s
  match s.census with
  | .scheduled q tr slot t =>
    if (slot = c ∨ slot = 15) ∧ t ≤ s.time.lt then { s with census := .scheduled q tr slot (s.time.lt + 2048) } else s
  | _ => s

/-- A context stops by a fault (R181): nothing of it issues any more, its state stays, and the commands that it was running
reply `CONTEXT_STOPPED` (R433); a recovery of it has ended (R436). -/
def State.stopContext (s : State) (c : Nat) : State :=
  let ended := (s.slot c).state == .recovering
  let s := s.modSlot c (fun x => { x with state := .stopped })
  let s := { s with replay := false }.endCommands (fun _ x => x.accepted && x.context == c) 0x4001
  if ended then s.recovered c else s

/-- Scopes of R403. -/
def scopeNone : Nat := 0
def scopeStep : Nat := 1
def scopeStation : Nat := 2
def scopeContext : Nat := 3
def scopeFlow : Nat := 4
def scopeModule : Nat := 5

/-- `CONTRACT_FAULT` (R178): the report, and the context stops (R181). -/
def State.contractFault (s : State) (c subtype : Nat) (r : EvtRec) : State :=
  (s.report { r with family := 1, code := subtype, scope := scopeContext, context := c }).stopContext c

/-- Where a departure stands, for a report (R178). -/
def whereDep (s : State) (k j sect index : Nat) : EvtRec :=
  { EvtRec.blank with
    pstation := (s.phys k).getD 255, lstation := k, line := j, sect := sect, index := index }

/-- `MALFORMED` of a departure, with its reason (R153, R179). -/
def State.malformed (s : State) (c k j sect index reason : Nat) : State :=
  s.contractFault c 3 { whereDep s k j sect index with loc := reason }

/-- The step of a context is marked bad (R308): one notice and one count for a step. -/
def State.markStepBad (s : State) (c : Nat) : State :=
  let x := s.slot c
  if x.step.bad then s
  else
    let s := s.setSlot c { x with step := { x.step with bad := true } }
    (s.bump .stepsBad 0 1).notice 5 c ((x.step.committed + 1) % 2 ^ 32)

/-- The running context's step is marked bad where a poisoned value is consumed. -/
def State.runBad (s : State) (poisoned : Bool) : State :=
  match poisoned, s.runSlot with
  | true, some c => s.markStepBad c
  | _, _ => s

/-- An uncorrected error in Flowing data (R307): the report, and the step is bad. -/
def State.flowingError (s : State) (r : EvtRec) : State :=
  (s.report { r with family := 3, code := 0, scope := scopeStep, context := s.runSlot.getD 15 }).runBad true

/-- An uncorrected error in Aborting data (R309): the report, and the context stops. -/
def State.abortingError (s : State) (c : Nat) (r : EvtRec) : State :=
  (s.report { r with family := 3, code := 0, scope := scopeContext, context := c }).stopContext c

/-- A `STATION_CHECK` that retires its Station (R406): the report; the running context begins a recovery (R423). -/
def State.stationCheck (s : State) (p reason : Nat) (r : EvtRec) : State :=
  let s := s.report { r with family := 2, code := reason, scope := scopeStation, pstation := p }
  let s := { s with retireQ := if s.retireQ.contains p then s.retireQ else s.retireQ ++ [p] }
  match s.runSlot with
  | some c =>
    let p := if (s.slot c).state = .recovering then s.policies.promptNow else s.policies.prompt
    { s.modSlot c (fun x => { x with state := .recovering }) with replay := true, policies := { s.policies with promptNow := p } }
  | none => s

/-- A Token signal begins its transit to its owner (R160, R161). -/
def State.signal (s : State) (owner : Nat) (sig : Signal) : State :=
  s.modStation owner (fun st => { st with transit := st.transit ++ [sig] })

/-- A signal of the Shunter, the collective engine or the Update Engine: one count (R158, R159). -/
def State.engineSignal (s : State) (owner tok : Nat) : State :=
  let sect := match s.runSlot with
    | some c => match (s.slot c).run with | some r => r.sect | none => 0xFFFF
    | none => 0xFFFF
  s.signal owner { token := tok, count := 1, bySt := owner, byLine := 3, byIx := ones 24, bySect := sect, wb := none, sc := none }

/-! ## Late contributions and the ends of steps -/

/-- Chunks of a unit (R338). -/
def UnitDesc.chunks (u : UnitDesc) : Nat := ceilDiv u.size 4096

/-- Elements of chunk k. -/
def UnitDesc.chunkLen (u : UnitDesc) (k : Nat) : Nat := min 4096 (u.size - 4096 * k)

/-- Has every chunk of a contribution arrived? -/
def Contrib.full (x : Contrib) (u : UnitDesc) : Bool := x.got.length == u.chunks

/-- A straggler record (R353). -/
def stragRecord (x : Contrib) (outcome late : Nat) : Nat :=
  place x.epoch 96 + place x.coll 80 + place x.unit 60 + place x.sender 44 + place x.stage 43 + place outcome 41 + place late 17

/-- A record goes into the ring of the unit's die, or is lost (R353). -/
def State.stragWrite (s : State) (die rec' : Nat) : State :=
  let l := tget [] s.coll.strag die
  if l.length < 4096 then s.setColl { s.coll with strag := tset s.coll.strag die (l ++ [rec']) }
  else (s.setColl { s.coll with stragLost := tmodify 0 s.coll.stragLost die (· + 1) }).bump .stragLost die 1

/-- Messages of units that were dropped before they were delivered have not been sent (R408, R409, R418). -/
def State.forgetSent (s : State) (gone : CollSent → Bool) : State :=
  s.setColl { s.coll with sending := s.coll.sending.filter (fun x => !gone x) }

/-- A late contribution is dropped (R353). -/
def State.dropLate (s : State) (die : Nat) (x : Contrib) (outcome late : Nat) : State :=
  let s := s.setColl { s.coll with dropped := s.coll.dropped + 1 }
  (s.bump .collDropped die 1).stragWrite die (stragRecord x outcome late)

/-- Contributions that were late, or held for `FOLD`, when their run ended will meet no further close: each is dropped (R31, R353). -/
def State.settleRun (s : State) : State :=
  match s.collSlot with
  | none => s
  | some c => match (s.slot c).image with
    | none => s
    | some img =>
      let late := s.coll.late
      let held := s.coll.folds
      let s := s.setColl { s.coll with late := [], folds := [] }
      let s := late.foldl (fun s x =>
        s.dropLate (img.unit x.unit).die x 1 (if x.full (img.unit x.unit) then x.late else ones 24)) s
      held.foldl (fun s x => s.dropLate (img.unit x.unit).die x 2 x.late) s

/-- Slot `c` has no collective engine and no Depot of its own any more. -/
def State.dropColl (s : State) (c : Nat) : State :=
  let s := s.inSlot c State.settleRun
  if s.collSlot = some c then { s with coll := Collective.init.onDies s.coll, collSlot := none }
  else { s with parked := terase s.parked c }

/-- A step begins: counters that are defined over a step restart (R15). -/
def State.newStep (s : State) : State := { s with ctrs := ctrSet s.ctrs .collPeerLateMax 0 CtrVal.init }

end Sys2Proof.Machine
end

