-- ==== Sys2Proof/Machine/Operands.lean ====
section
/-! DEFINITION. The operands of the departures (bits [105:0] of R151) and the parts of their form checks that every
departure shares (R151, R153, R179). -/

namespace Sys2Proof.Machine

open Sys2Proof

/-- Opcodes of departures (R152, R183, R240, R291, R343). -/
def opToken : Nat := 0x01
def opSectionEnd : Nat := 0x02
def opPoints : Nat := 0x03
def opBoard : Nat := 0x04
def opStage : Nat := 0x10
def opMma : Nat := 0x11
def opCplx : Nat := 0x12
def opSend : Nat := 0x13
def opTake : Nat := 0x14
def opBallast : Nat := 0x15
def opOpen : Nat := 0x16
def opClose : Nat := 0x17
def opTurn : Nat := 0x58
def opDrain : Nat := 0x60
def opDrainCplx : Nat := 0x61
def opConvert : Nat := 0x62
def opAct : Nat := 0x63
def opEw : Nat := 0x64
def opNorm : Nat := 0x65
def opVstats : Nat := 0x66
def opManifest : Nat := 0xB0
def opSidingSet : Nat := 0xB1
def opExpect : Nat := 0xB2
def opColl : Nat := 0xD0
def opRightAway : Nat := 0xD1

/-- The opcodes that are assigned; every other code is malformed, reason 0x02. -/
def knownOpcodes : List Nat :=
  [opToken, opSectionEnd, opPoints, opBoard, opStage, opMma, opCplx, opSend, opTake, opBallast, opOpen, opClose, opTurn,
   opDrain, opDrainCplx, opConvert, opAct, opEw, opNorm, opVstats, opManifest, opSidingSet, opExpect, opColl, opRightAway]

/-- Granules of a Station store (R184), and its bytes. -/
def storeGranules : Nat := 98304
def storeBytes : Nat := 6291456

/-- A list of reasons from conditions: each pair is (the check fails, its reason). -/
def reasonsOf (l : List (Bool × Nat)) : List Nat := (l.filter (fun x => x.1)).map (fun x => x.2)

/-- The lowest of the reasons (R179). -/
def leastOf : List Nat → Option Nat
  | [] => none
  | a :: t => match leastOf t with | none => some a | some b => some (min a b)

/-- What every departure's form check covers: unused wait and signal fields, the opcode, engine Tokens (R151, R152, R158). -/
def commonForm (d : BitVec 256) : List Nat :=
  reasonsOf [(Dep.unusedSet d, 1), (!knownOpcodes.contains (Dep.opcode d), 2),
             ((Dep.sigs d).any (fun g => decide (0xC0 ≤ g.tok)), 4)]

/-- Record size in granules of a format; 0 where there is none. -/
def recGran (desc : Nat) : Nat := match Fmt.ofDesc desc with | some f => f.recordGran | none => 0

/-- The class of an operand format in R185: 0 block, 1 integer, 2 float, 3 double; none where no pairing admits it. -/
def pairClass (desc : Nat) : Option Nat :=
  match Fmt.ofDesc desc with
  | none => none
  | some f =>
    match f.elem with
    | .e4m3 | .e5m2 | .e2m3 | .e3m2 | .e2m1 => some 0
    | .int8 => if f.block = 0 then some 1 else some 0
    | .int4 | .int16 => some 1
    | .bf16 | .fp16 | .fp32 => some 2
    | .fp64 => some 3
    | _ => none

/-- A legal pairing's class (R185). -/
def pairing (sf xf : Nat) : Option Nat :=
  match pairClass sf, pairClass xf with
  | some a, some b =>
    if a ≠ b then none
    else if a = 0 then
      match Fmt.ofDesc sf, Fmt.ofDesc xf with
      | some f, some g => if f.block ≠ 0 ∧ g.block ≠ 0 ∧ f.block ≠ g.block then none else some 0
      | _, _ => none
    else some a
  | _, _ => none

/-- Block length of a block-path pairing (R186). -/
def pairBlock (sf xf : Nat) : Nat :=
  match Fmt.ofDesc sf, Fmt.ofDesc xf with
  | some f, some g => if f.block ≠ 0 then f.block else if g.block ≠ 0 then g.block else 32
  | _, _ => 32

/-- Cycles per product of an operand format (R22, R67). -/
def prodCycles (desc : Nat) : Nat :=
  match Fmt.ofDesc desc with
  | none => 1
  | some f =>
    match f.elem with
    | .e2m1 => 1
    | .e2m3 | .e3m2 | .e4m3 | .e5m2 | .int4 => 2
    | .bf16 | .int8 => 4
    | .fp16 => 6
    | .int16 => 8
    | .fp32 => 12
    | .fp64 => 36
    | _ => 1

/-- Product time of a pairing (R67). -/
def pairCycles (sf xf : Nat) : Nat := max (prodCycles sf) (prodCycles xf)

/-- The path of a pairing (R75), numbered as in `Row.path`. -/
def pairPath (sf xf : Nat) : Nat :=
  match pairing sf xf with
  | some 1 => 2
  | some 2 => 3
  | some 3 => 4
  | _ => if pairBlock sf xf = 16 then 1 else 0

/-- Terms per valid row of a path (R76). -/
def pathTerms : Nat → Nat
  | 0 => 8
  | 1 => 16
  | _ => 256

/-- Adder-tree write latency of a path (R120). -/
def pathWrite : Nat → Nat
  | 0 => 10
  | 1 => 18
  | 4 => 8
  | _ => 6

/-- The group `KIND` that a path needs (R185). -/
def pathKind : Nat → Nat
  | 2 => 1
  | 4 => 2
  | _ => 0

/-- A malformed descriptor, then one that the field does not allow. -/
def fmtReasons (desc : Nat) (ok : Bool) : List Nat :=
  match Fmt.ofDesc desc with
  | none => [3]
  | some _ => if ok then [] else [0x0B]

/-- Form checks of a source (R184): address and extent of `gran` granules in the store, or the bits that a Siding or a line
does not use. -/
def srcReasons (kind src gran : Nat) : List Nat :=
  match kind with
  | 0 => reasonsOf [(decide (storeGranules < src + gran ∨ storeGranules ≤ src), 0x0B)]
  | 1 => reasonsOf [(decide (src / 16 ≠ 0), 1)]
  | _ => reasonsOf [(bit src 16, 1)]

/-- `STAGE` (R189). -/
structure StageOps where
  sfmt : Nat
  kind : Nat
  src  : Nat
  tag  : Nat

def stageOps (d : BitVec 256) : StageOps := ⟨Dep.f d 105 98, Dep.f d 97 96, Dep.f d 95 79, Dep.f d 78 71⟩

def stageForm (d : BitVec 256) : List Nat :=
  let o := stageOps d
  fmtReasons o.sfmt (pairClass o.sfmt).isSome ++ srcReasons o.kind o.src (recGran o.sfmt) ++
  reasonsOf [(Dep.f d 70 0 != 0, 1), (o.tag == 0, 0x0B)]

/-- `MMA` (R191). -/
structure MmaOps where
  sfmt : Nat
  xfmt : Nat
  kind : Nat
  src  : Nat
  tag  : Nat
  group : Nat
  gseqEn : Bool
  gseq : Nat
  rowOff : Nat
  span : Nat
  nrows : Nat
  neg  : Bool
  isat : Bool

def mmaOps (d : BitVec 256) : MmaOps :=
  { sfmt := Dep.f d 105 98, xfmt := Dep.f d 97 90, kind := Dep.f d 89 88, src := Dep.f d 87 71, tag := Dep.f d 70 63,
    group := Dep.f d 62 60, gseqEn := bit d.toNat 59, gseq := Dep.f d 58 43, rowOff := Dep.f d 42 32,
    span := Dep.f d 31 21 + 1, nrows := Dep.f d 20 5 + 1, neg := bit d.toNat 4, isat := bit d.toNat 3 }

/-- Reasons of a pairing (R185, R179). -/
def pairReasons (sf xf : Nat) : List Nat :=
  if (Fmt.ofDesc sf).isNone ∨ (Fmt.ofDesc xf).isNone then [3]
  else reasonsOf [((pairing sf xf).isNone, 0x0B)]

def mmaForm (d : BitVec 256) : List Nat :=
  let o := mmaOps d
  pairReasons o.sfmt o.xfmt ++ srcReasons o.kind o.src (ceilDiv o.nrows 256 * recGran o.xfmt) ++
  reasonsOf [(Dep.f d 2 0 != 0, 1), (o.isat && pairing o.sfmt o.xfmt != some 1, 0x0B)]

/-- `MMA_CPLX` (R195). -/
structure CplxOps where
  sfmt : Nat
  xfmt : Nat
  stat : Nat
  src  : Nat
  form : Nat
  group : Nat
  gseqEn : Bool
  gseq : Nat
  rowOff : Nat
  nrows : Nat
  isat : Bool

def cplxOps (d : BitVec 256) : CplxOps :=
  { sfmt := Dep.f d 105 98, xfmt := Dep.f d 97 90, stat := Dep.f d 89 73, src := Dep.f d 72 56, form := Dep.f d 55 54,
    group := Dep.f d 53 51, gseqEn := bit d.toNat 50, gseq := Dep.f d 49 34, rowOff := Dep.f d 33 23,
    nrows := Dep.f d 22 15 + 1, isat := bit d.toNat 14 }

/-- A real pass of a complex product (R77, R196): stationary tile, streamed record, group offset, sign. -/
structure CplxPass where
  tile : Nat
  strm : Nat
  grp  : Nat
  neg  : Bool

def cplxPasses : Nat → List CplxPass
  | 1 => [⟨0, 0, 0, false⟩, ⟨1, 1, 1, false⟩, ⟨2, 2, 2, false⟩]
  | 2 => [⟨0, 0, 0, false⟩, ⟨0, 1, 1, false⟩, ⟨1, 0, 1, false⟩, ⟨1, 1, 0, true⟩]
  | _ => []

/-- Groups that the departure addresses (R196). -/
def cplxGroups (o : CplxOps) : List Nat :=
  match o.form with
  | 1 => [o.group, o.group + 1, o.group + 2]
  | _ => [o.group, o.group + 1]

def cplxForm (d : BitVec 256) : List Nat :=
  let o := cplxOps d
  let n := if o.form = 1 then 3 else 2
  pairReasons o.sfmt o.xfmt ++ srcReasons 0 o.stat (n * recGran o.sfmt) ++ srcReasons 0 o.src (n * recGran o.xfmt) ++
  reasonsOf [(Dep.f d 13 0 != 0, 1), (o.form == 0 || o.form == 3, 0x0B), ((o.form == 1 || o.form == 2) && decide (7 < o.group + n - 1), 8),
             (o.isat && pairing o.sfmt o.xfmt != some 1, 0x0B)]

/-- `LOOP_SEND` (R203, R204). -/
structure SendOps where
  siding : Bool
  src  : Nat
  line : Nat
  fmt  : Nat
  tag  : Nat
  hops : Nat
  useFrom : Nat
  stride : Nat
  object : Nat
  trow : Nat
  tcol : Nat
  cind : Bool
  /-- Address of the coordinate granule with `CIND`. -/
  cgran : Nat

def sendOps (d : BitVec 256) : SendOps :=
  { siding := bit d.toNat 105, src := Dep.f d 104 88, line := Dep.f d 87 87, fmt := Dep.f d 86 79, tag := Dep.f d 78 63,
    hops := Dep.f d 62 56, useFrom := Dep.f d 55 49, stride := Dep.f d 48 42, object := Dep.f d 41 21,
    trow := Dep.f d 20 11, tcol := Dep.f d 10 1, cind := bit d.toNat 0, cgran := Dep.f d 20 4 }

/-- May a Consist carry this format (R90)? -/
def consistFmt (desc : Nat) : Bool :=
  match Fmt.ofDesc desc with
  | none => false
  | some f => match f.elem with | .zf12 | .acc48 | .acc48i | .acc96 => false | _ => true

/-- The header conditions of R93. -/
def headerReasons (hops useFrom stride desc : Nat) : List Nat :=
  match Fmt.ofDesc desc with
  | none => [3]
  | some _ => reasonsOf [(hops == 0 || useFrom == 0 || decide (hops < useFrom) || stride == 0 || !consistFmt desc, 5)]

def sendForm (d : BitVec 256) : List Nat :=
  let o := sendOps d
  headerReasons o.hops o.useFrom o.stride o.fmt ++
  srcReasons (if o.siding then 1 else 0) o.src (recGran o.fmt) ++
  (if o.siding then reasonsOf [(o.object != 0 || o.trow != 0 || o.tcol != 0 || o.cind, 0x0B)]
   else reasonsOf [(decide (1048576 < o.object), 0x0B), (o.cind && Dep.f d 3 1 != 0, 1),
                   (o.cind && decide (storeGranules ≤ o.cgran), 0x0B)])

/-- `LOOP_TAKE` (R205). -/
structure TakeOps where
  line : Nat
  tag  : Nat
  addr : Nat
  fmt  : Nat

def takeOps (d : BitVec 256) : TakeOps := ⟨Dep.f d 105 105, Dep.f d 104 89, Dep.f d 88 72, Dep.f d 71 64⟩

def takeForm (d : BitVec 256) : List Nat :=
  let o := takeOps d
  fmtReasons o.fmt true ++ srcReasons 0 o.addr (recGran o.fmt) ++ reasonsOf [(Dep.f d 63 0 != 0, 1)]

/-- `BALLAST` (R206). -/
structure BallastOps where
  fmt   : Nat
  nrows : Nat

def ballastOps (d : BitVec 256) : BallastOps := ⟨Dep.f d 105 98, Dep.f d 97 82 + 1⟩

def ballastForm (d : BitVec 256) : List Nat :=
  let o := ballastOps d
  fmtReasons o.fmt (pairClass o.fmt).isSome ++ reasonsOf [(Dep.f d 81 0 != 0, 1)]

/-- `GROUP_OPEN` (R207). -/
structure OpenOps where
  slot : Nat
  base : Nat
  count : Nat
  kind : Nat
  orderFixed : Bool
  cascade : Bool
  partner : Nat
  partnerBase : Nat
  clear : Bool

def openOps (d : BitVec 256) : OpenOps :=
  { slot := Dep.f d 105 103, base := Dep.f d 102 92, count := Dep.f d 91 80, kind := Dep.f d 79 78,
    orderFixed := bit d.toNat 77, cascade := bit d.toNat 76, partner := Dep.f d 75 73, partnerBase := Dep.f d 72 62,
    clear := bit d.toNat 61 }

/-- The cases of R116 and R207 that the departure's own bits decide. -/
def openForm (d : BitVec 256) : List Nat :=
  let o := openOps d
  reasonsOf [(Dep.f d 60 0 != 0, 1),
    (o.count == 0 || decide (2048 < o.base + o.count) || (o.cascade && decide (2048 < o.partnerBase + o.count)), 7),
    (o.kind == 3, 7),
    (o.kind == 2 && (bit o.base 0 || bit o.count 0 || (o.cascade && bit o.partnerBase 0)), 7),
    (o.cascade && o.kind == 1, 7),
    (o.cascade && o.partner == o.slot, 7),
    (o.cascade && decide (o.base < o.partnerBase + o.count ∧ o.partnerBase < o.base + o.count), 7),
    (!o.cascade && (o.partner != 0 || o.partnerBase != 0), 7)]

/-- `GROUP_CLOSE` (R208). -/
structure CloseOps where
  slot : Nat
  gseqEn : Bool
  gseq : Nat

def closeOps (d : BitVec 256) : CloseOps := ⟨Dep.f d 105 103, bit d.toNat 102, Dep.f d 101 86⟩

def closeForm (d : BitVec 256) : List Nat := reasonsOf [(Dep.f d 85 0 != 0, 1)]

/-- `POINTS` (R171). -/
structure PointsOps where
  base : Nat
  targets : Nat
  mask : Bool
  predict : Nat
  join : Nat
  sel  : Nat

def pointsOps (d : BitVec 256) : PointsOps :=
  ⟨Dep.f d 105 90, Dep.f d 89 86 + 1, bit d.toNat 85, Dep.f d 84 80, Dep.f d 79 64, Dep.f d 63 43⟩

/-- `POINTS` misuse that the bits and the image decide (R172, R179). -/
def pointsForm (img : Image) (sect k : Nat) (d : BitVec 256) : List Nat :=
  let o := pointsOps d
  let r := img.sect sect
  reasonsOf [(Dep.f d 42 0 != 0, 1),
    (!r.hasPoints || r.pointsStation != k, 9),
    ((List.range o.targets).any (fun t =>
        decide (img.sectionCount ≤ o.base + t) || (img.sect (o.base + t)).hasPoints), 9),
    (o.join != 0xFFFF && decide (img.sectionCount ≤ o.join), 9),
    (o.predict != 31 && (decide (16 ≤ o.predict) || decide (o.targets ≤ o.predict)), 9),
    (decide (storeBytes < 4 * o.sel + 4), 0x0B)]

/-- `WARNING_BOARD` (R174). -/
structure BoardOps where
  lead : Nat
  level : Nat
  duration : Nat

def boardOps (d : BitVec 256) : BoardOps := ⟨Dep.f d 105 86, Dep.f d 85 74, Dep.f d 73 54⟩

def boardForm (d : BitVec 256) : List Nat :=
  reasonsOf [(Dep.f d 53 0 != 0, 1), (decide ((boardOps d).lead < 20000), 0x0A)]

/-- `MANIFEST` (R292). -/
structure ManifestOps where
  object : Nat
  first : Nat
  count : Nat
  back  : Bool
  siding : Nat
  forSect : Nat
  token : Nat

def manifestOps (d : BitVec 256) : ManifestOps :=
  ⟨Dep.f d 105 85, Dep.f d 84 61, Dep.f d 60 55 + 1, bit d.toNat 54, Dep.f d 53 50, Dep.f d 49 34, 0xC0 + Dep.f d 33 29⟩

/-- The cases of R293 that the bits and the image decide. -/
def manifestForm (img : Image) (sect : Nat) (d : BitVec 256) : List Nat :=
  let o := manifestOps d
  reasonsOf [(Dep.f d 28 0 != 0, 1), (o.back && (o.siding != 0 || o.forSect != sect), 0x0B)] ++
  (match img.obj o.object with
   | none => [0x0B]
   | some x => reasonsOf [(x.kind != 6 || decide (x.extent / 64 < o.first + o.count), 0x0B)])

/-- `SIDING_SET` (R286). -/
structure SidingSetOps where
  siding : Nat
  base : Nat
  size : Nat

def sidingSetOps (d : BitVec 256) : SidingSetOps := ⟨Dep.f d 105 102, Dep.f d 101 85, Dep.f d 84 68⟩

def sidingSetForm (d : BitVec 256) : List Nat :=
  let o := sidingSetOps d
  reasonsOf [(Dep.f d 67 0 != 0, 1), (o.size == 0 || decide (storeGranules < o.base + o.size), 0x0B)]

/-- `SIDING_EXPECT` (R300). -/
structure ExpectOps where
  siding : Nat
  fmt : Nat

def expectOps (d : BitVec 256) : ExpectOps := ⟨Dep.f d 105 102, Dep.f d 101 94⟩

def expectForm (d : BitVec 256) : List Nat :=
  let o := expectOps d
  fmtReasons o.fmt (consistFmt o.fmt) ++ reasonsOf [(Dep.f d 93 0 != 0, 1)]

/-- `TURN` (R240). -/
structure TurnOps where
  object : Nat
  trow : Nat
  tcol : Nat
  ifmt : Nat
  oblock : Nat
  round : Nat
  dest : Nat
  dstStation : Nat
  siding : Nat
  tag  : Nat
  hops : Nat
  useFrom : Nat
  stride : Nat
  cind : Bool
  cgran : Nat

def turnOps (d : BitVec 256) : TurnOps :=
  { object := Dep.f d 105 85, trow := Dep.f d 84 75, tcol := Dep.f d 74 65, ifmt := Dep.f d 64 57, oblock := Dep.f d 56 55,
    round := Dep.f d 54 52, dest := Dep.f d 51 50, dstStation := Dep.f d 49 43, siding := Dep.f d 42 39,
    tag := Dep.f d 38 23, hops := Dep.f d 22 16, useFrom := Dep.f d 15 9, stride := Dep.f d 8 2, cind := bit d.toNat 1,
    cgran := Dep.f d 81 65 }

/-- The output format: `OBLOCK` with the element of `IFMT` (R240). -/
def TurnOps.ofmt (o : TurnOps) : Nat := place o.oblock 6 + field o.ifmt 4 0

/-- Are tile coordinates inside an object's grid? -/
def inGrid (img : Image) (object row col : Nat) : Bool :=
  match img.obj object with
  | none => false
  | some x => x.layout == 0 && decide (row < x.rows ∧ col < x.cols)

def turnForm (img : Image) (k : Nat) (d : BitVec 256) : List Nat :=
  let o := turnOps d
  reasonsOf [(bit d.toNat 0, 1), (o.dest == 0 && Dep.f d 38 2 != 0, 1), (o.dest != 0 && Dep.f d 49 39 != 0, 1),
    (o.cind && Dep.f d 84 82 != 0, 1), (o.cind && decide (storeGranules ≤ o.cgran), 0x0B),
    ((Fmt.ofDesc o.ifmt).isNone || (Round.ofCode o.round).isNone, 3),
    (!consistFmt o.ifmt && (Fmt.ofDesc o.ifmt).isSome, 0x0B),
    (o.oblock == 3 || (o.oblock == 0) != (field o.ifmt 7 6 == 0), 0x0B), ((Fmt.ofDesc o.ofmt).isNone, 3),
    (o.dest == 0 && o.dstStation / 16 != k / 16, 0x0B),
    (o.dest != 0 && headerReasons o.hops o.useFrom o.stride o.ofmt == [5], 5),
    (!o.cind && !inGrid img o.object o.trow o.tcol, 0x0B)]

/-- `COLL` (R343, R344): `COLL_ID`; the issuing Station and the descriptor's section are decided by the image. -/
def collId (d : BitVec 256) : Nat := Dep.f d 105 90

def collForm (img : Image) (sect k : Nat) (d : BitVec 256) : List Nat :=
  reasonsOf [(Dep.f d 89 0 != 0, 1), (k != 0, 0x0B), (decide (img.collCount ≤ collId d), 0x0B),
    (decide (collId d < img.collCount) && collSection img (collId d) != sect, 0x0B)]

/-- `RIGHT_AWAY` (R362): the address of the commit record. -/
def rightAwayAddr (d : BitVec 256) : Nat := Dep.f d 105 89

def rightAwayForm (k : Nat) (d : BitVec 256) : List Nat :=
  reasonsOf [(Dep.f d 88 0 != 0, 1), (k != 0, 0x0B), (decide (storeGranules ≤ rightAwayAddr d), 0x0B)]

/-- `TOKEN` and `SECTION_END` (R154): every operand bit is reserved. -/
def plainForm (d : BitVec 256) : List Nat := reasonsOf [(Dep.f d 105 0 != 0, 1)]

end Sys2Proof.Machine
end

