-- ==== Sys2Proof/Machine/Lanes.lean ====
section
/-! DEFINITION. The vector lanes: lane values (R209, R210), the functions and their derivatives (R228, R229, R486), the
elementwise operations (R231) and the reductions (R133, R134, R233). -/

namespace Sys2Proof.Machine

open Sys2Proof

/-- A value enters a lane (R210). -/
def laneIn (x : Val) : Val := laneArith.round .rne x

def laneAdd (x y : Val) : Val := laneArith.add .rne x y
def laneSub (x y : Val) : Val := laneArith.add .rne x y.neg
def laneMul (x y : Val) : Val := laneArith.mul .rne x y
def laneDiv (x y : Val) : Val := laneArith.round .rne (Val.div 24 x y)
def laneSqrt (x : Val) : Val := laneArith.round .rne (Val.sqrt 24 x)

/-- A function of R228 whose bits the spec leaves open: some lane value within its bound of the exact value, `SIN` and `COS` within
2^-22 beyond 2^16. -/
def laneFree (code : Nat) (x : Val) : Val :=
  let choice := Config.freeOffset code x.canon
  if (code = 0x10 ∨ code = 0x11) ∧ Val.lt (.fin false 1 16) x.abs then laneNear22 choice (funcExact code x)
  else laneWithin choice (funcBound code) (funcExact code x)

/-- f' within 4 units in the last place of the exact derivative (R486). -/
def laneFreeDeriv (code : Nat) (x : Val) : Val := laneWithin (Config.freeOffset (256 + code) x.canon) 4 (derivExact code x)

/-- Is a value a finite one below zero? -/
def Val.below0 : Val → Bool
  | .fin s m _ => s && m != 0
  | _ => false

def Val.above0 (x : Val) : Bool := Val.lt .zero x

/-- 0.5. -/
def valHalf : Val := .fin false 1 (-1)

/-- The special operands of R229 of the functions that no exact rule fixes; none where the definition applies. -/
def funcSpecial (code : Nat) (x : Val) : Option Val :=
  match x with
  | .nan => some .nan
  | .inf false =>
    match code with
    | 0x04 | 0x05 => some .one
    | 0x0D | 0x0F => some .zero
    | 0x10 | 0x11 => some .nan
    | _ => some (.inf false)
  | .inf true =>
    match code with
    | 0x04 => some .zero
    | 0x05 => some (.fin true 1 0)
    | 0x06 | 0x07 | 0x08 => some (.fin true 0 0)
    | 0x09 | 0x0A | 0x0B => some .zero
    | 0x0D => some (.fin true 0 0)
    | _ => some .nan
  | .fin s m _ =>
    if m = 0 then
      match code with
      | 0x04 => some valHalf
      | 0x05 | 0x06 | 0x07 | 0x08 | 0x10 => some (.fin s 0 0)
      | 0x09 => some (.fin false 11629080 (-24))  -- ln 2 under RNE (R209)
      | 0x0A | 0x0B | 0x11 => some .one
      | 0x0C => some (.inf true)
      | 0x0D | 0x0F => some (.inf s)
      | _ => none
    else if s then
      match code with
      | 0x0C | 0x0F => some .nan
      | _ => none
    else none

/-- The functions (R228, R229). -/
def laneFunc (code : Nat) (p0 p1 x : Val) : Val :=
  match code with
  | 0x00 => x
  | 0x01 => if x.isNaN then .nan else if x.above0 then x else .zero
  | 0x02 =>
    if x.isNaN then .nan
    else if x.above0 then x
    else if x.isZero ∧ ¬ x.sign then .zero
    else laneMul p0 x
  | 0x03 => if x.isNaN then .nan else Val.min (Val.max x p0) p1
  | 0x0E => laneSqrt x
  | 0x12 => x.abs
  | 0x13 => laneMul x x
  | code =>
    match funcSpecial code x with
    | some v => v
    | none => laneFree code x

/-- Is this function code assigned (R228)? -/
def funcKnown (code : Nat) : Bool := decide (code ≤ 0x13)

/-- Does the function take parameters? -/
def funcParams (code : Nat) : Bool := code == 2 || code == 3

/-- f' at an operand that is zero or infinite, by the formula's IEEE value and the table of R486. -/
def derivSpecial (code : Nat) (x : Val) : Option Val :=
  let s := x.sign
  match x with
  | .nan => some .nan
  | .inf _ =>
    match code with
    | 0x04 => some (.inf true)
    | 0x05 => some (.inf true)
    | 0x06 | 0x07 | 0x08 | 0x09 => some (if s then .zero else .one)
    | 0x0B => some (.inf s)
    | 0x0C => some (if s then .nan else .zero)
    | 0x0D => some (.inf true)
    | 0x0E => some (if s then .nan else .zero)
    | 0x0F => some (.inf (!s))
    | 0x13 => some (.inf s)
    | _ => some .nan
  | .fin _ m _ =>
    if m = 0 then
      match code with
      | 0x04 => some (.fin s 0 0)
      | 0x05 => some .one
      | 0x06 | 0x07 | 0x08 | 0x09 => some valHalf
      | 0x0B => some (.fin s 0 0)
      | 0x0C => some (.inf false)
      | 0x0D => some (.fin true 0 0)
      | 0x0E => some (.inf false)
      | 0x0F => some (.fin (!s) 0 0)
      | 0x10 => some .one
      | 0x11 => some (.fin (!s) 0 0)
      | 0x13 => some (.fin s 0 0)
      | _ => none
    else if s then
      match code with
      | 0x0C | 0x0E => some .nan
      | _ => none
    else none

/-- f' of R228's last column (R486). -/
def laneDeriv (code : Nat) (p0 p1 x : Val) : Val :=
  if x.isNaN then .nan
  else
    match code with
    | 0x00 => .one
    | 0x01 => if x.above0 then .one else .zero
    | 0x02 => if x.above0 then .one else p0
    | 0x03 => if p0.lt x && x.lt p1 then .one else .zero
    | 0x0A => x
    | 0x12 => if x.isZero then .zero else if x.sign then .fin true 1 0 else .one
    | code =>
      match derivSpecial code x with
      | some v => v
      | none => laneFreeDeriv code x

/-- The elementwise operations of R231. -/
def laneOp (op : Nat) (a b d : Val) : Val :=
  match op with
  | 0 => laneAdd a b
  | 1 => laneSub a b
  | 2 => laneMul a b
  | 3 => laneDiv a b
  | 4 => Val.max a b
  | 5 => Val.min a b
  | _ => laneArith.round .rne (Val.add false (Val.mul a b) d)

/-- ACC48 operations under RNE (R133). -/
def redAdd (x y : Val) : Val := acc48Arith.add .rne x y
def redMul (x y : Val) : Val := acc48Arith.mul .rne x y
def redDiv (x y : Val) : Val := acc48Arith.round .rne (Val.div 38 x y)

/-- n, mean and m2 of R133. -/
structure Moments where
  n    : Nat
  mean : Val
  m2   : Val
deriving DecidableEq, Repr

/-- One more value (axis `ROWS`). -/
def Moments.push (m : Moments) (x : Val) : Moments :=
  let n := m.n + 1
  let delta := redAdd x m.mean.neg
  let mean := redAdd m.mean (redDiv delta (.ofInt n))
  { n := n, mean := mean, m2 := redAdd m.m2 (redMul delta (redAdd x mean.neg)) }

/-- Two parts combined (axis `COLS`). -/
def Moments.join (a b : Moments) : Moments :=
  let n := a.n + b.n
  let delta := redAdd b.mean a.mean.neg
  { n := n,
    mean := redAdd a.mean (redDiv (redMul delta (.ofInt b.n)) (.ofInt n)),
    m2 := redAdd (redAdd a.m2 b.m2)
      (redDiv (redMul (redMul (redMul delta delta) (.ofInt a.n)) (.ofInt b.n)) (.ofInt n)) }

/-- Neighbours combined, lower index first. -/
def pairUp {α : Type} (f : α → α → α) : List α → List α
  | a :: b :: t => f a b :: pairUp f t
  | l => l

/-- The fixed pairwise tree; 8 levels for 256 values. -/
def treeFold {α : Type} (f : α → α → α) : Nat → List α → Option α
  | 0, l => l.head?
  | n + 1, l => treeFold f n (pairUp f l)

/-- A running fold that starts from the first value. -/
def runFold {α : Type} (f : α → α → α) : List α → Option α
  | [] => none
  | a :: t => some (t.foldl f a)

/-- A fold along an axis: ascending rows, or the tree over 256 columns (R133). -/
def axisFold {α : Type} (cols : Bool) (f : α → α → α) (l : List α) : Option α :=
  if cols then treeFold f 8 l else runFold f l

/-- The sum along an axis. -/
def redSum (cols : Bool) (xs : List Val) : Val := (axisFold cols redAdd xs).getD .zero

/-- Mean and m2 along an axis. -/
def redMoments (cols : Bool) (xs : List Val) : Moments :=
  if cols then (treeFold Moments.join 8 (xs.map (fun x => (⟨1, x, .zero⟩ : Moments)))).getD ⟨0, .zero, .zero⟩
  else xs.foldl Moments.push ⟨0, .zero, .zero⟩

/-- A reduction's results for the values of one lane or one row: code of R220 or R233 (R133, R134). -/
def reduce (code : Nat) (cols sample : Bool) (xs : List Val) : List Val :=
  let bad := xs.any Val.isNaN
  let inf := xs.any Val.isInf
  match code with
  | 1 => [if bad then .nan else redSum cols xs]
  | 2 => [if bad then .nan else if inf then .inf false else redSum cols (xs.map (fun x => redMul x x))]
  | 3 =>
    if bad then [.nan, .nan]
    else if inf then [redDiv (redSum cols xs) (.ofInt xs.length), .nan]
    else
      let m := redMoments cols xs
      let var := if sample then (if m.n ≤ 1 then .nan else redDiv m.m2 (.ofInt (m.n - 1 : Nat)))
                 else redDiv m.m2 (.ofInt m.n)
      [m.mean, var]
  | 4 => [(axisFold cols Val.max xs).getD .nan]
  | 5 => [(axisFold cols Val.min xs).getD .nan]
  | _ => []

end Sys2Proof.Machine
end

