-- ==== Sys2Proof/Machine/DrainOperands.lean ====
section
/-! DEFINITION. The operands and form checks of the drain-path departures (R213, R214, R220, R225, R227, R230 to R233). -/

namespace Sys2Proof.Machine

open Sys2Proof

/-- Legal value output (R214). -/
def outFmtOk (desc : Nat) : Bool :=
  match Fmt.ofDesc desc with
  | none => false
  | some f => match f.elem with | .acc48 | .acc48i | .acc96 => false | _ => true

/-- Legal store input (R214). -/
def inFmtOk (desc : Nat) : Bool :=
  match Fmt.ofDesc desc with
  | none => false
  | some f => match f.elem with | .zf12 | .acc48 | .acc48i | .acc96 => false | _ => true

/-- Is the descriptor a plain integer format, the only ones with `ISAT` (R214)? -/
def isPlainInt (desc : Nat) : Bool := desc == 0x09 || desc == 0x0A || desc == 0x0B

/-- Reasons of a value output with its `ROUND` and `ISAT` (R214). -/
def outReasons (desc round : Nat) (isat : Bool) : List Nat :=
  fmtReasons desc (outFmtOk desc) ++
  reasonsOf [((Round.ofCode round).isNone, 3), (desc == 0x0F && round != 0, 3), (isat && !isPlainInt desc, 0x0B)]

/-- Extent of n rows in granules (R213). -/
def rowsGran (desc n : Nat) : Nat := if desc = 0x0F then 6 * n else ceilDiv n 256 * recGran desc

/-- Extent of a dense vector of n elements, with its scales for an MX format (R231). -/
def vectorGran (desc n : Nat) : Nat :=
  match Fmt.ofDesc desc with
  | none => 0
  | some f => ceilDiv (ceilDiv (n * f.elem.bits) 8) 64 + (if f.block = 0 then 0 else ceilDiv (ceilDiv n f.block) 64)

/-- A granule extent: start and length. -/
structure Ext where
  start : Nat
  len   : Nat

def Ext.meets (a b : Ext) : Bool := decide (a.start < b.start + b.len ∧ b.start < a.start + a.len)

/-- Does an extent reach beyond the store? -/
def Ext.beyond (a : Ext) : Bool := decide (storeGranules < a.start + a.len) || decide (storeGranules ≤ a.start)

/-- Overlap of destination and source other than in place (R213). -/
def clash (dst : Ext) (dstRec : Nat) (src : Ext) (srcRec : Nat) : Bool :=
  dst.meets src && !(dst.start == src.start && decide (dstRec ≤ srcRec))

/-- Write sc of an output row (R218). -/
def rowSc (desc : Nat) : Nat :=
  match Fmt.ofDesc desc with
  | none => 1
  | some f =>
    if f.block ≠ 0 then 1
    else match f.elem with
      | .fp64 => 8
      | .fp32 => 4
      | .bf16 | .fp16 | .int16 | .zf12 => 2
      | _ => 1

/-- `DRAIN` (R220); `DRAIN_CPLX` uses the same fields down to bit 34 (R225). -/
structure DrainOps where
  group : Nat
  gseqEn : Bool
  gseq : Nat
  rowOff : Nat
  nrows : Nat
  dst  : Nat
  ofmt : Nat
  round : Nat
  isat : Bool
  clear : Bool
  func : Nat
  scale : Bool
  bias : Bool
  param : Nat
  red  : Nat
  cols : Bool
  sample : Bool
  r64  : Bool
  outEn : Bool

def drainOps (d : BitVec 256) : DrainOps :=
  let w := d.toNat
  { group := Dep.f d 105 103, gseqEn := bit w 102, gseq := Dep.f d 101 86, rowOff := Dep.f d 85 75,
    nrows := Dep.f d 74 64 + 1, dst := Dep.f d 63 47, ofmt := Dep.f d 46 39, round := Dep.f d 38 36, isat := bit w 35,
    clear := bit w 34, func := Dep.f d 33 29, scale := bit w 27, bias := bit w 28, param := Dep.f d 26 10,
    red := Dep.f d 9 7, cols := bit w 6, sample := bit w 5, r64 := bit w 4, outEn := bit w 3 }

/-- Does the drain read a parameter record? -/
def DrainOps.usesParam (o : DrainOps) : Bool := o.scale || o.bias || funcParams o.func

/-- Vectors that a reduction yields. -/
def redVectors (code : Nat) : Nat := if code = 0 then 0 else if code = 3 then 2 else 1

/-- Granules of one result vector (R224). -/
def redVecGran (cols r64 : Bool) (n : Nat) : Nat := ceilDiv ((if cols then n else 256) * (if r64 then 8 else 4)) 64

/-- Granules that a drain writes: values, then reduction vectors. -/
def DrainOps.valueGran (o : DrainOps) : Nat := if o.outEn then rowsGran o.ofmt o.nrows else 0
def DrainOps.redGran (o : DrainOps) : Nat := redVectors o.red * redVecGran o.cols o.r64 o.nrows

def drainForm (d : BitVec 256) : List Nat :=
  let o := drainOps d
  let dst : Ext := ⟨o.dst, o.valueGran + o.redGran⟩
  outReasons o.ofmt o.round o.isat ++
  reasonsOf [(Dep.f d 2 0 != 0, 1), (!funcKnown o.func, 0x0B), (decide (3 < o.red), 0x0B),
    (!o.outEn && o.red == 0, 0x0B), (!o.usesParam && o.param != 0, 0x0B), (dst.beyond, 0x0B),
    (o.usesParam && ((⟨o.param, 33⟩ : Ext).beyond || dst.meets ⟨o.param, 33⟩), 0x0B)]

def drainCplxForm (d : BitVec 256) : List Nat :=
  let o := drainOps d
  outReasons o.ofmt o.round o.isat ++
  reasonsOf [(Dep.f d 33 0 != 0, 1), (decide (5 < o.group), 8),
    ((⟨o.dst, 2 * rowsGran o.ofmt o.nrows⟩ : Ext).beyond, 0x0B)]

/-- A vector departure in the form in which the lanes run it: what CONVERT, ACT, EW, NORM and VSTATS name. -/
structure VecOps where
  src  : Nat
  dst  : Nat
  ifmt : Nat
  ofmt : Nat
  round : Nat
  isat : Bool
  nrows : Nat

def convertOps (d : BitVec 256) : VecOps :=
  ⟨Dep.f d 105 89, Dep.f d 88 72, Dep.f d 71 64, Dep.f d 63 56, Dep.f d 55 53, bit d.toNat 52, Dep.f d 51 36 + 1⟩

/-- Source and destination extents, their formats and their overlap (R213, R214). -/
def vecReasons (o : VecOps) : List Nat :=
  let src : Ext := ⟨o.src, rowsGran o.ifmt o.nrows⟩
  let dst : Ext := ⟨o.dst, rowsGran o.ofmt o.nrows⟩
  fmtReasons o.ifmt (inFmtOk o.ifmt) ++ outReasons o.ofmt o.round o.isat ++
  reasonsOf [(src.beyond || dst.beyond, 0x0B), (clash dst (recGran o.ofmt) src (recGran o.ifmt), 0x0B)]

def convertForm (d : BitVec 256) : List Nat := vecReasons (convertOps d) ++ reasonsOf [(Dep.f d 35 0 != 0, 1)]

/-- `ACT` (R230). -/
structure ActOps where
  v     : VecOps
  gsrc  : Nat
  param : Nat
  func  : Nat
  grad  : Bool

def actOps (d : BitVec 256) : ActOps :=
  { v := ⟨Dep.f d 105 89, Dep.f d 71 55, Dep.f d 37 30, Dep.f d 29 22, Dep.f d 21 19, bit d.toNat 18, Dep.f d 11 0 + 1⟩,
    gsrc := Dep.f d 88 72, param := Dep.f d 54 38, func := Dep.f d 17 13, grad := bit d.toNat 12 }

def actForm (d : BitVec 256) : List Nat :=
  let o := actOps d
  let g : Ext := ⟨o.gsrc, rowsGran o.v.ifmt o.v.nrows⟩
  let dst : Ext := ⟨o.v.dst, rowsGran o.v.ofmt o.v.nrows⟩
  let p : Ext := ⟨o.param, 1⟩
  vecReasons o.v ++
  reasonsOf [(!funcKnown o.func, 0x0B), (!o.grad && o.gsrc != 0, 0x0B), (!funcParams o.func && o.param != 0, 0x0B),
    (o.grad && (g.beyond || clash dst (recGran o.v.ofmt) g (recGran o.v.ifmt)), 0x0B),
    (funcParams o.func && (p.beyond || dst.meets p), 0x0B)]

/-- `EW` (R231). -/
structure EwOps where
  v     : VecOps
  src2  : Nat
  bfmt  : Nat
  op    : Nat
  bcast : Nat

def ewOps (d : BitVec 256) : EwOps :=
  { v := ⟨Dep.f d 105 89, Dep.f d 71 55, Dep.f d 54 47, Dep.f d 38 31, Dep.f d 30 28, bit d.toNat 27, Dep.f d 20 9 + 1⟩,
    src2 := Dep.f d 88 72, bfmt := Dep.f d 46 39, op := Dep.f d 26 23, bcast := Dep.f d 22 21 }

/-- Extent of operand B (R231), one row taking one whole record as R213 counts it. -/
def EwOps.bGran (o : EwOps) : Nat :=
  match o.bcast with
  | 0 => rowsGran o.bfmt o.v.nrows
  | 1 => rowsGran o.bfmt 1
  | _ => vectorGran o.bfmt o.v.nrows

def ewForm (d : BitVec 256) : List Nat :=
  let o := ewOps d
  let b : Ext := ⟨o.src2, o.bGran⟩
  let dst : Ext := ⟨o.v.dst, rowsGran o.v.ofmt o.v.nrows⟩
  vecReasons o.v ++ fmtReasons o.bfmt (inFmtOk o.bfmt) ++
  reasonsOf [(Dep.f d 8 0 != 0, 1), (decide (6 < o.op), 0x0B), (o.bcast == 3, 0x0B), (b.beyond, 0x0B),
    ((if o.bcast < 2 then clash dst (recGran o.v.ofmt) b (recGran o.bfmt) else dst.meets b), 0x0B),
    (o.op == 6 && !inFmtOk o.v.ofmt, 0x0B)]

/-- `NORM` (R232). -/
structure NormOps where
  v    : VecOps
  stat : Nat
  gb   : Nat
  perRow : Bool
  gbEn : Bool

def normOps (d : BitVec 256) : NormOps :=
  { v := ⟨Dep.f d 105 89, Dep.f d 88 72, Dep.f d 37 30, Dep.f d 29 22, Dep.f d 21 19, bit d.toNat 18, Dep.f d 15 4 + 1⟩,
    stat := Dep.f d 71 55, gb := Dep.f d 54 38, perRow := bit d.toNat 17, gbEn := bit d.toNat 16 }

/-- Granules of one statistics vector. -/
def NormOps.vecGran (o : NormOps) : Nat := if o.perRow then ceilDiv (o.v.nrows * 4) 64 else 16

def normForm (d : BitVec 256) : List Nat :=
  let o := normOps d
  let st : Ext := ⟨o.stat, 2 * o.vecGran⟩
  let gb : Ext := ⟨o.gb, 32⟩
  let dst : Ext := ⟨o.v.dst, rowsGran o.v.ofmt o.v.nrows⟩
  vecReasons o.v ++
  reasonsOf [(Dep.f d 3 0 != 0, 1), (st.beyond || dst.meets st, 0x0B), (!o.gbEn && o.gb != 0, 0x0B),
    (o.gbEn && (gb.beyond || dst.meets gb), 0x0B)]

/-- `VSTATS` (R233). -/
structure VstatsOps where
  src  : Nat
  dst  : Nat
  ifmt : Nat
  red  : Nat
  cols : Bool
  sample : Bool
  r64  : Bool
  nrows : Nat

def vstatsOps (d : BitVec 256) : VstatsOps :=
  ⟨Dep.f d 105 89, Dep.f d 88 72, Dep.f d 71 64, Dep.f d 63 61, bit d.toNat 60, bit d.toNat 59, bit d.toNat 58,
   Dep.f d 57 46 + 1⟩

def vstatsForm (d : BitVec 256) : List Nat :=
  let o := vstatsOps d
  let src : Ext := ⟨o.src, rowsGran o.ifmt o.nrows⟩
  let dst : Ext := ⟨o.dst, redVectors o.red * redVecGran o.cols o.r64 o.nrows⟩
  fmtReasons o.ifmt (inFmtOk o.ifmt) ++
  reasonsOf [(Dep.f d 45 0 != 0, 1), (o.red == 0 || decide (5 < o.red), 0x0B), (src.beyond || dst.beyond, 0x0B),
    (dst.meets src, 0x0B)]

end Sys2Proof.Machine
end

