-- ==== Sys2Proof/Machine/Flags.lean ====
section
/-! DEFINITION. Conditions that several meanings read: the status words of BAR0, the state of a section, and when a
departure's waits, group and unit allow it to issue (R155). -/

namespace Sys2Proof.Machine

open Sys2Proof

/-- Code of `STATE` (R426). -/
def ModState.code : ModState → Nat
  | .resetting => 0
  | .training => 1
  | .ready => 2
  | .stopped => 3
  | .noSpare => 4

/-- Code of `TIME_STATE` (R140). -/
def TimeState.code : TimeState → Nat
  | .free => 0
  | .acquiring => 1
  | .locked => 2
  | .holdover => 3
  | .lost => 4

/-- `MODULE_STATE` (R426). -/
def State.stateWord (s : State) : Nat :=
  place (if s.evt.faultLost then 1 else 0) 31 + place (if s.power.tight then 1 else 0) 16 + place s.time.state.code 8 +
  s.modState.code

/-- `Q_STATUS` (R426, R427): `BUSY` while a fetched command has no reply. -/
def Queue.status (b : Queue) : Nat :=
  place (if b.cmds = [] then 0 else 1) 2 + place (if b.error then 1 else 0) 1 + (if b.enable then 1 else 0)

/-- Is the part an A1 stepping (R1)? -/
def State.isA1 (s : State) : Bool := s.part == .m2a

/-- `LAT_PROFILE` of the part's stepping (R146). -/
def State.profile (s : State) : Nat := if s.isA1 then 1 else 2

/-- Do units run at A1 latency: an A1 part, or a B0 part that pads for an A1 image (R175, R176)? -/
def State.slowUnits (s : State) (img : Image) : Bool := s.isA1 || (s.policies.padded && img.latProfile == 1)

/-- Drain-path latency D (R175). -/
def State.drainLatency (s : State) (img : Image) : Nat := if s.slowUnits img then 26 else 18

/-- The part is an A1 that runs a B0 image: every use of a unit of R175 costs the difference, charged as `STEPPING` (R176). -/
def State.stepping (s : State) : Bool :=
  s.isA1 && (match s.workSlot with
    | some c => (match (s.slot c).image with | some img => img.latProfile == 2 | none => false)
    | none => false)

/-- Where the head departure of a running line stands. -/
structure Head where
  c     : Nat
  img   : Image
  sect  : Nat
  index : Nat
  word  : BitVec 256
  /-- P: section epoch and `NOT_BEFORE` (R166). -/
  planned : Nat
  /-- The physical Station. -/
  p     : Nat
deriving DecidableEq, Repr

/-- What a running line holds out for issue. -/
inductive HeadState where
  /-- No section runs here, it is cancelled, or the line has nothing left. -/
  | none
  /-- The list has run out without a `SECTION_END` (R148). -/
  | runsOut (c sect index : Nat)
  | head (h : Head)
deriving DecidableEq, Repr

/-- The head of running line j of Station k. -/
def State.headOf (s : State) (k j : Nat) : HeadState :=
  match s.runSlot with
  | .none => .none
  | .some c =>
    let x := s.slot c
    match x.state, x.image, x.run, s.phys k with
    | .running, some img, some run, some p =>
      let l := (s.station k).line j
      let count := img.lineCount run.sect k j
      if run.cancelled.isSome ∨ run.waiting ∨ l.ended ∨ count = 0 then .none
      else if count ≤ l.next then .runsOut c run.sect l.next
      else
        let w := img.departure run.sect k j l.next
        .head { c := c, img := img, sect := run.sect, index := l.next, word := w,
                planned := run.sectEpoch + Dep.notBefore w, p := p }
    | _, _, _, _ => .none

/-- Total count that a departure's waits take of one Token (R155). -/
def waitSum (ws : List Wait) (t : Nat) : Nat := ((ws.filter (fun w => w.tok == t)).map (fun w => w.count)).sum

/-- Every Token wait is met (R155). -/
def waitsMet (st : Station) (ws : List Wait) : Bool := ws.all (fun w => decide (waitSum ws w.tok ≤ st.token w.tok))

/-- A wait on a Token that is bound to another running line (R158). -/
def boundElsewhere (st : Station) (j : Nat) (ws : List Wait) : Bool :=
  ws.any (fun w => match (st.bound.find? (fun b => b.1 == w.tok)) with | some b => b.2 != j | none => false)

/-- `GSEQ` has come up, or does not apply (R117); a departure without one fails its state check instead. -/
def gseqUp (g : Group) (en : Bool) (seq : Nat) : Bool := !g.isOpen || !g.orderFixed || !en || g.nextSeq == seq

/-- Groups whose `GSEQ` a departure waits for. -/
def gseqGroups (d : BitVec 256) : List (Nat × Bool × Nat) :=
  let op := Dep.opcode d
  if op = opMma then [((mmaOps d).group, (mmaOps d).gseqEn, (mmaOps d).gseq)]
  else if op = opCplx then (cplxGroups (cplxOps d)).map (fun g => (g, (cplxOps d).gseqEn, (cplxOps d).gseq))
  else if op = opClose then [((closeOps d).slot, (closeOps d).gseqEn, (closeOps d).gseq)]
  else if op = opDrain then [((drainOps d).group, (drainOps d).gseqEn, (drainOps d).gseq)]
  else if op = opDrainCplx then
    [0, 1, 2].map (fun i => ((drainOps d).group + i, (drainOps d).gseqEn, (drainOps d).gseq))
  else []

/-- Is a `GSEQ` of the departure still to come (R117)? -/
def gseqWaits (st : Station) (d : BitVec 256) : Bool := gseqGroups d |>.any (fun q => !gseqUp (st.group q.1) q.2.1 q.2.2)

/-- Is the head under a Token or `GSEQ` wait that is unmet (R180)? -/
def Station.headWaits (st : Station) (h : Head) : Bool := !waitsMet st (Dep.waits h.word) || gseqWaits st h.word

/-- The running lines of Station k with the instant noted at those whose head's last wait has come to be met since the Station was
as `b` (R405). -/
def State.metLines (s : State) (b : Station) (k : Nat) : Table RunLine :=
  [0, 1, 2, 3].foldl (fun t j =>
    match s.headOf k j with
    | .head h =>
      if b.headWaits h && !(s.station k).headWaits h then tset t j { tget RunLine.init t j with metLt := some s.time.lt } else t
    | _ => t) (s.station k).lines

/-- The watchdog's notes of Station k follow a change of its Tokens or groups (R405). -/
def State.noteMet (s : State) (b : Station) (k : Nat) : State := s.modStation k (fun st => { st with lines := s.metLines b k })

/-- Cycle of a drain-path departure's read of row `i` (R218). -/
def DrainRun.readSc (r : DrainRun) (i : Nat) : Nat := r.start + r.once + r.yields + i * r.pace

/-- Rows that it has read by cycle `sc`. -/
def DrainRun.rowsRead (r : DrainRun) (sc : Nat) : Nat :=
  if sc < r.readSc 0 then 0 else min r.rows ((sc - r.readSc 0) / max 1 r.pace + 1)

/-- The group addressed by a drain that waits on its interlock, or has not read its last row at cycle `sc`: it holds multiplies back
(R131). -/
def drainHolds (st : Station) (sc g : Nat) : Bool :=
  st.waits.any (fun w => !w.isClose && w.groups.contains g) ||
  st.runs.any (fun r => r.groups.contains g && decide (sc ≤ r.readSc (r.rows - 1)))

/-- Does a departure want the array-feed port in cycle `sc` (R217)? -/
def DrainRun.wants (r : DrainRun) (sc : Nat) : Bool :=
  let x := sc - (r.start + r.yields)
  decide (r.start + r.yields ≤ sc) &&
  (decide (x < r.once) ||
    (decide (r.once ≤ x ∧ (x - r.once) / max 1 r.pace < r.rows ∧ (x - r.once) % max 1 r.pace < r.reads)))

/-- Does the feeder read through the port in cycle `sc` (R86)? -/
def feederAt (feeds : List (Nat × Nat)) (sc : Nat) : Bool := feeds.any (fun f => decide (f.1 ≤ sc ∧ sc < f.2))

/-- Every cycle of a list in which the feeder has the port and the departure wants it makes its read wait one cycle (R217). -/
def DrainRun.yieldIn (r : DrainRun) (scs : List Nat) : DrainRun :=
  scs.foldl (fun r sc => if r.wants sc then { r with yields := r.yields + 1 } else r) r

/-- A departure of the drain path against the feeder's spans that are known when it starts. -/
def DrainRun.yieldTo (r : DrainRun) (feeds : List (Nat × Nat)) : DrainRun :=
  let last := (feeds.map (fun f => f.2)).foldl max r.start
  r.yieldIn (((List.range (last - r.start)).map (fun i => r.start + i)).filter (feederAt feeds))

/-- Has the R71 wait on the previous switch passed? -/
def switchPassed (st : Station) (sc : Nat) : Bool :=
  match st.switchSc with
  | some t => decide (t + 512 ≤ sc)
  | none => true

/-- A complex multiply that has not completed owns the shadow plane (R187). -/
def cplxOwns (st : Station) : Bool :=
  st.progs.any (fun p => Dep.opcode p.word == opCplx && p.doneSc.isNone)

/-- A send on a line that has not launched its last flit by cycle `sc`: each line takes one at a time (R155). -/
def sendBusy (st : Station) (sc l : Nat) : Bool :=
  st.progs.any (fun p => Dep.opcode p.word == opSend && (sendOps p.word).line == l &&
    (match p.doneSc with | some d => decide (sc < d) | none => true))

/-- The tag of the shadow plane, staged or being staged. -/
def shadowTag : Shadow → Option Nat
  | .empty => none
  | .staging t _ _ _ _ => some t
  | .full pl _ => some pl.tag

/-- Does the tag stand in the shadow plane? -/
def tagReady (st : Station) (tag : Nat) : Bool := tag == 0 || shadowTag st.shadow == some tag

/-- The Turntable of a logical Station: the one of its Sector (R239). -/
def turnOf (k : Nat) : Nat := k / 16

/-- May the drain path accept a departure (R216)? -/
def drainPathFree (st : Station) (sc : Nat) : Bool :=
  !(st.waits.any (fun w => !w.isClose)) && decide (st.drainFree ≤ sc)

/-- Does a Siding position expect a Turntable and stand unclaimed (R300)? -/
def Pos.awaitsTurn (p : Pos) : Bool :=
  match p.source with
  | .expect _ turned => !turned && p.state == .reserved
  | .waybill _ _ => false

/-- Departures that the drain path carries out. -/
def isVector (op : Nat) : Bool := decide (opConvert ≤ op ∧ op ≤ opVstats)

/-- The unit and group conditions of R155 for the head of a line: `sc` is the Station's cycle. -/
def unitAccepts (s : State) (k : Nat) (h : Head) (sc : Nat) : Bool :=
  let st := s.station k
  let d := h.word
  let op := Dep.opcode d
  if op = opStage then st.shadow == .empty && switchPassed st sc && !cplxOwns st
  else if op = opMma then
    let o := mmaOps d
    st.mulq == [] && tagReady st o.tag && !(o.tag != 0 && cplxOwns st) && gseqUp (st.group o.group) o.gseqEn o.gseq &&
    !drainHolds st sc o.group
  else if op = opCplx then
    let o := cplxOps d
    st.mulq == [] && st.shadow == .empty && !cplxOwns st &&
    (cplxGroups o).all (fun g => gseqUp (st.group g) o.gseqEn o.gseq && !drainHolds st sc g)
  else if op = opSend then !sendBusy st sc (sendOps d).line
  else if op = opBallast then st.mulq == []
  else if op = opOpen then
    let o := openOps d
    !(st.group o.slot).closing && !(o.cascade && (st.group o.partner).closing)
  else if op = opClose then
    let o := closeOps d
    gseqUp (st.group o.slot) o.gseqEn o.gseq
  else if op = opTurn then
    let o := turnOps d
    decide ((tget [] s.turns (turnOf k)).length < 8) &&
    (o.dest != 0 || ((s.station o.dstStation).siding o.siding).slots.any Pos.awaitsTurn)
  else if op = opDrain then
    let o := drainOps d
    drainPathFree st sc && gseqUp (st.group o.group) o.gseqEn o.gseq
  else if op = opDrainCplx then
    let o := drainOps d
    drainPathFree st sc &&
    [o.group, o.group + 1, o.group + 2].all (fun g => gseqUp (st.group g) o.gseqEn o.gseq)
  else if isVector op then drainPathFree st sc
  else if op = opManifest then decide (st.pilot.length < 8)
  else if op = opSidingSet then (st.siding (sidingSetOps d).siding).slots.all (fun p => p.state == .gone)
  else true

/-- Every condition of R155 for the head of running line j of Station k, its planned time by the Station's own copy of line time (R145),
and one issue in a cycle (R163). -/
def ready (s : State) (k : Nat) (h : Head) (sc : Nat) : Bool :=
  let st := s.station k
  decide (16 * h.planned ≤ s.copy h.p) && waitsMet st (Dep.waits h.word) && unitAccepts s k h sc

/-- The head of a line, when it is ready. -/
def readyHead (s : State) (k sc j : Nat) : Option Head :=
  match s.headOf k j with
  | .head h => if ready s k h sc then some h else none
  | _ => none

/-- The lines whose head is ready, in ascending order. -/
def readyLines (s : State) (k sc : Nat) : List Nat := (List.range 4).filter (fun j => (readyHead s k sc j).isSome)

/-- Tokens of the collective and Update Engine (R299), whose waits R417 suspends. -/
def fabricToken (t : Nat) : Bool := decide (0xE0 ≤ t ∧ t ≤ 0xF7)

/-- Why a head waits, by the Token that it lacks (R158, R167). -/
def tokenCause (t : Nat) : Nat :=
  if t < 0xC0 then 0 else if fabricToken t then 9 else 1

/-- The Tokens that a head lacks, by the fields of its waits (R155). -/
def Station.lacks (st : Station) (h : Head) : List Wait :=
  let ws := Dep.waits h.word
  ws.filter (fun w => decide (st.token w.tok < waitSum ws w.tok))

/-- The cause under which a head is delayed from its planned time on (R167): a Token that it lacks, the lowest code where it lacks
several; its group's `GSEQ` or its unit; or, where it is ready, the issue of another line. -/
def State.delayCause (s : State) (k : Nat) (h : Head) : Nat :=
  match ((s.station k).lacks h).map (fun w => tokenCause w.tok) with
  | c :: cs => cs.foldl min c
  | [] => if unitAccepts s k h (s.cycle h.p) then 2 else 3

/-- Has a ready line been passed over for 256 cycles (R164)? -/
def passedLong (st : Station) (sc j : Nat) : Bool :=
  match (st.line j).passedFrom with
  | some t => decide (t + 256 ≤ sc)
  | none => false

/-- `ENERGY` of a line's head. -/
def headEnergy (s : State) (k j : Nat) : Nat :=
  match s.headOf k j with
  | .head h => Dep.energy h.word
  | _ => 15

/-- The line of a list with the lowest declared energy, ties to the lower number. -/
def leastEnergy (s : State) (k : Nat) : List Nat → Option Nat
  | [] => none
  | j :: t =>
    match leastEnergy s k t with
    | none => some j
    | some i => if headEnergy s k i < headEnergy s k j then some i else some j

/-- The Dispatcher's choice among the ready lines (R163, R164). -/
def dispatch (s : State) (k sc : Nat) : Option Nat :=
  let l := readyLines s k sc
  if s.policies.budget ∧ s.power.tight then
    match l.find? (passedLong (s.station k) sc) with
    | some j => some j
    | none => leastEnergy s k l
  else l.head?

end Sys2Proof.Machine
end

