-- ==== Sys2Proof/Machine/Issue.lean ====
section
/-! DEFINITION. The issue of a departure (R153, R155, R156, R163), which every departure shares, and its signals (R157 to
R159). A meaning gives its own form check, state check and effect. -/

namespace Sys2Proof.Machine

open Sys2Proof

/-- What a departure's own rules say of it, for Station k and running line j. -/
structure DepRule where
  op     : Nat
  /-- Reasons of the form check, beyond those that every departure shares. -/
  form   : Nat → Head → List Nat
  /-- Reasons of the state check. -/
  check  : State → Nat → Nat → Head → List Nat
  /-- The effect at issue; the departure is already among those in progress. -/
  effect : State → Nat → Head → Prog → State

/-- The Token counts of a departure's waits are consumed (R156). -/
def consume (toks : Table Nat) (ws : List Wait) : Table Nat :=
  ws.foldl (fun t w => tset t w.tok (tget 0 t w.tok - w.count)) toks

/-- The first wait on a Token in a section binds it to its line (R158). -/
def bindTokens (bound : Table Nat) (j : Nat) (ws : List Wait) : Table Nat :=
  ws.foldl (fun t w => if t.any (fun b => b.1 == w.tok) then t else tset t w.tok j) bound

/-- The lines after line j issues at cycle `sc`: it moves to its next departure, and the counts of R164 run for the ready
lines passed over while power is tight. -/
def linesAfter (st : Station) (j sc lt : Nat) (ends tight : Bool) (readyOnes : List Nat) (delays : List Delay) : Table RunLine :=
  let lines := tset st.lines j { next := (st.line j).next + 1, headLt := lt, ended := ends, passedFrom := none, metLt := none,
                                 queueSc := none, delays := delays }
  [0, 1, 2, 3].foldl (fun t i =>
    let l := tget RunLine.init t i
    if i = j then t
    else if tight && readyOnes.contains i then tset t i { l with passedFrom := some (l.passedFrom.getD sc) }
    else if l.passedFrom.isSome then tset t i { l with passedFrom := none }
    else t) lines

/-- The part of [a, e), in 1/16 lt, that falls in a delay, by cause: before its head's planned time a delay is `DISPATCH` (R166, R167). -/
def Delay.part (d : Delay) (stop a e : Nat) : List (Nat × Nat) :=
  let lo := max a d.start
  let hi := min e stop
  let p := 16 * d.planned
  [(2, min hi p - lo), (d.cause, hi - max lo p)]

/-- The parts of [a, e) by cause; the last delay goes on to e. -/
def delayParts (a e : Nat) : List Delay → List (Nat × Nat)
  | [] => []
  | [d] => d.part e a e
  | d :: x :: t => d.part x.start a e ++ delayParts a e (x :: t)

/-- Line time at which context c's running section began. -/
def State.sectBegan (s : State) (c : Nat) : Nat := match (s.slot c).run with | some r => r.began | none => 0

/-- The delays of the line of head h: one that nothing has been noted of has waited for its planned time, or been ready, since the
section began. -/
def State.lineDelays (s : State) (k j : Nat) (h : Head) : List Delay :=
  let l := ((s.station k).line j).delays
  if l = [] then [{ start := 16 * s.sectBegan h.c, planned := h.planned, cause := 2 }] else l

/-- The issue delay W of a departure with planned time P in lt, issued at `e` (R166): what lies before the line's first delay of the
section is charged as `BOUNDARY` (R167; DESIGN CHOICE, notes/assumptions/11.md). -/
def delaySplit (delays : List Delay) (planned e : Nat) : List (Nat × Nat) :=
  let a := 16 * planned
  let first := match delays with | d :: _ => d.start | [] => e
  ((0xA, min e first - a) :: delayParts a e delays).filter (fun q => q.2 != 0)

/-- The departure in progress that an issue starts. -/
def newProg (s : State) (k j : Nat) (h : Head) (sc : Nat) : Prog :=
  { id := { line := j, index := h.index, uid := (s.station k).issued }, sect := h.sect, word := h.word,
    planned := h.planned, issueLt := s.time.lt, issueSc := sc, fired := false, next := 0, pass := 0, written := 0,
    doneSc := none, claim := 0, issueAt := s.copy h.p, waits := delaySplit (s.lineDelays k j h) h.planned (s.copy h.p),
    reachLt := s.time.lt, stalls := [], due := sc, redone := false }

/-- The lines of Station k with the delay of each head noted where it changes: `first` is the instant, in 1/16 lt, from which the
present cause holds. A line passed over under R164 whose head is no longer ready, or while power is not tight, starts its count again. -/
def State.headLines (s : State) (k first : Nat) (all : Bool) : Table RunLine :=
  [0, 1, 2, 3].foldl (fun t j =>
    match s.headOf k j with
    | .head h =>
      let l := tget RunLine.init t j
      let d : Delay := { start := first, planned := h.planned, cause := s.delayCause k h }
      let same := match l.delays.getLast? with | some x => x.planned == d.planned && x.cause == d.cause | none => false
      let stays := s.power.tight && ready s k h (s.cycle h.p)
      if same || (!all && l.delays != []) then (if l.passedFrom.isSome && !stays then tset t j { l with passedFrom := none } else t)
      else tset t j { l with delays := l.delays ++ [d], passedFrom := if stays then l.passedFrom else none }
    | _ => t) (s.station k).lines

/-- The heads of Station k are looked at after a change of what they wait for; `b` is the Station before it, and a section's first look
charges what has passed to what held before (R164, R166, R405). -/
def State.noteHeads (s : State) (b : Station) (k : Nat) : State :=
  match s.phys k, s.runSlot with
  | some p, some c =>
    let s := s.modStation k (fun st =>
      { st with lines := (s.setStation k { b with lines := st.lines }).headLines k (16 * s.sectBegan c) false })
    s.modStation k (fun st => { st with lines := s.headLines k (s.copy p) true })
  | _, _ => s

/-- The notes that the watchdog and the lateness figures keep of Station k follow a change (R166, R405). -/
def State.note (s : State) (b : Station) (k : Nat) : State := (s.noteMet b k).noteHeads b k

/-- What every issue does (R155, R156, R158, R163, R182): counts consumed, Tokens bound, the line moves on, the departure is in
progress. -/
def issueCommon (s : State) (k j : Nat) (h : Head) (sc : Nat) : State :=
  let st := s.station k
  let ws := Dep.waits h.word
  let others := (readyLines s k sc).filter (fun i => i != j)
  let st' := { st with
    tokens := consume st.tokens ws, bound := bindTokens st.bound j ws,
    lines := linesAfter st j sc s.time.lt (Dep.opcode h.word == opSectionEnd) s.power.tight others (s.lineDelays k j h),
    issued := st.issued + 1, lastIssue := some sc, progs := st.progs ++ [newProg s k j h sc] }
  let s := (s.setStation k st').bump .ttIssued h.p 1
  let s := s.bump .ttDispatchPassed h.p (if others = [] then 0 else 1)
  { s with power := { s.power with energyWin := s.power.energyWin + 2 ^ Dep.energy h.word } }

/-- Reads of the Station store that a command of a departure makes find uncorrected errors: each granule is poisoned in place and
reported, and the step is bad (R307, R308). -/
def State.storeErrors (s : State) (k j sect index : Nat) (bad : List Nat) : State :=
  (bad.filter (fun g => decide (g < 98304))).foldl (fun s g =>
    (s.modStation k (fun st => { st with storePoison := numInsert st.storePoison g })).flowingError
      { whereDep s k j sect index with loc := place 4 60 + place g 22 }) s

/-- Departures that read the Station store at their issue. -/
def readsStore (op : Nat) : Bool :=
  isVector op || op == opDrain || op == opStage || op == opCplx || op == opSend || op == opTurn || op == opPoints

/-- The form check of a head's own opcode, whatever command asks for its issue (R153, R179). -/
def headForm (k : Nat) (h : Head) : List Nat :=
  let op := Dep.opcode h.word
  if op = opToken ∨ op = opSectionEnd then plainForm h.word
  else if op = opPoints then pointsForm h.img h.sect k h.word
  else if op = opBoard then boardForm h.word
  else if op = opStage then stageForm h.word
  else if op = opMma then mmaForm h.word
  else if op = opCplx then cplxForm h.word
  else if op = opSend then sendForm h.word
  else if op = opTake then takeForm h.word
  else if op = opBallast then ballastForm h.word
  else if op = opOpen then openForm h.word
  else if op = opClose then closeForm h.word
  else if op = opTurn then turnForm h.img k h.word
  else if op = opDrain then drainForm h.word
  else if op = opDrainCplx then drainCplxForm h.word
  else if op = opConvert then convertForm h.word
  else if op = opAct then actForm h.word
  else if op = opEw then ewForm h.word
  else if op = opNorm then normForm h.word
  else if op = opVstats then vstatsForm h.word
  else if op = opManifest then manifestForm h.img h.sect h.word
  else if op = opSidingSet then sidingSetForm h.word
  else if op = opExpect then expectForm h.word
  else if op = opColl then collForm h.img h.sect k h.word
  else if op = opRightAway then rightAwayForm k h.word
  else []

/-- The issue of the head of line j of Station k, as one command asks for it: the form check, the conditions of R155, the
state check, and the effect. A departure whose conditions do not hold leaves the machine as it is
(notes/assumptions/1.md). -/
def issue (r : DepRule) (k j : Nat) (t : IssueTick) (s : State) : State :=
  let s := s.advance t.lt
  match s.headOf k j with
  | .none => s
  | .runsOut c sect index => s.malformed c k j sect index 0x0C
  | .head h =>
    let s := s.advanceSc h.p t.sc
    let sc := s.cycle h.p
    let own := Dep.opcode h.word == r.op
    match leastOf (commonForm h.word ++ (if own then r.form k h else headForm k h)) with
    | some reason => s.malformed h.c k j h.sect h.index reason
    | none =>
      if !own || (s.station k).lastIssue == some sc || dispatch s k sc != some j then s
      else
        let st := s.station k
        match leastOf (r.check s k j h ++ reasonsOf [(boundElsewhere st j (Dep.waits h.word), 4)]) with
        | some reason => s.malformed h.c k j h.sect h.index reason
        | none =>
          let bad := if readsStore r.op then t.bad else []
          (r.effect ((issueCommon s k j h sc).storeErrors k j h.sect h.index bad) k h (newProg s k j h sc)).note st k

/-- A departure in progress. -/
def Station.prog (st : Station) (id : DepId) : Option Prog := st.progs.find? (fun p => p.id == id)

/-- A departure in progress is changed. -/
def Station.modProg (st : Station) (id : DepId) (f : Prog → Prog) : Station :=
  { st with progs := st.progs.map (fun p => if p.id == id then f p else p) }

def State.modProg (s : State) (k : Nat) (id : DepId) (f : Prog → Prog) : State := s.modStation k (fun st => st.modProg id f)

/-- The departure's work is done at cycle `sc`. -/
def State.finish (s : State) (k : Nat) (id : DepId) (sc : Nat) : State :=
  s.modProg k id (fun p => { p with doneSc := some sc })

/-- Cycles of stall are charged to a departure (R167). -/
def State.stall (s : State) (k : Nat) (id : DepId) (cause n : Nat) : State :=
  if n = 0 then s else s.modProg k id (fun p => { p with stalls := p.stalls ++ [(cause, n)] })

/-- The feeder reads through the array-feed port in the `n` cycles from `a` on: vector reads that want it there wait, each cycle
counted, and the departure's later reads, and its completion, come later by as much (R217, R218). -/
def State.feedPort (s : State) (k p a n : Nat) : State :=
  let st := s.station k
  let more := ((List.range n).map (fun i => a + i)).filter (fun sc => !feederAt st.feeds sc)
  let feeds := st.feeds.filter (fun f => decide (s.cycle p < f.2)) ++ (if n = 0 then [] else [(a, a + n)])
  match st.runs.getLast? with
  | none => s.setStation k { st with feeds := feeds }
  | some r =>
    let r' := r.yieldIn more
    let y := r'.yields - r.yields
    let st := { st with feeds := feeds, runs := st.runs.dropLast ++ [r'],
                        drainFree := st.drainFree + y, drainLast := st.drainLast + y }
    let st := st.modProg r.dep (fun x => { x with doneSc := x.doneSc.map (fun d => d + y) })
    (((s.setStation k st).stall k r.dep 3 y).bump .vecFeedYield p y).bump .drainPathBusy p y

/-- A departure's signals fire: they begin their transit (R157, R161). -/
def State.fireSignals (s : State) (k : Nat) (p : Prog) : State :=
  (Dep.sigs p.word).foldl (fun s g =>
    s.signal g.station { token := g.tok, count := g.count, bySt := k, byLine := p.id.line, byIx := p.id.index,
                         bySect := p.sect, wb := none, sc := if g.station = k then some (p.doneSc.getD p.issueSc) else none }) s

/-- A departure that completes at its issue: its signals fire (R154, R157). -/
def State.completeNow (s : State) (k : Nat) (p : Prog) : State :=
  (s.modProg k p.id (fun x => { x with doneSc := some p.issueSc, fired := true })).fireSignals k p

/-- `MALFORMED` of a departure in progress; a context that has stopped stops no more. -/
def State.malformedProg (s : State) (k : Nat) (p : Prog) (reason : Nat) : State :=
  match s.runSlot with
  | some c => s.malformed c k p.id.line p.sect p.id.index reason
  | none => s

/-- A read in the Station store. -/
def storeRead (st : Station) (a n : Nat) : List Byte := memReadBytes st.store a n

/-- Poisoned granules of [a, a + n). -/
def storePoisoned (st : Station) (a n : Nat) : List Nat := (granulesOf a n).filter (fun g => st.storePoison.contains g)

/-- A write in the Station store; `bad` tells which granules the data poisons (R485). -/
def Station.storeWrite (st : Station) (a : Nat) (bs : List Byte) (bad : Nat → Bool) : Station :=
  { st with store := memWriteBytes st.store a bs, storePoison := poisonWrite st.storePoison a bs.length bad }

end Sys2Proof.Machine
end

