-- ==== Sys2Proof/Machine/Sidings.lean ====
section
/-! DEFINITION. Sidings: their positions, books, ring and release (R286 to R290), shared by the departures that take from a
Siding and the engines that fill it. -/

namespace Sys2Proof.Machine

open Sys2Proof

/-- Positions in one state (R289). -/
def Siding.countIn (d : Siding) (x : PosState) : Nat := (d.slots.filter (fun p => p.state == x)).length

/-- Free slots: 64 less those that hold something. -/
def Siding.freeSlots (d : Siding) : Nat := 64 - d.countIn .inFlight - d.countIn .filled - d.countIn .returning

/-- The position with a number. -/
def Siding.pos (d : Siding) (n : Nat) : Option Pos := d.slots.find? (fun p => p.num == n)

/-- A position is changed. -/
def Siding.modPos (d : Siding) (n : Nat) (f : Pos → Pos) : Siding :=
  { d with slots := d.slots.map (fun p => if p.num == n then f p else p) }

/-- The granules of a position within the ring. -/
def ringGranules (size : Nat) (p : Pos) : List Nat := (List.range p.len).map (fun g => (p.ringAt + g) % size)

/-- Does a position hold ring granules? -/
def Pos.holdsRing (p : Pos) : Bool := p.state != .reserved && p.state != .gone

/-- Has the ring `len` granules free from the fill point onward (R290)? -/
def Siding.ringFree (d : Siding) (len : Nat) : Bool :=
  decide (len ≤ d.size) &&
  d.slots.all (fun p => !p.holdsRing || p.len == 0 ||
    decide (len ≤ (p.ringAt + d.size - d.fillAt) % d.size ∧ (p.ringAt + d.size - d.fillAt) % d.size + p.len ≤ d.size))

/-- The store chunks (byte address, bytes) of a ring position: two where it wraps. -/
def Siding.chunks (d : Siding) (p : Pos) : List (Nat × Nat) :=
  let first := min p.len (d.size - p.ringAt)
  [(64 * (d.base + p.ringAt), 64 * first), (64 * d.base, 64 * (p.len - first))]

/-- The bytes of a position's record (R290). -/
def Siding.bytes (d : Siding) (st : Station) (p : Pos) : List Byte :=
  (d.chunks p).flatMap (fun c => storeRead st c.1 c.2)

/-- Its poisoned granules, counted from the record's start. -/
def Siding.poisoned (d : Siding) (st : Station) (p : Pos) : List Nat :=
  (List.range p.len).filter (fun g => st.storePoison.contains (d.base + (p.ringAt + g) % d.size))

/-- One reserved position more (R288). -/
def Siding.reserve (d : Siding) (src : PosSource) (object row col desc sect len : Nat) (ahead : Bool) : Siding :=
  { d with
    slots := d.slots ++ [{ num := d.next, state := .reserved, source := src, object := object, row := row, col := col,
                           desc := desc, sect := sect, poison := false, ringAt := 0, len := len, done := false, cut := false, ahead := ahead,
                           reads := [], firstLt := 0, beganSc := 0 }]
    next := d.next + 1 }

/-- The Siding claim of a take in progress: Siding and first position. -/
def Prog.sidingClaim (p : Prog) : Option (Nat × Nat) :=
  let op := Dep.opcode p.word
  if op = opStage then (if (stageOps p.word).kind = 1 then some ((stageOps p.word).src % 16, p.claim) else none)
  else if op = opMma then (if (mmaOps p.word).kind = 1 then some ((mmaOps p.word).src % 16, p.claim) else none)
  else if op = opSend then (if (sendOps p.word).siding then some ((sendOps p.word).src % 16, p.claim) else none)
  else none

/-- The `STAGE` or `LOOP_SEND` that has claimed a position and waits for it. -/
def Station.takeAt (st : Station) (sid n : Nat) : Option Prog :=
  st.progs.find? (fun p => p.doneSc.isNone && Dep.opcode p.word != opMma && p.sidingClaim == some (sid, n))

/-- The oldest take that has come to a position of the Siding which nothing has reserved (R303). -/
def Station.hungTake (st : Station) (sid : Nat) : Option Prog :=
  st.progs.find? (fun p => p.doneSc.isNone && (match p.sidingClaim with
    | some (i, n) =>
      i == sid && (if Dep.opcode p.word = opMma then decide (p.next < (mmaOps p.word).nrows ∧ (st.siding sid).next ≤ n + p.next / 256)
        else decide ((st.siding sid).next ≤ n))
    | none => false))

/-- A slot is released: its ring granules and its slot are free (R289, R290). One whose fill is not done yet, for want of an
earlier fill, is remembered until it is (R299). -/
def Station.releasePos (st : Station) (sid n : Nat) : Station :=
  let d := st.siding sid
  st.setSiding sid { d with slots := (d.slots.filter (fun p => p.num != n || !p.done)).map (fun p =>
    if p.num = n then { p with state := .gone } else p) }

/-- Does the Siding hold no position (R287)? -/
def Siding.empty (d : Siding) : Bool := d.slots.all (fun p => p.state == .gone)

/-- May the position numbered n start to fill (R290)? -/
def Siding.mayStart (d : Siding) (n len : Nat) : Bool :=
  d.slots.all (fun p => decide (n ≤ p.num) || p.state != .reserved) && decide (0 < d.freeSlots) && d.ringFree len

/-- A position's fill starts at the fill point (R290). -/
def Siding.start (d : Siding) (n len : Nat) (f : Pos → Pos) : Siding :=
  { d.modPos n (fun p => { f p with state := .inFlight, ringAt := d.fillAt, len := len }) with
    fillAt := (d.fillAt + len) % d.size }

/-- The record's bytes are written into the ring with their poison (R290, R485). -/
def Station.ringWrite (st : Station) (d : Siding) (p : Pos) (data : List Byte) (poison : List Nat) : Station :=
  let first := 64 * min p.len (d.size - p.ringAt)
  let st := st.storeWrite (64 * (d.base + p.ringAt)) (data.take first) (fun g => poison.contains (g - (d.base + p.ringAt)))
  if data.length ≤ first then st
  else st.storeWrite (64 * d.base) (data.drop first) (fun g => poison.contains (g - d.base + first / 64))

/-! ## Fills that wait -/

/-- A Waybill (R295). -/
structure Waybill where
  offset : Nat
  trow   : Nat
  tcol   : Nat
  object : Nat
  store  : Nat
  len    : Nat
  fmt    : Nat
  sig    : Bool
  kind   : Nat
  reserved : Bool
deriving DecidableEq, Repr

def Waybill.ofNat (w : Nat) : Waybill :=
  { offset := field w 447 384, trow := field w 383 360, tcol := field w 359 336, object := field w 335 315,
    store := field w 314 298, len := field w 297 281, fmt := field w 280 273, sig := bit w 272, kind := field w 271 270,
    reserved := field w 511 448 != 0 || field w 269 0 != 0 }

/-- Granules of the record that a fill writes into the ring, or that a write-back takes from the store. -/
def Waybill.gran (w : Waybill) : Nat := if w.kind = 3 then w.len else recGran w.fmt

/-- The section that follows the running one, where it is determined (R149, R172, R298). -/
def State.successor (s : State) (c : Nat) : Option Nat :=
  let x := s.slot c
  match x.image, x.run with
  | some img, some run =>
    match run.cancelled with
    | some n => some n
    | none =>
      match run.follow with
      | n :: _ => some n
      | [] =>
        let r := img.sect run.sect
        if r.hasPoints then
          match run.points with
          | some p => (match p.selected with
            | some (n :: _) => some n
            | some [] => some p.join
            | none => none)
          | none => none
        else some r.next
  | _, _ => none

/-- The section that the running section's `PREDICT` names, before the selection (R171, R173). -/
def State.predicted (s : State) (c : Nat) : Option Nat :=
  match (s.slot c).run, (s.slot c).image with
  | some run, some img => if (s.successor c).isNone then img.predictOf run.sect else none
  | _, _ => none

/-- May the Waybills of a Manifest start (R298)? -/
def State.sectionOpen (s : State) (c : Nat) (m : Manifest) : Bool :=
  match (s.slot c).run with
  | some run => m.forSect == run.sect || s.successor c == some m.forSect || s.predicted c == some m.forSect
  | none => false

/-- A Manifest of the Pilot queue is changed; one whose Waybills are all done leaves the queue (R293). -/
def Station.modManifest (st : Station) (id : DepId) (f : Manifest → Manifest) : Station :=
  { st with pilot := st.pilot.map (fun m => if m.dep == id then f m else m) }

def Station.manifest (st : Station) (id : DepId) : Option Manifest := st.pilot.find? (fun m => m.dep == id)

/-- Does an issued take hold an unreleased claim on the Siding (R303)? One whose take was cancelled is none. -/
def Siding.claimHeld (d : Siding) : Bool :=
  decide (d.next < d.claimed) ||
  d.slots.any (fun x => decide (x.num < d.claimed) && x.state != .gone && x.state != .returning && !x.cut)

/-- The oldest position of a Siding that has not started. -/
def Siding.oldest (d : Siding) : Option Pos := d.slots.find? (fun x => x.state == .reserved)

/-- Is a `TURN` the one whose output fills position n of Siding sid of Station k (R300)? -/
def turnFills (word : BitVec 256) (k sid : Nat) : Bool :=
  Dep.opcode word == opTurn && (turnOps word).dest == 0 && (turnOps word).dstStation == k && (turnOps word).siding == sid

/-- Is a fill of the position asked for, so that only a slot and ring space can keep it from starting: its Waybill is at hand and may
start (R298), or the `TURN` that fills it is the next of its Turntable (R300; DESIGN CHOICE, notes/assumptions/13.md)? The length of
its record. -/
def State.fillAsked (s : State) (k sid : Nat) (x : Pos) : Option Nat :=
  match x.source with
  | .waybill id i =>
    match s.workSlot, (s.station k).manifest id with
    | some c, some m =>
      if m.cancelled || !s.sectionOpen c m then none
      else (m.wbs.find? (fun w => w.index == i && w.stage == 0)).map (fun w => (Waybill.ofNat w.word).gran)
    | _, _ => none
  | .expect _ turned =>
    match tget [] s.turns (turnOf k) with
    | q :: _ =>
      if turned && turnFills q.word k sid && (match (s.station q.station).prog q.dep with | some p => p.claim == x.num | none => false)
      then some x.len else none
    | [] => none

/-- One Siding after what its fills wait for has changed: the cycles waited since the last look count in `PILOT_SLOT_WAIT`, and the next
wait begins (R290, R303). -/
def State.noteSiding (s : State) (k p sid : Nat) : State :=
  let d := (s.station k).siding sid
  let s := match d.wait with
    | some w => s.bump .pilotSlotWait p (s.cycle p - w.since)
    | none => s
  let waits := match d.oldest with
    | some x => (match s.fillAsked k sid x with
      | some len => if d.mayStart x.num len then none else some x.num
      | none => none)
    | none => none
  let wait : Option FillWait := waits.map (fun n =>
    let before := match d.wait with | some w => if w.num = n then (w.began, w.hungLt) else (s.cycle p, none) | none => (s.cycle p, none)
    { num := n, began := before.1, since := s.cycle p, hungLt := if d.claimHeld then none else some (before.2.getD s.time.lt) })
  if wait = d.wait then s else s.modStation k (fun st => st.setSiding sid { st.siding sid with wait := wait })

/-- Every Siding of a Station. -/
def State.noteFills (s : State) (k : Nat) : State :=
  match s.phys k with
  | none => s
  | some p => ((s.station k).sidings.map (fun q => q.1)).foldl (fun s sid => s.noteSiding k p sid) s

/-- Every Siding of the module. -/
def State.noteAllFills (s : State) : State := (s.stations.map (fun q => q.1)).foldl State.noteFills s

/-- A take claims the oldest `n` unclaimed positions (R288): their numbers follow the claims made before. -/
def State.claim (s : State) (k sid n : Nat) (id : DepId) : State :=
  (s.modStation k (fun st =>
    let d := st.siding sid
    (st.setSiding sid { d with claimed := d.claimed + n }).modProg id (fun p => { p with claim := d.claimed }))).noteFills k

/-- Is the Siding set and bound to line j (R287, R288)? -/
def sidingOk (st : Station) (sid j : Nat) : Bool := (st.siding sid).isSet && (st.siding sid).line == j

/-- State check of a source: an unset Siding, or one bound to another line (R287, R288). -/
def sourceReasons (st : Station) (isSiding : Bool) (sid j : Nat) : List Nat :=
  reasonsOf [(isSiding && !sidingOk st sid j, 0x0B)]

/-- A position that a take may read: filled. -/
def Siding.filled (d : Siding) (n : Nat) : Option Pos :=
  match d.pos n with
  | some p => if p.state == .filled then some p else none
  | none => none

end Sys2Proof.Machine
end

