-- ==== Sys2Proof/Machine/Tiles.lean ====
section
/-! DEFINITION. Tile records read as values (R46 to R48), the terms that a row of the array forms (R64, R75, R186, R198 to R201),
and its check (R79 to R81). -/

namespace Sys2Proof.Machine

open Sys2Proof

/-- The number that the bytes of row r of a record spell. -/
def rowNum (f : Fmt) (bytes : List Byte) (r : Nat) : Nat := leAt bytes (r * f.rowBytes) f.rowBytes

/-- The code of element j in a row's number (R46). -/
def elemCode (f : Fmt) (num j : Nat) : Nat := field num (f.elem.bits * (j + 1) - 1) (f.elem.bits * j)

/-- The elements of row r before any shared scale. -/
def rowElems (f : Fmt) (bytes : List Byte) (r : Nat) : List Val :=
  let num := rowNum f bytes r
  (List.range 256).map (fun j => f.elem.decode f.isMx (elemCode f num j))

/-- The scale codes of row r with `block` elements each: those of the record, or the implied 0x7F (R47, R186). -/
def rowScales (f : Fmt) (bytes : List Byte) (r block : Nat) : List Nat :=
  if f.isMx then (sliceBytes bytes (256 * f.rowBytes + r * f.blocks) f.blocks).map (fun b => b.toNat)
  else List.replicate (256 / block) 0x7F

/-- Is any bit of row r, or of its scales, in a poisoned granule of the record (R48)? -/
def rowPoisoned (f : Fmt) (poison : List Nat) (r : Nat) : Bool :=
  poison != [] &&
  ((granulesOf (r * f.rowBytes) f.rowBytes).any poison.contains ||
   (f.isMx && (granulesOf (256 * f.rowBytes + r * f.blocks) f.blocks).any poison.contains))

/-- The exact row sum of the integer path, and of one block on unscaled element values (R75, R198). -/
def rowSum (ws xs : List Val) : Val := (ws.zip xs).foldl (fun a q => Val.add false a (Val.mul q.1 q.2)) .zero

/-- The block sums of one cell row, in ascending block number (R75, R119). -/
def blockSums (block : Nat) : Nat → List Val → List Val → List Val
  | 0, _, _ => []
  | n + 1, ws, xs => rowSum (ws.take block) (xs.take block) :: blockSums block n (ws.drop block) (xs.drop block)

/-- A sum in an arithmetic: the first value is rounded in, the later ones are added one by one (R75, R79, R80, R200). -/
def sumIn (a : Arith) (mode : Round) : List Val → Val
  | [] => .zero
  | p :: t => t.foldl (a.add mode) (a.round mode p)

/-- A chain of products (R75, R200). -/
def chain (a : Arith) (ws xs : List Val) : Val := sumIn a .rne ((ws.zip xs).map (fun q => Val.mul q.1 q.2))

def pathBlock (path : Nat) : Nat := if path = 1 then 16 else 32

/-- What one cell row sends to the check column, before any scale (R75, R80), with the paths numbered as in `Row.path`. -/
def cellSums (path : Nat) (ws xs : List Val) : List Val :=
  match path with
  | 0 | 1 => blockSums (pathBlock path) (256 / pathBlock path) ws xs
  | 2 => [rowSum ws xs]
  | 3 => [chain acc48Arith ws xs]
  | _ => [chain acc96Arith ws xs]

/-- The scale exponents of a cell row's block terms; none where either scale is NaN (R75, R198). -/
def termScales (path : Nat) (sws sxs : List Nat) : List (Option Int) :=
  if path ≤ 1 then
    (sws.zip sxs).map (fun q => if q.1 = 255 ∨ q.2 = 255 then none else some ((q.1 : Int) - 127 + ((q.2 : Int) - 127)))
  else []

/-- One block term (R198). -/
def blockTerm (e : Option Int) (sum : Val) : Val :=
  match e with
  | none => .nan
  | some e => if sum.isZero then .zero else sum.scale2 e

/-- The terms of one cell row from its sums: scaled on the block path, and with `neg` of inverted sign (R75, R77). -/
def finishTerms (neg : Bool) (scales : List (Option Int)) (sums : List Val) : List Val :=
  let t := match scales with
    | [] => sums
    | _ => (scales.zip sums).map (fun q => blockTerm q.1 q.2)
  if neg then t.map Val.neg else t

/-- The sums of every cell row for streamed row x against a stationary record (R64). -/
def rowSums (path : Nat) (sf xf : Fmt) (tile strm : List Byte) (x : Nat) : List (List Val) :=
  let xs := rowElems xf strm x
  (List.range 256).map (fun i => cellSums path (rowElems sf tile i) xs)

/-- Their scale exponents. -/
def rowExps (path : Nat) (sf xf : Fmt) (tile strm : List Byte) (x : Nat) : List (List (Option Int)) :=
  let sxs := rowScales xf strm x (pathBlock path)
  (List.range 256).map (fun i => termScales path (rowScales sf tile i (pathBlock path)) sxs)

/-- The terms of every column (R75). -/
def termsOf (neg : Bool) (exps : List (List (Option Int))) (sums : List (List Val)) : List (List Val) :=
  (exps.zip sums).map (fun q => finishTerms neg q.1 q.2)

/-- The terms of every column for streamed row x against a stationary record (R64); `neg` inverts every sign (R77). -/
def rowTerms (path : Nat) (sf xf : Fmt) (tile strm : List Byte) (x : Nat) (neg : Bool) : List (List Val) :=
  termsOf neg (rowExps path sf xf tile strm x) (rowSums path sf xf tile strm x)

/-- Does a record's row hold a NaN, an infinity or a NaN scale (R81)? -/
def rowSpecial (f : Fmt) (bytes : List Byte) (r : Nat) : Bool :=
  (rowElems f bytes r).any (fun v => v.isNaN || v.isInf) || (f.isMx && (rowScales f bytes r 32).contains 255)

/-- The arithmetic in which the check references of a format are summed; none: exact in fixed point (R79). -/
def Elem.refArith : Elem → Option Arith
  | .bf16 | .fp16 | .fp32 => some acc48Arith
  | .fp64 => some acc96Arith
  | _ => none

/-- One column sum after another row has been added, column by column, in the order of the rows (R79). -/
def columnSums (a : Option Arith) (mode : Round) : List (List Val) → List Val
  | [] => []
  | w :: ws =>
    match a with
    | none => ws.foldl (fun acc r => (acc.zip r).map (fun q => Val.add false q.1 q.2)) w
    | some a => ws.foldl (fun acc r => (acc.zip r).map (fun q => a.add mode q.1 q.2)) (w.map (a.round mode))

/-- The check references r[j] of a tile record (R79). -/
def checkRefs (f : Fmt) (tile : List Byte) : List Val :=
  columnSums f.elem.refArith .rne ((List.range 256).map (rowElems f tile))

/-- The bounds a[j] of a tile record, for the chain formats only (R79). -/
def checkMags (f : Fmt) (tile : List Byte) : List Val :=
  match f.elem.refArith with
  | none => []
  | some a => columnSums (some a) .rup ((List.range 256).map (fun i => (rowElems f tile i).map Val.abs))

/-- A tile with the check references that its staging pass computes (R79, R190). -/
def Plane.withRefs (pl : Plane) : Plane :=
  match Fmt.ofDesc pl.desc with
  | some f => { pl with refs := checkRefs f pl.bytes, mags := checkMags f pl.bytes }
  | none => pl

/-- S_ref of a streamed row, one for each block on the block path (R80). -/
def refSums (path : Nat) (refs xs : List Val) : List Val := cellSums path refs xs

/-- M of a streamed row (R80). -/
def boundSum (path : Nat) (mags xs : List Val) : Val :=
  if path ≤ 2 then .zero
  else sumIn (if path = 3 then acc48Arith else acc96Arith) .rup ((mags.zip xs).map (fun q => Val.mul q.1 q.2.abs))

/-- S_col: the check column adds what the 256 cell rows send, block by block on the block path (R80). -/
def colSums (path : Nat) (sums : List (List Val)) : List Val :=
  match path with
  | 0 | 1 => (List.range (256 / pathBlock path)).map (fun b => (sums.map (fun l => l.getD b .zero)).foldl (Val.add false) .zero)
  | 2 => [(sums.map (fun l => l.getD 0 .zero)).foldl (Val.add false) .zero]
  | 3 => [sumIn acc48Arith .rne (sums.map (fun l => l.getD 0 .zero))]
  | _ => [sumIn acc96Arith .rne (sums.map (fun l => l.getD 0 .zero))]

/-- Does the check of a row of finite operands overflow (R200): S_col, S_ref or M infinite? -/
def checkOverflow (path : Nat) (refs : List Val) (bound : Val) (sums : List (List Val)) : Bool :=
  decide (3 ≤ path) && (refs.any Val.isInf || bound.isInf || (colSums path sums).any Val.isInf)

/-- Is a row of this path entered twice (R81, R200)? -/
def rowTwice (path : Nat) (sf xf : Fmt) (w : Plane) (strm : List Byte) (x : Nat) : Bool :=
  let xs := rowElems xf strm x
  let special := rowSpecial xf strm x || (List.range 256).any (fun i => rowSpecial sf w.bytes i)
  special || checkOverflow path (refSums path w.refs xs) (boundSum path w.mags xs) (rowSums path sf xf w.bytes strm x)

/-- Does a chain of one column leave the range from finite products: an `MMA_ACC96_OVF` (R200)? -/
def chainOverflows (ws xs : List Val) : Bool :=
  ((ws.zip xs).foldl (fun (st : Option Val × Bool) q =>
    let p := Val.mul q.1 q.2
    let v := match st.1 with
      | none => acc96Arith.round .rne p
      | some v => acc96Arith.add .rne v p
    let was := match st.1 with | some v => v.isInf || v.isNaN | none => false
    (some v, st.2 || (v.isInf && !p.isInf && !was))) (none, false)).2

/-- Does a chain of any column of a row overflow? -/
def rowOvf (path : Nat) (sf xf : Fmt) (tile strm : List Byte) (x : Nat) : Bool :=
  let xs := rowElems xf strm x
  path == 4 && (List.range 256).any (fun i => chainOverflows (rowElems sf tile i) xs)

/-- The columns that a row poisons (R201). -/
def rowPoisonCols (sf xf : Fmt) (tilePoison strmPoison : List Nat) (x : Nat) : List Nat :=
  if rowPoisoned xf strmPoison x then List.range 256
  else (List.range 256).filter (fun i => rowPoisoned sf tilePoison i)

/-- Are two terms the same bit for bit, NaNs of any encoding being equal (R81)? -/
def Val.same (a b : Val) : Bool :=
  match a, b with
  | .nan, .nan => true
  | .inf s, .inf t => s == t
  | .fin s m e, .fin t n f => s == t && Val.eqv (.fin s m e) (.fin t n f)
  | _, _ => false

/-- The sums of an array's rows with the wrong values among them, in one of the two entries. -/
def faulty (faults : List RowFault) (second : Bool) (from' : Nat) (sums : List (List Val)) : List (List Val) :=
  (faults.filter (fun f => f.second == second)).foldl (fun l f =>
    if f.row.val < from' then l
    else l.modify (f.row.val - from') (fun r => r.set f.block f.value)) sums

/-- The numerical comparison of R80: `refs` S_ref, `bound` M. What is no number, or no finite one, comes of a fault: a mismatch. -/
def checkDiffers (path : Nat) (refs : List Val) (bound : Val) (sums : List (List Val)) : Bool :=
  ((colSums path sums).zip refs).any (fun q =>
    if path ≤ 2 then !q.1.eqv q.2
    else
      let diff := (Val.add false q.2 q.1.neg).abs
      let tol := if path = 3 then bound.scale2 (-26) else Val.add false (bound.scale2 (-72)) (.fin false 1 (-2118))
      !(diff.lt tol || diff.eqv tol))

/-- The verdict on a row (R80, R81): is it a mismatch, and the terms that came out. -/
def Row.verdict (r : Row) (faults : List RowFault) : Bool × List (List Val) :=
  let first := faulty faults false 0 r.sums
  let terms := termsOf r.neg r.exps first
  if r.dup then
    let again := termsOf r.neg r.exps (faulty faults true 0 r.sums)
    (((terms.flatten.zip again.flatten).any (fun q => !q.1.same q.2)), terms)
  else
    let refs := ((faulty faults false 256 [r.refs, [r.bound]]).getD 0 [])
    let bound := ((faulty faults false 256 [r.refs, [r.bound]]).getD 1 []).getD 0 .zero
    (checkDiffers r.path refs bound first, terms)

end Sys2Proof.Machine
end

