-- ==== Sys2Proof/Machine/Loop.lean ====
section
/-! DEFINITION. The Loop (04_the_loop.md): its path, Consists, flits, hop books, sends and takes. Headers move from node to node by
CONSIST_ARRIVE, and the flits behind them by themselves (notes/assumptions/12.md). -/

namespace Sys2Proof.Machine

open Sys2Proof

/-- The next node that is not a retired Station (R108). -/
def nextFrom (retired : List Nat) (l : Nat) : Nat → Nat → Nat
  | 0, p => p
  | n + 1, p => if retired.contains p then nextFrom retired l n (stepNode p l) else p

def nextNode (retired : List Nat) (p l : Nat) : Nat := nextFrom retired l 18 (stepNode p l)

/-- The node before `p` on line `l`: the one after it on the other line. -/
def prevNode (retired : List Nat) (p l : Nat) : Nat := nextNode retired p (1 - l)

/-- Fields of the header flit (R91). -/
def Consist.f (c : Consist) (hi lo : Nat) : Nat := field c.header.toNat hi lo
def Consist.fmt (c : Consist) : Nat := c.f 186 179
def Consist.tag (c : Consist) : Nat := c.f 178 163
def Consist.sect (c : Consist) : Nat := c.f 162 147
def Consist.hops (c : Consist) : Nat := c.f 146 140
def Consist.useFrom (c : Consist) : Nat := c.f 139 133
def Consist.stride (c : Consist) : Nat := c.f 132 126
def Consist.src (c : Consist) : Nat := c.f 125 119
def Consist.flits (c : Consist) : Nat := c.f 118 107

/-- The header flit's low 256 bits (R91). -/
def headerWord (row col object fmt tag sect hops useFrom stride src flits : Nat) (poison : Bool) : BitVec 256 :=
  BitVec.ofNat 256 (place row 232 + place col 208 + place object 187 + place fmt 179 + place tag 163 + place sect 147 +
    place hops 140 + place useFrom 133 + place stride 126 + place src 119 + place flits 107 + (if poison then 1 else 0))

/-- Is the Station at this logical distance a using Station (R95)? -/
def Consist.usedAt (c : Consist) (dist : Nat) : Bool :=
  decide (c.useFrom ≤ dist ∧ dist ≤ c.hops) && (dist - c.useFrom) % c.stride == 0

/-- Is a Consist of this section discarded: the cancel in force covers it (R105, R306)? -/
def State.discards (s : State) (sect : Nat) : Bool :=
  match s.runSlot with
  | some c => match (s.slot c).run with
    | some r => r.cancelled.isSome && (r.halting || r.sect == sect)
    | none => false
  | none => false

/-- Counts for a physical Station; a junction keeps no counters (R111). -/
def State.bumpNode (s : State) (p : Nat) (c : Ctr) (n : Nat) : State := if p < 136 then s.bump c p n else s

/-- The line of a counter. -/
def lineOf (l : Nat) : Fin 2 := if l = 0 then 0 else 1

/-! ## Flits -/

/-- Data bits of flit n of a Consist: the header flit, then 256 bytes of payload for each flit (R90, R91). -/
def Consist.flitData (c : Consist) (n : Nat) : Nat := if n = 0 then c.header.toNat else leAt c.data (256 * (n - 1)) 256

/-- `PSN` of flit n (R92, R98). -/
def Consist.psn (c : Consist) (n : Nat) : Nat :=
  if n = 0 then 0 else ((List.range 4).map (fun g => if c.poison.contains (4 * (n - 1) + g) then 2 ^ g else 0)).sum

/-- Even parity of the low `n` bits of a number. -/
def parityBit (n x : Nat) : Nat := ((List.range n).filter (fun i => bit x i)).length % 2

/-- `PAR`: one bit for each data word of 64 bits, and bit 32 for the sideband's own bits [10:0] (R92). -/
def parBits (data low : Nat) : Nat :=
  ((List.range 32).map (fun w => parityBit 64 (field data (64 * w + 63) (64 * w)) * 2 ^ w)).sum + parityBit 11 low * 2 ^ 32

/-- The sideband of flit n of a Consist, sent with a `SEQ` (R92). -/
def Consist.sideband (c : Consist) (n seq : Nat) : Nat :=
  let low := place seq 6 + place (c.psn n) 2 + place (if n = 0 then 1 else 0) 1 + 1
  place (parBits (c.flitData n) low) 11 + low

/-- Does a flit arrive with a parity error (R92, R100)? -/
def parityBad (data side : Nat) : Bool := parBits data (field side 10 0) != field side 43 11

/-! ## The books of a hop -/

/-- The credits on their way have come back to the sender (R99). -/
def Hop.collect (h : Hop) : Hop := { h with credits := h.credits + h.retCred, retCred := 0 }

/-- A replay is awaited, or the hop is down: nothing is launched, and nothing arrives (R100, R101). -/
def Hop.blocked (h : Hop) : Bool := h.request.isSome || h.down || h.fails == 9

/-- `n` flits are launched: each consumes a credit and stays in the replay buffer, which holds the last 16 (R99, R100). -/
def Hop.launchFlits (h : Hop) (n : Nat) : Hop :=
  let replay := h.replay ++ (List.range n).map (fun i => (h.seq + i) % 32)
  { h with credits := h.credits - n, inFlight := h.inFlight + n, seq := (h.seq + n) % 32, sent := h.sent + n,
           replay := replay.drop (replay.length - 16) }

/-- `n` flits in flight come into the crossing buffer, and are acknowledged (R99, R100). -/
def Hop.arriveFlits (h : Hop) (n : Nat) : Hop :=
  if n = 0 then h
  else { h with inFlight := h.inFlight - n, occupied := h.occupied + n, replay := h.replay.drop n, fails := 0 }

/-- `n` entries are read out: a credit goes back for each (R99). -/
def Hop.readOut (h : Hop) (n : Nat) : Hop := { h with occupied := h.occupied - n, retCred := h.retCred + n }

/-- May a Consist begin to leave by this hop now (R94, R99)? -/
def Hop.open (h : Hop) : Bool := !h.blocked && h.moving.isNone && decide (0 < h.credits + h.retCred)

/-- The Consist begins to leave at cycle `sc`. -/
def Hop.begin (h : Hop) (c : Consist) (passes : Bool) (sc : Nat) : Hop :=
  { h with moving := some c, sent := 0, arrived := false, passes := passes, startSc := sc }

/-- The running departure that a Consist's own launch serves is told so as the last flit leaves at cycle `last` of a Station: a send
is done, a `TURN` when it has left on every line named (R157, R245). -/
def State.launched (s : State) (p : Nat) (c : Consist) (startSc : Nat) : State :=
  match c.dep with
  | none => s
  | some id =>
    let k := c.src
    match (s.station k).prog id with
    | none => s
    | some pr =>
      let sc := match s.phys k with | some q => s.cycle q | none => 0
      if Dep.opcode pr.word = opTurn then
        let n := pr.pass + 1
        let lines := if (turnOps pr.word).dest = 3 then 2 else 1
        let s := s.modProg k id (fun x => { x with pass := n, doneSc := if n = lines then some (max (c.readyAt + c.flits) sc) else x.doneSc })
        let s := s.stall k id 4 (if n = lines then sc - (c.readyAt + c.flits) else 0)
        let u := p - 136
        { s with turnOut := tset s.turnOut u ((tget [] s.turnOut u).filter (fun o => !(n == lines && o.station == k && o.dep == id))) }
      else if p < 136 then
        let done := max (startSc + c.flits) sc
        (s.finish k id done).stall k id 4 (done - (pr.issueSc + c.flits + (pr.stalls.map (fun q => q.2)).sum))
      else s

/-- Node `p` launches `n` flits of the Consist that leaves it on line `l`. -/
def State.putFlits (s : State) (p l n : Nat) : State :=
  let h := s.hop p l
  let h' := h.collect.launchFlits n
  let s := (s.setHop p l h').bumpNode p (.loopFlits (lineOf l)) n
  let s := if 136 ≤ p ∧ !h.passes then s.bump .turnFlits (p - 136) n else s
  match h.moving with
  | some c => if !h.passes && h'.sent == c.size then s.launched p c h.startSc else s
  | none => s

/-- Is a flit ready at node `p` for line `l` that only a credit keeps back? Counts the wait once it is over (R111). -/
def State.noteWait (s : State) (p l : Nat) (flitReady : Bool) : State :=
  let h := s.hop p l
  if 136 ≤ p then s
  else if flitReady && !h.blocked && h.credits + h.retCred == 0 then
    s.setHop p l { h with waitSince := some (h.waitSince.getD (s.cycle p)) }
  else match h.waitSince with
    | some t => (s.setHop p l { h with waitSince := none }).bump (.loopCreditWait (lineOf l)) p (s.cycle p - t)
    | none => s

/-! ## A node's step -/

/-- Flits of the Consist at the head of the input of `p` that have been launched to it. -/
def State.launchedTo (s : State) (p l : Nat) (c : Consist) : Nat :=
  let up := s.hop (prevNode s.flash.retired p l) l
  if up.moving.isSome && up.arrived then up.sent else c.size

/-- Payload flits up to the end of row x of a record (R47, R90). -/
def rowFlits (desc x : Nat) : Nat := match Fmt.ofDesc desc with | some f => ceilDiv ((x + 1) * f.rowBytes) 256 | none => 0

/-- Flits of the Consist at the head of the input of `p` that may be read out: a shadow plane and the store take every flit, the array
entrance no more than the row that enters next (R96, R193). -/
def State.inAllow (s : State) (p : Nat) (c : Consist) (m : InMode) : Nat :=
  match m with
  | .holding => 0
  | .passing | .ending | .dropping => c.size
  | .given id first =>
    match (s.logical p).bind (fun k => (s.station k).prog id) with
    | none => c.size
    | some pr =>
      if Dep.opcode pr.word = opMma ∧ pr.next < (mmaOps pr.word).nrows ∧ pr.next < first + 256 then
        min c.size (1 + rowFlits c.fmt (pr.next - first))
      else c.size

/-- Does the Consist at the head of the input go on from `p` (R95)? -/
def Consist.goesOn (c : Consist) (m : InMode) : Bool :=
  match m with
  | .passing => true
  | .given _ _ => decide (c.dist < c.hops)
  | _ => false

/-- A take is over: it waits for no Consist any more. -/
def Station.dropTake (st : Station) (id : DepId) : Station := { st with takes := st.takes.filter (fun t => t.1 != id) }

/-- Staging time of a format (R70). -/
def stagingSc (desc : Nat) : Nat := ceilDiv (recGran desc * 512) 2048 + 8

/-- The tile that a Consist carries, as the shadow plane takes it. -/
def Consist.plane (c : Consist) (tag : Nat) : Plane :=
  { desc := c.fmt, bytes := c.data, poison := c.poison, tag := tag, sect := c.sect, refs := [], mags := [] }

/-- The first waiting take of a line that names a tag (R96). -/
def Station.takeFor (st : Station) (l tag : Nat) : Option DepId :=
  (st.takes.find? (fun t => t.2.1 == l && t.2.2 == tag)).map (fun t => t.1)

/-- Staging starts to run with the record at hand; the same pass computes the check references (R70, R190). -/
def Station.stageData (st : Station) (id : DepId) (pl : Plane) (sc : Nat) : Station :=
  match st.shadow with
  | .staging tag desc dep _ _ =>
    if dep = id then { st with shadow := .staging tag desc dep (some { pl.withRefs with tag := tag }) (sc + stagingSc desc) } else st
  | _ => st

/-- The flits from number `r` on, `n` of them, reach the departure that takes the Consist: a store take writes them (R96, R205), and a
stage has its record once the last is there; its staging ends no sooner than R70 gives, and 9 sc after the last flit (R190). -/
def State.consume (s : State) (p l : Nat) (c : Consist) (id : DepId) (r n : Nat) : State :=
  match s.logical p with
  | none => s
  | some k =>
    let st := s.station k
    match st.prog id with
    | none => s
    | some pr =>
      let op := Dep.opcode pr.word
      let began := (s.hop p l).heldSince
      if op = opTake then
        let a := (takeOps pr.word).addr
        let from' := 256 * (max r 1 - 1)
        let bytes := sliceBytes c.data from' (256 * (r + n - 1) - from')
        let s := s.setStation k (st.storeWrite (64 * a + from') bytes (fun g => c.poison.contains (g - a)))
        if r + n = c.size then
          let done := max (began + c.flits) (s.cycle p)
          ((s.modStation k (fun st => st.dropTake id)).finish k id done).stall k id 4 (done - (pr.issueSc + c.flits))
        else s
      else if op = opStage ∧ r + n = c.size then
        let sc := max (began + 1) (s.cycle p + 9 - stagingSc c.fmt)
        ((s.setStation k ((st.stageData id (c.plane (stageOps pr.word).tag) sc).dropTake id)).stall k id 4 (sc - pr.issueSc)).runBad
          (c.poison != [])
      else s

/-- The Consist at the head of the input is dealt with once its flits have been read out, and a multiply's once its rows have
entered. -/
def State.inputDone (s : State) (p : Nat) (c : Consist) (h : Hop) : Bool :=
  h.read == c.size &&
  (match h.mode with
   | .given id first =>
     match (s.logical p).bind (fun k => (s.station k).prog id) with
     | some pr => Dep.opcode pr.word != opMma || pr.next == (mmaOps pr.word).nrows || decide (first + 256 ≤ pr.next)
     | none => true
   | _ => true)

/-- Flits that are due on the hop into `p` come into its crossing buffer: how many. -/
def State.arriveStep (s : State) (p l : Nat) : State × Nat :=
  let q := prevNode s.flash.retired p l
  let up := s.hop q l
  let here := s.hop p l
  match here.held with
  | none => (s, 0)
  | some c =>
    let n := if up.blocked then 0 else min here.due (s.launchedTo p l c) - (here.read + up.occupied)
    if n = 0 then (s, 0) else (s.setHop q l (up.arriveFlits n), n)

/-- The Consist at the head of the input begins to leave by the node's output, where that is free (R94, R96). -/
def State.passStep (s : State) (p l : Nat) : State × Nat :=
  let here := s.hop p l
  match here.held with
  | none => (s, 0)
  | some c =>
    if c.goesOn here.mode && here.read == 0 && here.open then (s.setHop p l (here.begin { c with dep := none } true (s.cycle p)), 1)
    else (s, 0)

/-- Flits at the head of the input are read out: each goes to the consumer and, in the same sc, on from the node, or is discarded
(R96, R105): how many. -/
def State.readStep (s : State) (p l : Nat) : State × Nat :=
  let q := prevNode s.flash.retired p l
  let here := s.hop p l
  match here.held with
  | none => (s, 0)
  | some c =>
    let room :=
      if !c.goesOn here.mode then c.size
      else if here.passes && here.moving.isSome && here.sent == here.read && !here.blocked then here.credits + here.retCred
      else 0
    let n := min (min (s.hop q l).occupied (s.inAllow p c here.mode - here.read)) room
    if n = 0 then (s, 0)
    else
      let s := s.modHop q l (fun h => h.readOut n)
      let s := s.modHop p l (fun h => { h with read := h.read + n })
      let s := match here.mode with
        | .given id _ => s.consume p l c id here.read n
        | .dropping => s.bumpNode p (.loopDiscard (lineOf l)) n
        | _ => s
      (if c.goesOn here.mode then s.putFlits p l n else s, n)

/-- The node's own Consist goes on leaving (R94); a junction begins the next one of its Turntable by itself, once it is ready
(R244). -/
def State.ownStep (s : State) (p l : Nat) : State × Nat :=
  let here := s.hop p l
  match here.moving with
  | some c =>
    let n := if here.passes || here.blocked then 0 else min (c.size - here.sent) (here.credits + here.retCred)
    if n = 0 then (s, 0) else (s.putFlits p l n, n)
  | none =>
    match here.own with
    | c :: t =>
      let sc := match s.phys c.src with | some q => s.cycle q | none => 0
      let waits := match here.held with | some x => x.goesOn here.mode && here.read == 0 | none => false
      if decide (p < 136) || !here.open || waits || decide (sc < c.readyAt) then (s, 0)
      else (s.setHop p l ({ here with own := t }.begin c false c.readyAt), 1)
    | [] => (s, 0)

/-- An input or an output that is done with its Consist is free. -/
def State.endStep (s : State) (p l : Nat) : State × Nat :=
  let here := s.hop p l
  let (s, n) := match here.held with
    | some c => if s.inputDone p c here then (s.modHop p l (fun h => { h with held := none, mode := .passing, read := 0, due := 0 }), 1)
      else (s, 0)
    | none => (s, 0)
  let here := s.hop p l
  match here.moving with
  | some c =>
    if here.sent == c.size && here.arrived then
      ((s.setHop p l { here with moving := none }).bumpNode p (.loopEmpty (lineOf l)) (s.cycle p + 1 - here.startSc - c.size), n + 1)
    else (s, n)
  | none => (s, n)

/-- Everything that node `p` can do now on line `l`; answers whether anything moved. -/
def State.nodeStep (s : State) (p l : Nat) : State × Bool :=
  let (s, a) := s.arriveStep p l
  let (s, b) := s.passStep p l
  let (s, c) := s.readStep p l
  let (s, d) := s.ownStep p l
  let (s, e) := s.endStep p l
  let here := s.hop p l
  let flitReady := match here.moving with
    | some x => if here.passes then here.held.isSome && here.sent == here.read && decide (0 < (s.hop (prevNode s.flash.retired p l) l).occupied)
                else decide (here.sent < x.size)
    | none => here.own != [] || (match here.held with | some x => x.goesOn here.mode | none => false)
  (s.noteWait p l flitReady, decide (0 < a + b + c + d + e))

/-- Nodes that may now move something are tried, and their neighbours with them, until nothing moves. The flits of a Consist so pass
as far as its header has come. -/
def State.loopSettle : Nat → List Nat → Nat → State → State
  | 0, _, _, s => s
  | _, [], _, s => s
  | n + 1, p :: work, l, s =>
    let r := s.nodeStep p l
    if r.2 then
      let add := fun (w : List Nat) (x : Nat) => if w.contains x then w else w ++ [x]
      State.loopSettle n (add (add (add work p) (nextNode s.flash.retired p l)) (prevNode s.flash.retired p l)) l r.1
    else State.loopSettle n work l r.1

/-- Steps that are more than enough for every Consist of a line to pass. -/
def settleFuel : Nat := 1000000

def State.pump (s : State) (p l : Nat) : State := s.loopSettle settleFuel [p] l

/-- The Consist held at a Station's input meets a take that names its tag (R96): from then on its flits go to the departure. A format
that the departure cannot use is malformed (R184, R193). -/
def State.matchHeld (s : State) (p l : Nat) : State :=
  let h := s.hop p l
  match s.logical p, h.held with
  | some k, some c =>
    let st := s.station k
    match h.mode, st.takeFor l c.tag with
    | .holding, some id =>
      match st.prog id with
      | none => s
      | some pr =>
        let op := Dep.opcode pr.word
        let mx := match Fmt.ofDesc c.fmt with | some f => f.isMx | none => true
        let bad := if op = opTake then c.fmt != (takeOps pr.word).fmt
          else if op = opStage then c.fmt != (stageOps pr.word).sfmt
          else c.fmt != (mmaOps pr.word).xfmt || mx
        if bad then s.malformedProg k pr 6
        else
          let s := s.setHop p l { h with mode := .given id pr.next, heldSince := s.cycle p }
          (s.bumpNode p (.loopHeld (lineOf l)) (s.cycle p - h.heldSince)).pump p l
    | _, _ => s
  | _, _ => s

/-- The Consist that `LOOP_SEND` builds (R203, R204). -/
def sendConsist (o : SendOps) (k sect row col object : Nat) (data : List Byte) (poison : List Nat) (id : DepId) : Consist :=
  { header := headerWord row col object o.fmt o.tag sect o.hops o.useFrom o.stride k (data.length / 256) (poison != []),
    data := data, poison := poison, dist := 0, dep := some id, size := data.length / 256 + 1, readyAt := 0 }

/-- The coordinates in a granule (R240): row in bytes 0 to 2, column in bytes 3 to 5; (0, 0) where it is poisoned. -/
def coordGranule (st : Station) (g : Nat) : Nat × Nat :=
  if st.storePoison.contains g then (0, 0)
  else (memReadNat st.store (64 * g) 3, memReadNat st.store (64 * g + 3) 3)

/-- A send with a Siding source takes its Consist once the position is filled: `FLITS` is the entry's, and must be the record size of `FMT`
(R93, R204, R288). -/
def State.feedSend (s : State) (k : Nat) (pr : Prog) : State :=
  let o := sendOps pr.word
  let st := s.station k
  let d := st.siding (o.src % 16)
  match d.filled pr.claim, s.phys k with
  | some pos, some p =>
    match leastOf (reasonsOf [(pos.len != recGran o.fmt, 5), (pos.desc != o.fmt, 6)]) with
    | some reason => s.malformedProg k pr reason
    | none =>
      let c := sendConsist o k pr.sect pos.row pos.col pos.object (d.bytes st pos) (d.poisoned st pos) pr.id
      let s := (s.modProg k pr.id (fun x => { x with pass := 1 })).stall k pr.id 1 (s.cycle p - pr.issueSc)
      s.modHop p o.line (fun h => { h with own := h.own ++ [c] })
  | _, _ => s

/-- `LOOP_SEND` at issue (R204). -/
def sendEffect (s : State) (k : Nat) (h : Head) (pr : Prog) : State :=
  let o := sendOps h.word
  if o.siding then
    let s := s.claim k (o.src % 16) 1 pr.id
    match (s.station k).prog pr.id with
    | some pr => s.feedSend k pr
    | none => s
  else
    let st := s.station k
    let n := 64 * recGran o.fmt
    let poison := (storePoisoned st (64 * o.src) n).map (fun g => g - o.src)
    let rc := if o.cind then coordGranule st o.cgran else (o.trow, o.tcol)
    let bad := o.cind && st.storePoison.contains o.cgran
    let c := sendConsist o k h.sect rc.1 rc.2 o.object (storeRead st (64 * o.src) n) poison pr.id
    let s := s.modProg k pr.id (fun x => { x with pass := 1 })
    let s := s.modHop h.p o.line (fun x => { x with own := x.own ++ [c] })
    if bad then s.markStepBad h.c else s

def sendRule : DepRule :=
  { op := opSend, form := fun _ h => sendForm h.word,
    check := fun s k j h => sourceReasons (s.station k) (sendOps h.word).siding ((sendOps h.word).src % 16) j,
    effect := sendEffect }

/-- `LOOP_SEND` (R203, R204). -/
def execLoopSend (k : Fin 128) (j : Fin 4) (t : IssueTick) (s : State) : Out := .next (issue sendRule k j t s)

/-- A taking departure waits at the line's input, where a Consist may be held already (R96). -/
def State.startTake (s : State) (k p l tag : Nat) (id : DepId) : State :=
  (s.modStation k (fun st => { st with takes := st.takes ++ [(id, l, tag)] })).matchHeld p l

def takeRule : DepRule :=
  { op := opTake, form := fun _ h => takeForm h.word, check := fun _ _ _ _ => [],
    effect := fun s k h pr => s.startTake k h.p (takeOps h.word).line (takeOps h.word).tag pr.id }

/-- `LOOP_TAKE` (R205). -/
def execLoopTake (k : Fin 128) (j : Fin 4) (t : IssueTick) (s : State) : Out := .next (issue takeRule k j t s)

/-- CONSIST_INSERT: Station `p` begins to put its own Consist on line `l`, between Consists, with a credit; a forwarded one that is
ready goes first (R94). Its flits leave as credits are held (R90, R99). -/
def execConsistInsert (p : Fin 136) (l : Fin 2) (s : State) : Out := s.clocked fun s =>
  let h := s.hop p l
  let waits := match h.held with | some x => x.goesOn h.mode && h.read == 0 | none => false
  match h.own with
  | c :: t =>
    if !h.open || waits then .next (s.noteWait p l true)
    else .next ((s.setHop p l ({ h with own := t }.begin c false (s.cycle p))).putFlits p l (min c.size (h.credits + h.retCred)))
  | [] => .next s

/-- The header of the Consist on the hop into node `p` is read at the head of the input: a Station that must use the Consist holds it,
every other node forwards it, and a Station discards one of a cancelled section (R95, R96, R105). `flits` of it are due. -/
def State.headerArrives (s : State) (p l flits : Nat) (c : Consist) : State :=
  let q := prevNode s.flash.retired p l
  let logical := decide (p < 136) && (s.logical p).isSome
  let dist := if logical then c.dist + 1 else c.dist
  let c := { c with dist := dist }
  let mode : InMode :=
    if p < 136 ∧ s.discards c.sect then .dropping
    else if logical && c.usedAt dist then .holding
    else if logical && decide (c.hops ≤ dist) then .ending
    else .passing
  let s := s.modHop q l (fun h => { h.arriveFlits 1 with arrived := true })
  s.modHop p l (fun h => { h with held := some c, mode := mode, read := 0, due := max 1 flits, heldSince := s.cycle p, heldLt := s.time.lt })

/-- CONSIST_ARRIVE: flits of the Consist on the hop into node `p` arrive, its header first: it is held, forwarded or discarded, and
those that follow go where the header goes (R95, R96, R100, R102, R105). -/
def execConsistArrive (p : Fin 144) (l : Fin 2) (t : FlitTick) (s : State) : Out := s.clocked fun s =>
  let s := s.advance t.lt
  let up := s.hop (prevNode s.flash.retired p l) l
  let here := s.hop p l
  if up.blocked || s.flash.retired.contains p then .next s
  else
    match here.held, up.moving with
    | some _, _ => .next ((s.setHop p l { here with due := here.due + max 1 t.flits }).pump p l)
    | none, some c =>
      if up.arrived || up.inFlight == 0 then .next s
      else .next (((s.headerArrives p l t.flits c).matchHeld p l).pump p l)
    | none, none => .next s

/-- The oldest flit in flight on the hop that leaves node `p`: its Consist and number. -/
def State.oldestFlit (s : State) (p l : Nat) : Option (Consist × Nat) :=
  let h := s.hop p l
  let n := nextNode s.flash.retired p l
  match (s.hop n l).held with
  | some c =>
    if (s.hop n l).read + h.occupied < s.launchedTo n l c then some (c, (s.hop n l).read + h.occupied)
    else h.moving.bind (fun m => if h.arrived then none else some (m, 0))
  | none => h.moving.map (fun m => (m, 0))

/-- Flit i of a Consist, sent with `SEQ` n, as it arrives with the bits `flips` inverted: its data, and its sideband (R90 to R92). -/
def Consist.arrives (c : Consist) (i n : Nat) (flips : List (Fin 2092)) : Nat × Nat :=
  (c.flitData i ^^^ ((flips.filter (fun b => b.val < 2048)).map (fun b => 2 ^ b.val)).foldl (· ^^^ ·) 0,
   c.sideband i n ^^^ ((flips.filter (fun b => 2048 ≤ b.val)).map (fun b => 2 ^ (b.val - 2048))).foldl (· ^^^ ·) 0)

/-- LOOP_FLIT_PARITY_ERROR on the hop that leaves node `p`: the oldest flit in flight arrives with a parity error. The receiver discards
it and every later flit on the hop, returns their credits and requests a replay from its `SEQ`; the ninth failure in a row asks for none
(R92, R100, R101). -/
def execLoopFlitParityError (p : Fin 144) (x : HopFlips) (s : State) : Out := s.clocked fun s =>
  let l := x.line
  let h := s.hop p l
  match s.oldestFlit p l, h.replay with
  | some (c, i), n :: _ =>
    let flit := c.arrives i n x.bits
    if h.blocked || h.inFlight == 0 || !parityBad flit.1 flit.2 then .next s
    else
      let fails := h.fails + 1
      let s := s.setHop p l { h with inFlight := 0, retCred := h.retCred + h.inFlight, fails := fails,
                                     request := if fails ≤ 8 then some n else none }
      .next (if fails ≤ 8 then s.bumpNode (nextNode s.flash.retired p l) (.loopReplay l) 1 else s)
  | _, _ => .next s

/-- LOOP_REPLAY_REQUEST: the sender relaunches from the flit named, each flit with a credit (R99, R100). -/
def execLoopReplayRequest (p : Fin 144) (l : Fin 2) (s : State) : Out := s.clocked fun s =>
  let h := s.hop p l
  if h.request.isSome then
    let n := h.replay.length
    .next (s.setHop p l { h with request := none, inFlight := h.inFlight + n, credits := h.credits + h.retCred - n, retCred := 0 })
  else .next s

/-- The Station that a failed hop retires: its receiving end, or the Station that sends into a junction (R406). -/
def hopVictim (retired : List Nat) (p l : Nat) : Nat :=
  let q := nextNode retired p l
  if q < 136 then q else p

/-- LOOP_HOP_DOWN: the eighth replay has failed as well; the hop is down, `LINK_DOWN` names its sending end, and the
`STATION_CHECK` with reason `LOOP_HOP` follows (R101, R403, R406). -/
def execLoopHopDown (p : Fin 144) (l : Fin 2) (now : Nat) (s : State) : Out := s.clocked fun s =>
  let s := s.advance now
  let h := s.hop p l
  if h.fails == 9 && !h.down then
    let s := s.setHop p l { h with down := true }
    let s := s.report { EvtRec.blank with family := 4, scope := scopeNone,
                                          loc := place 3 60 + place l 17 + p }
    let v := hopVictim s.flash.retired p l
    .next (s.stationCheck v 4 { EvtRec.blank with lstation := (s.logical v).getD 255 })
  else .next s

end Sys2Proof.Machine
end

