-- ==== Sys2Proof/Machine/Array.lean ====
section
/-! DEFINITION. The feeder and the array (03_stations_and_cells.md, 07_matrix_departures.md): STAGE, the multiplies, Ballast,
and the schedule of their rows up to the release to the adder tree. -/

namespace Sys2Proof.Machine

open Sys2Proof

/-- A record of the store as a tile. -/
def storePlane (st : Station) (desc gran tag sect : Nat) : Plane :=
  { desc := desc, bytes := storeRead st (64 * gran) (64 * recGran desc),
    poison := (storePoisoned st (64 * gran) (64 * recGran desc)).map (fun g => g - gran), tag := tag, sect := sect, refs := [], mags := [] }

/-- Cycles in which a record is read through the array-feed port (R70, R86); they are taken to be the first of its staging (DESIGN
CHOICE, notes/assumptions/15.md). -/
def recordSc (desc : Nat) : Nat := ceilDiv (recGran desc) 4

/-- A stage with a Siding source starts once its position is filled (R190, R288). -/
def State.feedStage (s : State) (k : Nat) (pr : Prog) : State :=
  let o := stageOps pr.word
  let st := s.station k
  let d := st.siding (o.src % 16)
  match st.shadow, d.filled pr.claim, s.phys k with
  | .staging _ _ dep none _, some pos, some p =>
    if dep ≠ pr.id then s
    else if pos.desc ≠ o.sfmt then s.malformedProg k pr 6
    else
      let pl : Plane := ⟨pos.desc, d.bytes st pos, d.poisoned st pos, o.tag, pr.sect, [], []⟩
      let s := (s.setStation k (st.stageData pr.id pl (s.cycle p))).stall k pr.id 1 (s.cycle p - pr.issueSc)
      (s.runBad (pl.poison != [])).feedPort k p (s.cycle p) (recordSc o.sfmt)
  | _, _, _ => s

/-- `STAGE` at issue: the shadow plane goes to STAGING, and the record is read, or awaited (R187, R190). -/
def stageEffect (s : State) (k : Nat) (h : Head) (pr : Prog) : State :=
  let o := stageOps h.word
  let s := s.modStation k (fun st => { st with shadow := .staging o.tag o.sfmt pr.id none 0 })
  match o.kind with
  | 0 =>
    let st := s.station k
    let pl := storePlane st o.sfmt o.src o.tag h.sect
    ((s.setStation k (st.stageData pr.id pl pr.issueSc)).runBad (pl.poison != [])).feedPort k h.p pr.issueSc (recordSc o.sfmt)
  | 1 =>
    let s := s.claim k (o.src % 16) 1 pr.id
    match (s.station k).prog pr.id with
    | some pr => s.feedStage k pr
    | none => s
  | n => s.startTake k h.p (n - 2) (o.src % 65536) pr.id

def stageRule : DepRule :=
  { op := opStage, form := fun _ h => stageForm h.word,
    check := fun s k j h => sourceReasons (s.station k) ((stageOps h.word).kind == 1) ((stageOps h.word).src % 16) j,
    effect := stageEffect }

/-- `STAGE` (R189, R190). -/
def execStage (k : Fin 128) (j : Fin 4) (t : IssueTick) (s : State) : Out := .next (issue stageRule k j t s)

/-- The filled positions that a multiply has claimed are matched with its format (R184, R193). -/
def State.matchMma (s : State) (k : Nat) (pr : Prog) : State :=
  let o := mmaOps pr.word
  let d := (s.station k).siding (o.src % 16)
  let differs := fun (i : Nat) =>
    match d.filled (pr.claim + i) with
    | some pos => pos.desc != o.xfmt
    | none => false
  if (List.range (ceilDiv o.nrows 256)).any differs then s.malformedProg k pr 6 else s

/-- Everything of a Station that waits for a filled Siding position is tried again. -/
def State.feedSiding (s : State) (k : Nat) : State :=
  (s.station k).progs.foldl (fun s pr =>
    if pr.doneSc.isSome then s
    else if Dep.opcode pr.word = opStage ∧ (stageOps pr.word).kind = 1 then s.feedStage k pr
    else if Dep.opcode pr.word = opSend ∧ (sendOps pr.word).siding = true ∧ pr.pass = 0 then s.feedSend k pr
    else if Dep.opcode pr.word = opMma ∧ (mmaOps pr.word).kind = 1 then s.matchMma k pr
    else s) s

/-- Group addressing of a multiply, drain or close (R116, R118, R208): reasons of the state check. `last` counts the tile rows,
or pairs, reached. -/
def groupReasons (st : Station) (j g last : Nat) (gseqEn : Bool) : List Nat :=
  let x := st.group g
  let n := if x.kind = 2 then x.count / 2 else x.count
  reasonsOf [(!x.isOpen || x.closing || x.isPartner, 8), (x.isOpen && decide (n < last), 8),
    (x.isOpen && !x.orderFixed && x.owner != j, 8), (x.isOpen && x.orderFixed && !gseqEn, 8)]

/-- `IN_FLIGHT` rises, and an order-fixed group moves to its next `GSEQ` (R117, R129). -/
def Station.enterGroup (st : Station) (g rows : Nat) : Station :=
  let x := st.group g
  st.setGroup g { x with inFlight := x.inFlight + rows,
                         nextSeq := if x.orderFixed then (x.nextSeq + 1) % 65536 else x.nextSeq }

/-- Format of the tile staged with a tag. -/
def shadowDesc : Shadow → Option Nat
  | .empty => none
  | .staging _ d _ _ _ => some d
  | .full pl _ => some pl.desc

/-- Has a multiply switched in a tile since line time `lt` (R188)? -/
def Station.switchedSince (st : Station) (lt : Nat) : Bool := match st.switched with | some t => decide (lt ≤ t) | none => false

/-- The epoch of context c's running section. -/
def State.sectEpoch (s : State) (c : Nat) : Nat := match (s.slot c).run with | some r => r.sectEpoch | none => 0

/-- State check of an `MMA` (R118, R188, R287). -/
def mmaCheck (s : State) (k j : Nat) (h : Head) : List Nat :=
  let o := mmaOps h.word
  let st := s.station k
  groupReasons st j o.group (o.rowOff + o.span) o.gseqEn ++ sourceReasons st (o.kind == 1) (o.src % 16) j ++
  reasonsOf [((st.group o.group).isOpen && (st.group o.group).kind != pathKind (pairPath o.sfmt o.xfmt), 8),
    (o.tag == 0 && (!st.switchedSince (s.sectEpoch h.c) || (match st.active with | some a => a.desc != o.sfmt | none => true)), 0x0B),
    (o.tag != 0 && shadowDesc st.shadow != some o.sfmt, 0x0B)]

/-- `MMA` at issue (R194). -/
def mmaEffect (s : State) (k : Nat) (h : Head) (pr : Prog) : State :=
  let o := mmaOps h.word
  let s := s.modStation k (fun st => { (st.enterGroup o.group o.nrows) with mulq := st.mulq ++ [pr.id] })
  match o.kind with
  | 0 => s
  | 1 =>
    let s := s.claim k (o.src % 16) (ceilDiv o.nrows 256) pr.id
    match (s.station k).prog pr.id with
    | some pr => s.matchMma k pr
    | none => s
  | n => s.startTake k h.p (n - 2) (o.src % 65536) pr.id

def mmaRule : DepRule := { op := opMma, form := fun _ h => mmaForm h.word, check := mmaCheck, effect := mmaEffect }

/-- `MMA` (R191 to R194). -/
def execMma (k : Fin 128) (j : Fin 4) (t : IssueTick) (s : State) : Out := .next (issue mmaRule k j t s)

/-- Rows that a complex multiply releases into its group at an offset (R129). -/
def cplxRows (o : CplxOps) (off : Nat) : Nat := ((cplxPasses o.form).filter (fun q => q.grp == off)).length * o.nrows

def cplxCheck (s : State) (k j : Nat) (h : Head) : List Nat :=
  let o := cplxOps h.word
  let st := s.station k
  (cplxGroups o).flatMap (fun g =>
    groupReasons st j g (o.rowOff + o.nrows) o.gseqEn ++
    reasonsOf [((st.group g).isOpen && (st.group g).kind != pathKind (pairPath o.sfmt o.xfmt), 8)])

/-- The stationary tile t of a complex multiply begins its staging (R196, R197); the tile's data is read as it begins. -/
def State.stageCplx (s : State) (k p : Nat) (pr : Prog) (t sc : Nat) : State :=
  let o := cplxOps pr.word
  let st := s.station k
  let pl := storePlane st o.sfmt (o.stat + t * recGran o.sfmt) 0 pr.sect
  (s.setStation k { st with shadow := .staging 0 o.sfmt pr.id (some pl.withRefs) (sc + stagingSc o.sfmt) }).runBad (pl.poison != []) |>.feedPort k p sc
    (recordSc o.sfmt)

/-- The cycle from which the next staging may begin: `sc`, or the end of the R71 wait on the previous switch. -/
def Station.mayStage (st : Station) (sc : Nat) : Nat := match st.switchSc with | some t => max sc (t + 512) | none => sc

/-- `MMA_CPLX` at issue (R197). -/
def cplxEffect (s : State) (k : Nat) (h : Head) (pr : Prog) : State :=
  let o := cplxOps h.word
  let s := s.modStation k (fun st =>
    let st := (cplxGroups o).foldl (fun st g => st.enterGroup g (cplxRows o (g - o.group))) st
    { st with mulq := st.mulq ++ [pr.id] })
  s.stageCplx k h.p pr 0 ((s.station k).mayStage pr.issueSc)

def cplxRule : DepRule := { op := opCplx, form := fun _ h => cplxForm h.word, check := cplxCheck, effect := cplxEffect }

/-- `MMA_CPLX` (R195 to R197). -/
def execMmaCplx (k : Fin 128) (j : Fin 4) (t : IssueTick) (s : State) : Out := .next (issue cplxRule k j t s)

def ballastRule : DepRule :=
  { op := opBallast, form := fun _ h => ballastForm h.word, check := fun _ _ _ _ => [],
    effect := fun s k _ pr => s.modStation k (fun st => { st with mulq := st.mulq ++ [pr.id] }) }

/-- `BALLAST` (R206). -/
def execBallast (k : Fin 128) (j : Fin 4) (t : IssueTick) (s : State) : Out := .next (issue ballastRule k j t s)

/-- STAGING_COMPLETE: the tile is staged and the plane is FULL; a stage of a cancelled section leaves it EMPTY (R70, R187, R188).
A stage from a Siding frees its slot (R190). -/
def execStagingComplete (k : Fin 128) (sc : Nat) (s : State) : Out := s.clocked fun s =>
  match s.phys k with
  | none => .next s
  | some p =>
    let s := s.advanceSc p sc
    let st := s.station k
    match st.shadow with
    | .staging _ _ dep (some pl) doneSc =>
      if s.cycle p < doneSc then .next s
      else
        match st.prog dep with
        | none => .next (s.setStation k { st with shadow := .empty })
        | some pr =>
          let st := { st with shadow := .full pl doneSc }
          if Dep.opcode pr.word = opStage then
            let o := stageOps pr.word
            let st := if o.kind = 1 then st.releasePos (o.src % 16) pr.claim else st
            .next ((((s.setStation k st).finish k dep doneSc).noteHeads (s.station k) k).noteFills k)
          else .next ((s.setStation k st).noteHeads (s.station k) k)
    | _ => .next s

/-- What the next valid row is. -/
inductive Feed where
  /-- Nothing can enter. -/
  | wait
  /-- A matched format that the departure cannot use (R184). -/
  | bad (pr : Prog) (reason : Nat)
  /-- A row that R82 discarded enters again. -/
  | again (r : Row)
  /-- A row of a departure, from this record, with the switch to a tile before it. -/
  | row (pr : Prog) (pass tileRow group x c path : Nat) (neg isat : Bool) (tile strm : Plane) (switches : Bool)
      (frees : Option (Nat × Nat))
deriving DecidableEq, Repr

/-- The record from which streamed row n of an `MMA` comes (R193). -/
def mmaRecord (s : State) (k p : Nat) (pr : Prog) (o : MmaOps) (n : Nat) : Option Plane :=
  let st := s.station k
  match o.kind with
  | 0 => some (storePlane st o.xfmt (o.src + n / 256 * recGran o.xfmt) 0 pr.sect)
  | 1 =>
    let d := st.siding (o.src % 16)
    (d.filled (pr.claim + n / 256)).map (fun pos => ⟨pos.desc, d.bytes st pos, d.poisoned st pos, 0, pr.sect, [], []⟩)
  | l =>
    match (s.hop p (l - 2)).held, (s.hop p (l - 2)).mode with
    | some c, .given id first =>
      if id = pr.id ∧ first = n / 256 * 256 ∧ 1 + rowFlits c.fmt (n % 256) ≤ (s.hop p (l - 2)).read then some (c.plane 0) else none
    | _, _ => none

/-- Tile row that streamed row n reaches (R192). -/
def mmaTileRow (g : Group) (o : MmaOps) (n : Nat) : Nat :=
  let u := o.rowOff + n % o.span
  if g.kind = 2 then g.base + 2 * u else g.base + u

/-- The next row at the array's entrance, if its data and its tile are there (R69, R71, R73, R187). -/
def State.nextRow (s : State) (k p sc : Nat) : Feed :=
  let st := s.station k
  match st.redo with
  | r :: _ => if st.redoFrom ≤ sc then .again r else .wait
  | [] =>
    match st.mulq with
    | [] => .wait
    | id :: _ =>
      match st.prog id with
      | none => .wait
      | some pr =>
        let op := Dep.opcode pr.word
        if op = opMma then
          let o := mmaOps pr.word
          let n := pr.next
          let fresh := n == 0 && o.tag != 0
          let tile := if fresh then (match st.shadow with
              | .full pl d => if pl.tag = o.tag ∧ d + 1 ≤ sc then some pl else none
              | _ => none)
            else st.active
          match tile, mmaRecord s k p pr o n with
          | some w, some x =>
            if x.desc ≠ o.xfmt then .bad pr 6
            else
              let last := n % 256 = 255 ∨ n + 1 = o.nrows
              .row pr 0 (mmaTileRow (st.group o.group) o n) o.group (n % 256) (pairCycles o.sfmt o.xfmt)
                (pairPath o.sfmt o.xfmt) o.neg o.isat w x fresh
                (if o.kind = 1 ∧ last then some (o.src % 16, pr.claim + n / 256) else none)
          | _, _ => .wait
        else if op = opCplx then
          let o := cplxOps pr.word
          let passes := cplxPasses o.form
          match passes[pr.pass]? with
          | none => .wait
          | some q =>
            let before := if pr.pass = 0 then none else (passes[pr.pass - 1]?).map (fun b => b.tile)
            let fresh := pr.next == 0 && before != some q.tile
            let tile := if fresh then (match st.shadow with
                | .full pl d => if d + 1 ≤ sc then some pl else none
                | _ => none)
              else st.active
            match tile with
            | some w =>
              let g := o.group + q.grp
              let x := storePlane st o.xfmt (o.src + q.strm * recGran o.xfmt) 0 pr.sect
              let u := o.rowOff + pr.next
              let r := if (st.group g).kind = 2 then (st.group g).base + 2 * u else (st.group g).base + u
              .row pr pr.pass r g pr.next (pairCycles o.sfmt o.xfmt) (pairPath o.sfmt o.xfmt) q.neg o.isat w x fresh none
            | none => .wait
        else .wait

/-- Is the array's entrance free of the previous valid row, and of an invalid row that entered at this very cycle (R68, R73, R206),
with no verdict due before `sc`? -/
def entranceFree (st : Station) (sc : Nat) : Bool :=
  (match st.lastEntry with | some (t, c) => decide (t + c ≤ sc) | none => true) &&
  (match st.lastInvalid with | some (t, _) => decide (t < sc) | none => true) &&
  st.inArray.all (fun r => r.judged || decide (sc ≤ r.entry + 516 + r.c))

/-- Is there anything at the entrance? -/
def Feed.some : Feed → Bool
  | .wait => false
  | _ => true

/-- The rows of a quiet Station are withheld (R393). -/
def Feed.granted : Feed → Bool → Feed
  | .bad pr reason, _ => .bad pr reason
  | f, true => f
  | _, false => .wait

/-- The reads of a row about to enter find uncorrected errors in the store (R307). -/
def Feed.found (f : Feed) (s : State) (k : Nat) (bad : List Nat) : State :=
  match f with
  | .row pr _ _ _ _ _ _ _ _ _ _ _ _ => s.storeErrors k pr.id.line pr.sect pr.id.index bad
  | _ => s

/-- A valid row has entered at cycle `sc`: a request of the Station to fall is cancelled (R393). -/
def State.enteredValid (s : State) (k sc : Nat) : State :=
  { s with power := { s.power with validSc := tset s.power.validSc k sc,
                                   meterQ := s.power.meterQ.filter (fun r => r.k != k || r.rise) } }

/-- The departure of a row moves on: the next row or pass, and off the array's queue after its last row (R69, R197). -/
def State.rowTaken (s : State) (k p : Nat) (pr : Prog) (sc : Nat) (switches : Bool) : State :=
  let op := Dep.opcode pr.word
  if op = opMma then
    let o := mmaOps pr.word
    let n := pr.next + 1
    let s := s.modProg k pr.id (fun x => { x with next := n })
    let s := if n = o.nrows then s.modStation k (fun st => { (st.dropTake pr.id) with mulq := st.mulq.drop 1 }) else s
    if 2 ≤ o.kind then s.pump p (o.kind - 2) else s
  else
    let o := cplxOps pr.word
    let passes := cplxPasses o.form
    let ends := pr.next + 1 = o.nrows
    let s := s.modProg k pr.id (fun x =>
      if ends then { x with next := 0, pass := x.pass + 1 } else { x with next := x.next + 1 })
    let s := if ends ∧ pr.pass + 1 = passes.length then s.modStation k (fun st => { st with mulq := st.mulq.drop 1 }) else s
    if switches then
      let tile := (passes[pr.pass]?).map (fun q => q.tile)
      match (passes.drop pr.pass).find? (fun q => some q.tile != tile) with
      | some q => s.stageCplx k p pr q.tile (sc + 512)
      | none => s
    else s

/-- Cycles for which a row that enters is read through the array-feed port: not one that comes from a line (R86). They are taken to
begin with its entry (DESIGN CHOICE, notes/assumptions/15.md). -/
def Prog.feedSc (pr : Prog) : Nat :=
  if Dep.opcode pr.word = opMma then (if (mmaOps pr.word).kind < 2 then rowSc (mmaOps pr.word).xfmt else 0)
  else rowSc (cplxOps pr.word).xfmt

/-- The stall before a row that enters for the first time, at cycle `sc`, by cause (R167): a retry of R82, the wait for the tile, an empty
Siding, a line, or the store. A complex multiply's own stagings are no stall. -/
def Prog.rowGap (pr : Prog) (st : Station) (sc : Nat) (switches : Bool) : Nat × Nat :=
  let free := if pr.next = 0 ∧ pr.pass = 0 then (match st.lastEntry with | some (t, c) => t + c | none => 0) else 0
  let gap := sc - max pr.due free
  let mma := Dep.opcode pr.word == opMma
  let kind := if mma then (mmaOps pr.word).kind else 0
  if pr.redone then (5, gap)
  else if switches then (3, if mma then gap else 0)
  else (if kind = 1 then 1 else if 2 ≤ kind then 4 else 3, gap)

/-- ROW_ENTRY: the next valid row enters at the first cycle that its data, its tile and the entrance allow (R71, R73, R81,
R82). Of a row that enters twice, the second entry is the one from which its verdict and its release are counted: the spec does not say
which (DESIGN CHOICE, notes/assumptions/29.md). -/
def execRowEntry (k : Fin 128) (sc : Nat) (bad : List Nat) (s : State) : Out := s.clocked fun s =>
  match s.phys k with
  | none => .next s
  | some p =>
    let s := s.advanceSc p sc
    let sc := s.cycle p
    if !entranceFree (s.station k) sc then .next s
    else
      let s := ((s.nextRow k p sc).granted (s.power.active.contains k.val)).found s k bad
      let st := s.station k
      match (s.nextRow k p sc).granted (s.power.active.contains k.val) with
      | .wait => .next s
      | .bad pr reason => .next (s.malformedProg k pr reason)
      | .again r =>
        let s := s.enteredValid k sc
        let extra := if r.dup then r.c else 0
        let s := s.setStation k { st with redo := st.redo.drop 1, prodTime := r.c, lastEntry := some (sc + extra, r.c), lastInvalid := none,
                                          inArray := st.inArray ++ [{ r with entry := sc + extra, judged := false }] }
        .next (match st.prog r.dep with | some pr => s.feedPort k p sc pr.feedSc | none => s)
      | .row pr pass tileRow g x pc path neg isat w strm switches frees =>
        match Fmt.ofDesc w.desc, Fmt.ofDesc strm.desc with
        | some sf, some xf =>
          let dup := rowTwice path sf xf w strm.bytes x
          let xs := rowElems xf strm.bytes x
          let cols := rowPoisonCols sf xf w.poison strm.poison x
          let extra := if dup then pc else 0
          let row : Row :=
            { dep := pr.id, t := pr.next, pass := pass, entry := sc + extra, c := pc, group := g, tileRow := tileRow,
              sums := rowSums path sf xf w.bytes strm.bytes x, exps := rowExps path sf xf w.bytes strm.bytes x, neg := neg,
              refs := refSums path w.refs xs, bound := boundSum path w.mags xs,
              terms := rowTerms path sf xf w.bytes strm.bytes x neg, poison := cols, nterms := pathTerms path, path := path,
              isat := isat, dup := dup, ovf := rowOvf path sf xf w.bytes strm.bytes x,
              judged := false, retried := false, frees := frees }
          let st := { st with inArray := st.inArray ++ [row], prodTime := pc, lastEntry := some (sc + extra, pc),
                                lastInvalid := none }
          let was := s.station k
          let st := if switches then { st with active := some w, shadow := .empty, switched := some s.time.lt, switchSc := some sc }
                    else st
          let s := (s.setStation k st).enteredValid k sc
          let s := s.bump .mmaSwitch p (if switches then 1 else 0)
          let s := s.bump .abftDup p (if dup then 1 else 0)
          let gap := pr.rowGap was sc switches
          let s := (s.modProg k pr.id (fun x => { x with
            due := sc + extra + pc, redone := false, reachLt := if (pr.next + 1) % 256 = 0 then s.time.lt else x.reachLt })).stall k pr.id gap.1 gap.2
          .next ((((s.runBad (cols != [])).feedPort k p sc pr.feedSc).rowTaken k p pr sc switches).noteHeads was k)
        | _, _ => .next s

/-- Is a `BALLAST` at the array's entrance? -/
def ballastAt (st : Station) : Option Prog :=
  match st.mulq with
  | id :: _ => match st.prog id with
    | some pr => if Dep.opcode pr.word = opBallast then some pr else none
    | none => none
  | [] => none

/-- Product time of an invalid row (R73): that of the `BALLAST` that enters it, else that of the last departure whose row has
entered, within which or after which it stands. -/
def invalidCycles (st : Station) : Nat :=
  match ballastAt st with
  | some pr => prodCycles (ballastOps pr.word).fmt
  | none => st.prodTime

/-- INVALID_ROW_ENTRY: with the entrance free and no valid row to enter, the feeder of an active Station enters a Ballast row, of a
`BALLAST` or of its own, and that of a quiet Station a bubble, in place of any row that is withheld (R72 to R74, R206, R393). -/
def execInvalidRowEntry (k : Fin 128) (sc : Nat) (s : State) : Out := s.clocked fun s =>
  match s.phys k with
  | none => .next s
  | some p =>
    let s := s.advanceSc p sc
    let sc := s.cycle p
    let st := s.station k
    let free := entranceFree st sc && (match st.lastInvalid with | some (t, c) => decide (t + c ≤ sc) | none => true)
    let active := s.power.active.contains k.val
    let next := s.nextRow k p sc
    if !free || (next.granted active).some then .next s
    else
      let st' := { st with lastInvalid := some (sc, invalidCycles st), prodTime := invalidCycles st }
      match ballastAt st, active with
      | b, false =>
        let s := (s.setStation k st').bump .rowsBubble p 1
        .next (s.bump .govWithheldSc p (if next.some || b.isSome then invalidCycles st else 0))
      | some pr, true =>
        let n := pr.next + 1
        let s := (s.setStation k st').modProg k pr.id (fun x => { x with next := n })
        let s := s.bump .rowsBallast p 1
        if n = (ballastOps pr.word).nrows then
          .next (((s.modStation k (fun st => { st with mulq := st.mulq.drop 1 })).finish k pr.id sc).noteHeads st k)
        else .next s
      | none, true => .next ((s.setStation k st').bump .rowsBallast p 1)

/-- A mismatch discards the row and every row behind it, which enter again in order 4 sc after the verdict (R82). -/
def retryRow (st : Station) (r : Row) (rest : List Row) (verdict : Nat) : Station :=
  let again := { r with retried := true, judged := false } ::
    rest.map (fun x => { x with retried := false, judged := false })
  { st with inArray := st.inArray.filter (fun x => x.judged), redo := again ++ st.redo, redoFrom := verdict + 4,
            lastEntry := none, lastInvalid := none }

/-- CHECK_VERDICT: the corner judges the oldest row not yet judged, at the cycle that R68 gives (R80 to R83). A fault that the
check does not see goes on in the row's terms. -/
def execCheckVerdict (k : Fin 128) (faults : List RowFault) (now : Nat) (s : State) : Out := s.clocked fun s =>
  let s := s.advance now
  match s.phys k, (s.station k).inArray.filter (fun x => !x.judged) with
  | some p, r :: rest =>
    let out := r.verdict faults
    let verdict := r.entry + 516 + r.c
    let s := s.advanceSc p verdict
    let st := s.station k
    if !out.1 then
      .next (s.setStation k { st with
        inArray := st.inArray.filter (fun x => x.judged) ++ { r with judged := true, terms := out.2 } :: rest })
    else if r.retried then
      let s := s.setStation k { st with inArray := st.inArray.filter (fun x => x.judged), redo := [], mulq := [] }
      .next (s.stationCheck p 1 { EvtRec.blank with lstation := k, line := r.dep.line, index := r.dep.index })
    else
      let s := s.setStation k (retryRow st r rest verdict)
      let s := s.modStation k (fun st => { st with
        progs := st.progs.map (fun x => if (r :: rest).any (fun q => q.dep == x.id) then { x with redone := true } else x) })
      .next ((s.bump .abftRetry p 1).bump .rowsDiscarded p (1 + rest.length))
  | _, _ => .next s

/-- ROW_RELEASE: the oldest row, once judged good, hands its terms to the adder tree 520 + c cycles after its entry (R68,
R69), and frees the Siding slot of which it is the last row (R84). -/
def execRowRelease (k : Fin 128) (s : State) : Out := s.clocked fun s =>
  match s.phys k, (s.station k).inArray with
  | some p, r :: rest =>
    if !r.judged then .next s
    else
      let at' := r.entry + 520 + r.c
      let s := s.advanceSc p at'
      let st := s.station k
      let st := { st with inArray := rest, tree := st.tree ++ [(at', r)] }
      let st := match r.frees with | some (sid, n) => st.releasePos sid n | none => st
      .next (((s.setStation k st).bump .rowsValid p 1).noteFills k)
  | _, _ => .next s

end Sys2Proof.Machine
end

