-- ==== Sys2Proof/Machine/Accum.lean ====
section
/-! DEFINITION. Accumulator memory (05_accumulators_and_reductions.md): its entries and row status, group open and close, the
adder tree's writes and the cascade spills. -/

namespace Sys2Proof.Machine

open Sys2Proof

/-- A flag as a bit. -/
def flag (b : Bool) : Nat := if b then 1 else 0

/-- Group state record (R115). -/
def Group.word (g : Group) : Nat :=
  place g.inFlight 80 + place g.openSection 64 + place g.nextSeq 48 + place g.owner 32 + place (flag g.isOpen) 31 +
  place g.partner 28 + place (flag g.isPartner) 27 + place (flag g.cascade) 26 + place (flag g.orderFixed) 25 + place g.kind 23 +
  place g.count 11 + g.base

/-- `ROW_STATUS` word (R113). -/
def RowStatus.word (r : RowStatus) : Nat :=
  place (flag r.longSum) 31 + place (flag r.cancelMark) 30 + place (flag r.clear) 29 + r.termCount

/-- The entry format of a group `KIND` (R115). -/
def kindElem : Nat → Elem
  | 1 => .acc48i
  | 2 => .acc96
  | _ => .acc48

/-- Codes of the 256 entries of a tile row, as stored. -/
def Station.accRow (st : Station) (r : Nat) : List Nat := tget (List.replicate 256 0) st.acc r

/-- The values that a tile row (a pair, in ACC96) reads as (R51, R114). -/
def Station.accVals (st : Station) (kind r : Nat) : List Val :=
  if (st.row r).clear then List.replicate 256 .zero
  else if kind = 2 then
    (List.zip (st.accRow r) (st.accRow (r + 1))).map (fun q => Elem.acc96.decode false (q.1 + place q.2 48))
  else (st.accRow r).map ((kindElem kind).decode false)

/-- The columns of a tile row whose poison bit reads as set (R114, R121). Of an ACC96 pair the lower row is read, for `ROW_STATUS`
too: the spec keeps the two alike but not where a group opens without `CLEAR` over rows that differ, and there they stay different until
they are written (DESIGN CHOICE, notes/assumptions/29.md). -/
def Station.accPoisonCols (st : Station) (r : Nat) : List Nat :=
  if (st.row r).clear then [] else (List.range 256).filter (fun i => st.accPoison.contains (256 * r + i))

/-- Tile rows of one entry row: two in ACC96. -/
def kindRows (kind r : Nat) : List Nat := if kind = 2 then [r, r + 1] else [r]

/-- The entries of a tile row, or pair, are written with their poison bits. -/
def Station.accWrite (st : Station) (kind r : Nat) (vals : List Val) (poison : List Nat) : Station :=
  let codes := vals.map (accCode (kindElem kind))
  let acc := if kind = 2 then tset (tset st.acc r (codes.map (fun c => field c 47 0))) (r + 1) (codes.map (fun c => field c 95 48))
    else tset st.acc r codes
  let bits := (kindRows kind r).foldl (fun p x =>
    poison.foldl (fun p i => numInsert p (256 * x + i)) (p.filter (fun e => e / 256 != x))) st.accPoison
  { st with acc := acc, accPoison := bits }

/-- Every `ROW_STATUS` of a tile row, or pair (R113). -/
def Station.statusWrite (st : Station) (kind r : Nat) (v : RowStatus) : Station :=
  (kindRows kind r).foldl (fun st x => st.setRow x v) st

/-- `CLEAR` is set (R113 to R115). -/
def Station.clearRow (st : Station) (r : Nat) : Station := st.setRow r RowStatus.init

def Station.clearRows (st : Station) (base count : Nat) : Station :=
  (List.range count).foldl (fun st i => st.clearRow (base + i)) st

/-- `CANCEL_MARK` is set in a tile row (R135). -/
def Station.markRow (st : Station) (r : Nat) : Station := st.setRow r { st.row r with cancelMark := true }

/-- Is a value outside the range of ACC48I (R42)? -/
def accBeyond (x : Val) : Bool := x.lt (.ofInt (-(2 ^ 47))) || Val.lt (.ofInt (2 ^ 47 - 1)) x

/-- The exact sum of an entry and one term, before ACC48I saturates or wraps it. -/
def accExact (x t : Val) : Val := Val.add false x t

/-- One addition into an entry (R42, R49, R51). -/
def accAdd (kind : Nat) (isat : Bool) (x t : Val) : Val :=
  match kind with
  | 1 => Elem.acc48i.decode false (Elem.acc48i.conv isat .rne 0 (accExact x t)).code
  | 2 => acc96Arith.add .rne x t
  | _ => acc48Arith.add .rne x t

/-- An entry after a row's terms, one by one (R119). -/
def accTerms (kind : Nat) (isat : Bool) (x : Val) (ts : List Val) : Val := ts.foldl (accAdd kind isat) x

/-- `ROW_STATUS` after `n` more terms (R114, R125). -/
def RowStatus.addTerms (v : RowStatus) (n : Nat) : RowStatus :=
  let v := if v.clear then { RowStatus.init with cancelMark := v.cancelMark, clear := false } else v
  if 2 ^ 24 ≤ v.termCount + n then { v with termCount := 0xFFFFFF, longSum := true }
  else { v with termCount := v.termCount + n }

/-- The `LONG_SUM` event of a group's first tile row to stick (R125). Its record names no context: the spec does not say that it does
(DESIGN CHOICE, notes/assumptions/29.md). -/
def State.longSum (s : State) (k g r : Nat) (before after : RowStatus) : State :=
  let x := (s.station k).group g
  if after.longSum && !before.longSum && !x.longSum then
    let s := s.modStation k (fun st => st.setGroup g { x with longSum := true })
    let p := (s.phys k).getD 255
    (s.bump .accLongSum p 1).emit { EvtRec.blank with code := 2, pstation := p, lstation := k,
                                                       loc := place g 61 + place r 50 }
  else s

/-- State check of `GROUP_OPEN` (R116, R208): an open slot, and tile rows of an open group. -/
def openCheck (s : State) (k _j : Nat) (h : Head) : List Nat :=
  let o := openOps h.word
  let st := s.station k
  let rows := (o.base, o.count) :: (if o.cascade then [(o.partnerBase, o.count)] else [])
  let taken := (List.range 8).any (fun i =>
    let g := st.group i
    g.isOpen && rows.any (fun r => decide (r.1 < g.base + g.count ∧ g.base < r.1 + r.2)))
  reasonsOf [((st.group o.slot).isOpen || (o.cascade && (st.group o.partner).isOpen), 7), (taken, 7)]

/-- The state record that `GROUP_OPEN` fills (R207). The partner takes `ORDER_FIXED`, `OWNER` and `OPEN_SECTION` of the primary too,
where the spec names `KIND` and `COUNT` alone (DESIGN CHOICE, notes/assumptions/29.md). -/
def openGroup (o : OpenOps) (j sect : Nat) (partnerSlot : Bool) : Group :=
  { Group.init with
    isOpen := true, base := if partnerSlot then o.partnerBase else o.base, count := o.count, kind := o.kind,
    orderFixed := o.orderFixed, cascade := o.cascade && !partnerSlot, isPartner := partnerSlot,
    partner := if o.cascade then (if partnerSlot then o.slot else o.partner) else 0, owner := j, openSection := sect }

def openEffect (s : State) (k : Nat) (h : Head) (pr : Prog) : State :=
  let o := openOps h.word
  let st := (s.station k).setGroup o.slot (openGroup o pr.id.line h.sect false)
  let st := if o.cascade then st.setGroup o.partner (openGroup o pr.id.line h.sect true) else st
  let st := if o.clear then st.clearRows o.base o.count else st
  let st := if o.clear && o.cascade then st.clearRows o.partnerBase o.count else st
  (s.setStation k st).finish k pr.id (pr.issueSc + 1)

def openRule : DepRule := { op := opOpen, form := fun _ h => openForm h.word, check := openCheck, effect := openEffect }

/-- `GROUP_OPEN` (R115, R116, R207). -/
def execGroupOpen (k : Fin 128) (j : Fin 4) (t : IssueTick) (s : State) : Out := .next (issue openRule k j t s)

/-- The slot, or both slots of a cascaded pair, are freed (R132). The other fields of a freed slot's record, which the spec does not
give, are zeroed (DESIGN CHOICE, notes/assumptions/29.md). -/
def Station.freeGroup (st : Station) (g : Nat) : Station :=
  let x := st.group g
  let st := st.setGroup g Group.init
  if x.cascade then st.setGroup x.partner Group.init else st

/-- Is nothing in flight in every group of a list (R130)? -/
def Station.quiet (st : Station) (gs : List Nat) : Bool := gs.all (fun g => (st.group g).inFlight == 0)

def closeEffect (s : State) (k : Nat) (h : Head) (pr : Prog) : State :=
  let o := closeOps h.word
  let st := (s.station k).enterGroup o.slot 0
  let st := st.setGroup o.slot { st.group o.slot with closing := true }
  if st.quiet [o.slot] then (s.setStation k (st.freeGroup o.slot)).finish k pr.id pr.issueSc
  else s.setStation k { st with waits := st.waits ++ [{ dep := pr.id, isClose := true, groups := [o.slot], since := pr.issueSc }] }

def closeRule : DepRule :=
  { op := opClose, form := fun _ h => closeForm h.word,
    check := fun s k j h => groupReasons (s.station k) j (closeOps h.word).slot 0 (closeOps h.word).gseqEn,
    effect := closeEffect }

/-- `GROUP_CLOSE` (R132, R208). -/
def execGroupClose (k : Fin 128) (j : Fin 4) (t : IssueTick) (s : State) : Out := .next (issue closeRule k j t s)

/-- The uncorrected error of an entry as it is read (R123): its canonical NaN, or 0 in ACC48I, and its poison bit. -/
def accStrike (kind col : Nat) (vals : List Val) : List Val :=
  vals.mapIdx (fun i x => if i = col then (if kind = 1 then .zero else .nan) else x)

/-- The report of an uncorrected error in an entry of tile row `r` (R123). -/
def State.accReport (s : State) (k p r col : Nat) : State :=
  (s.bump .accEccUncorrected p 1).flowingError
    { EvtRec.blank with pstation := p, lstation := k, loc := place 5 60 + place r 28 + place col 20 }

/-- One error found by a read of tile row `r` (or pair), counted, and marked in the entry where it cannot be corrected (R123); in a pair
the error names the row of its half. A row under `CLEAR` reads as +0 whatever bits it holds (R113), so an error in it is neither counted
nor reported (DESIGN CHOICE, notes/assumptions/29.md). -/
def State.accError (s : State) (k p kind r : Nat) (e : AccError) : State :=
  let st := s.station k
  if (st.row r).clear then s
  else if e.corrected then s.bump .accEccCorrected p 1
  else
    (s.setStation k (st.accWrite kind r (accStrike kind e.col (st.accVals kind r)) (numInsert (st.accPoisonCols r) e.col))).accReport
      k p e.row e.col

/-- The errors of a list that lie in a tile row, or pair. -/
def errorsIn (kind r : Nat) (errs : List AccError) : List AccError :=
  errs.filter (fun e => (kindRows kind r).contains e.row && decide (e.col < 256))

/-- The errors that reads of tile rows, or pairs, find (R123). -/
def State.accErrors (s : State) (k p kind : Nat) (rows : List Nat) (errs : List AccError) : State :=
  rows.foldl (fun s r => (errorsIn kind r errs).foldl (fun s e => s.accError k p kind r e) s) s

/-- A row's terms are added to the entries that it reaches. -/
def Station.addRow (st : Station) (r : Row) (kind : Nat) (vals : List Val) (poison : List Nat) (cut : Bool) : Station :=
  let v := (st.row r.tileRow).addTerms r.nterms
  let v := if cut then { v with cancelMark := true } else v
  let sums := (List.zip vals r.terms).map (fun q => accTerms kind r.isat q.1 q.2)
  let st := st.accWrite kind r.tileRow sums (r.poison.foldl numInsert poison)
  st.statusWrite kind r.tileRow v

/-- Cycles from a spill's trigger to its write into the partner (R120). -/
def spillSc : Nat := 8

/-- The spill of a primary row that has reached 2^16 terms at cycle `sc` (R127): its values leave, to be written 8 sc later (R120), and
the row restarts from +0. A row that the group found with terms in it can step over 2^16, and spills then. -/
def Station.trigger (st : Station) (g r sc : Nat) : Station :=
  let x := st.group g
  let v := st.row r
  if x.cascade && decide (65536 ≤ v.termCount) then
    let sp : Spill := { slot := g, tileRow := r, values := st.accVals x.kind r, poison := st.accPoisonCols r,
                        mark := v.cancelMark, trigger := sc, hold := st.treeHold }
    let st' := { st with spills := st.spills ++ [sp], treeLast := max st.treeLast (sc + spillSc) }
    let st' := st'.accWrite x.kind r (List.replicate 256 .zero) []
    let st' := st'.statusWrite x.kind r { v with termCount := 0 }
    st'.setGroup g { x with inFlight := x.inFlight + 1 }
  else st

/-- Valid rows that a multiply releases in all (R129). -/
def progRows (word : BitVec 256) : Nat :=
  if Dep.opcode word = opMma then (mmaOps word).nrows
  else (cplxPasses (cplxOps word).form).length * (cplxOps word).nrows

/-- The row's last term is written: `IN_FLIGHT` falls, and the multiply completes with its last row (R129, R157). -/
def Station.rowWritten (st : Station) (r : Row) (sc : Nat) : Station :=
  let x := st.group r.group
  let st := st.setGroup r.group { x with inFlight := x.inFlight - 1, lastWrite := max x.lastWrite sc }
  st.modProg r.dep (fun p =>
    { p with written := p.written + 1,
             doneSc := if p.written + 1 = progRows p.word then some sc else p.doneSc })

/-- Was the multiply of a row cut by a cancel (R135)? One that is no longer in progress was. -/
def Station.wasCut (st : Station) (id : DepId) : Bool := (st.prog id).isNone

/-- Did any entry leave the range of ACC48I by this row (R199)? -/
def rowBeyond (kind : Nat) (vals : List Val) (terms : List (List Val)) : Bool :=
  kind == 1 && (List.zip vals terms).any (fun q => accBeyond (accExact q.1 (q.2.headD .zero)))

/-- Rows of the FP64 chain of which a chain or an entry overflowed from finite operands (R200). -/
def rowOverflows (r : Row) (kind : Nat) (vals sums : List Val) : Bool :=
  kind == 2 && (r.ovf || (List.zip (List.zip vals r.terms) sums).any (fun q =>
    q.2.isInf && !q.1.1.isInf && !q.1.2.any Val.isInf))

/-- The shift that adder-tree retries have added: it lasts until the tree holds no term (R122). -/
def Station.holdFor (st : Station) (released : Nat) : Nat := if st.treeLast + 2 ≤ released then 0 else st.treeHold

/-- Additions of the adder tree that the residue check found wrong once (R122): 6 sc of hold and one event each. -/
def State.residues (s : State) (p retries : Nat) (fatal : Bool) : State :=
  s.bump .accResidueRetry p (retries + if fatal then 1 else 0)

def retryHold (retries : Nat) (fatal : Bool) : Nat := 6 * (retries + if fatal then 1 else 0)

/-- The oldest released row is written at cycle `sc`, with what its reads found already in the entries (R119 to R121, R125, R127,
R129). -/
def State.termsWritten (s : State) (k p : Nat) (r : Row) (sc : Nat) : State :=
  let st := s.station k
  let kind := (st.group r.group).kind
  let before := st.row r.tileRow
  let vals := st.accVals kind r.tileRow
  let st' := st.addRow r kind vals (st.accPoisonCols r.tileRow) (st.wasCut r.dep)
  let after := st'.row r.tileRow
  let sums := (List.zip vals r.terms).map (fun q => accTerms kind r.isat q.1 q.2)
  let s := s.setStation k ((st'.trigger r.group r.tileRow sc).rowWritten r sc)
  let s := s.longSum k r.group r.tileRow before after
  let s := s.bump .mmaIntRange p (if rowBeyond kind vals r.terms then 1 else 0)
  s.bump .mmaAcc96Ovf p (if rowOverflows r kind vals sums then 1 else 0)

/-- ACC_TERM_WRITE: the oldest released row is added into its tile row (R119 to R123, R125, R127, R129). -/
def execAccTermWrite (k : Fin 128) (retries : Nat) (fatal : Bool) (errs : List AccError) (now : Nat) (s : State) : Out :=
  s.clocked fun s =>
  let s := s.advance now
  match s.phys k, (s.station k).tree with
  | some p, (released, r) :: rest =>
    let st := s.station k
    let hold := st.holdFor released + retryHold retries fatal
    let sc := released + pathWrite r.path + hold
    let s := (s.advanceSc p sc).residues p retries fatal
    let s := s.setStation k { st with tree := rest, treeHold := hold, treeLast := max st.treeLast sc }
    if fatal then .next (s.stationCheck p 2 { EvtRec.blank with lstation := k, line := r.dep.line, index := r.dep.index })
    else .next ((s.accErrors k p (st.group r.group).kind [r.tileRow] errs).termsWritten k p r sc)
  | _, _ => .next s

/-- A spill's values as its read of the primary row finds them (R123, R127): a struck entry leaves with its poison bit. -/
def Spill.read (x : Spill) (kind : Nat) (errs : List AccError) : Spill :=
  ((errorsIn kind x.tileRow errs).filter (fun e => !e.corrected)).foldl
    (fun x e => { x with values := accStrike kind e.col x.values, poison := numInsert x.poison e.col }) x

/-- The errors of the read of the primary row are counted and reported. -/
def State.spillErrors (s : State) (k p kind : Nat) (x : Spill) (errs : List AccError) : State :=
  (errorsIn kind x.tileRow errs).foldl
    (fun s e => if e.corrected then s.bump .accEccCorrected p 1 else s.accReport k p e.row e.col) s

/-- The oldest spill is written at cycle `sc`, one term in each entry of the partner's tile row (R127, R129). -/
def State.spillWritten (s : State) (k p : Nat) (x : Spill) (sc : Nat) : State :=
  let st := s.station k
  let g := st.group x.slot
  let r := (st.group g.partner).base + (x.tileRow - g.base)
  let before := st.row r
  let after := before.addTerms 1
  let after := if x.mark then { after with cancelMark := true } else after
  let sums := (List.zip (st.accVals g.kind r) x.values).map (fun v => accAdd g.kind false v.1 v.2)
  let st' := st.accWrite g.kind r sums (x.poison.foldl numInsert (st.accPoisonCols r))
  let st' := (st'.statusWrite g.kind r after).setGroup x.slot
    { g with inFlight := g.inFlight - 1, lastWrite := max g.lastWrite sc }
  ((s.setStation k st').longSum k g.partner r before after).bump .accCascadeSpill p 1

/-- CASCADE_SPILL: the oldest spill is added into the partner's tile row 8 sc after its trigger, later by what retries have added since
(R120, R122, R123, R127). -/
def execCascadeSpill (w : SpillWork) (s : State) : Out := s.clocked fun s =>
  let k := w.station
  match s.phys k, (s.station k).spills with
  | some p, x :: rest =>
    let st := s.station k
    let sc := x.trigger + spillSc + (st.treeHold - x.hold) + retryHold w.retries w.fatal
    let g := st.group x.slot
    let s := (s.advanceSc p sc).residues p w.retries w.fatal
    let s := s.setStation k { st with spills := rest, treeHold := st.treeHold + retryHold w.retries w.fatal, treeLast := max st.treeLast sc }
    if w.fatal then .next (s.stationCheck p 2 { EvtRec.blank with lstation := k })
    else
      let s := (s.spillErrors k p g.kind x w.errs).accErrors k p g.kind [(st.group g.partner).base + (x.tileRow - g.base)] w.errs
      .next (s.spillWritten k p (x.read g.kind w.errs) sc)
  | _, _ => .next s

end Sys2Proof.Machine
end

