-- ==== Sys2Proof/Machine/DrainPath.lean ====
section
/-! DEFINITION. The drain path (08_drain_path_and_vectors.md): drains, conversions, functions, elementwise work, normalisation
and statistics. A departure makes its reads and writes row by row at its issue, or at the end of its interlock; the cycles of
R218 decide when it completes. -/

namespace Sys2Proof.Machine

open Sys2Proof

/-- A value with its poison (R210). -/
abbrev PVal := Val × Bool

/-- Is any byte of a bit range of the store, from byte `a`, in a poisoned granule (R48)? -/
def bitsPoisoned (st : Station) (a lo len : Nat) : Bool :=
  (granulesOf (a + lo / 8) ((lo + len - 1) / 8 + 1 - lo / 8)).any st.storePoison.contains

/-- Row k of a store operand, every element with its block scale (R46 to R48, R210, R213). -/
def rowOperand (st : Station) (desc src k : Nat) : List PVal :=
  match Fmt.ofDesc desc with
  | none => []
  | some f =>
    let r0 := 64 * src + k / 256 * f.recordBytes
    let a := r0 + k % 256 * f.rowBytes
    let sa := r0 + 256 * f.rowBytes + k % 256 * f.blocks
    let num := memReadNat st.store a f.rowBytes
    (List.range 256).map (fun j =>
      let code := elemCode f num j
      let bad := bitsPoisoned st a (f.elem.bits * j) f.elem.bits
      if f.isMx then
        let b := j / f.block
        (mxValue f.elem (memRead st.store (sa + b)).toNat code, bad || st.storePoison.contains ((sa + b) / 64))
      else (f.elem.decode false code, bad))

/-- Element k of a dense vector of n elements (R231). -/
def denseElem (st : Station) (desc src n k : Nat) : PVal :=
  match Fmt.ofDesc desc with
  | none => (.zero, false)
  | some f =>
    let bits := f.elem.bits
    let a := 64 * src
    let first := bits * k / 8
    let num := memReadNat st.store (a + first) ((bits * k + bits - 1) / 8 + 1 - first)
    let code := (num / 2 ^ (bits * k - 8 * first)) % 2 ^ bits
    let bad := bitsPoisoned st a (bits * k) bits
    if f.isMx then
      let sa := a + 64 * ceilDiv (ceilDiv (n * bits) 8) 64 + k / f.block
      (mxValue f.elem (memRead st.store sa).toNat code, bad || st.storePoison.contains (sa / 64))
    else (f.elem.decode false code, bad)

/-- Element i of a row of FP32 values that starts at a granule. -/
def fp32Elem (st : Station) (gran i : Nat) : PVal := denseElem st 0x00 gran 0 i

/-- The conversion of a departure's output (R214, R215). -/
structure OutFmt where
  desc  : Nat
  round : Nat
  isat  : Bool
  dst   : Nat

def VecOps.out (v : VecOps) : OutFmt := ⟨v.ofmt, v.round, v.isat, v.dst⟩

/-- `SR_SEED` and the step of R54 for the context that runs. -/
def State.srInputs (s : State) : Nat × Nat :=
  match s.workSlot with
  | some c => (match (s.slot c).image with | some i => i.srSeed | none => 0, (s.slot c).step.committed)
  | none => (0, 0)

/-- The random values of an output row; row `k` of the departure's output counts its elements from 256 k (R54). -/
def rowRandom (sr : Nat × Nat) (mode : Round) (station k : Nat) : List Nat :=
  (List.range 256).map (fun i =>
    if mode = .rsr then srBits sr.1 sr.2 1048576 (station * 2 ^ 32 + 256 * k + i) else 0)

/-- A converted row: element codes, scale codes, and the events counted. -/
structure RowCodes where
  codes  : List Nat
  scales : List Nat
  sat    : Nat
  nan    : Nat

/-- The blocks of an MX row, scale first (R57). -/
def convBlocks (f : Fmt) (mode : Round) (fuel : Nat) (rs : List Nat) (xs : List Val) : List (Nat × List Conv) :=
  match fuel with
  | 0 => []
  | n + 1 =>
    if xs = [] then []
    else convBlock f.elem mode (rs.take f.block) (xs.take f.block) :: convBlocks f mode n (rs.drop f.block) (xs.drop f.block)

/-- The conversion of a row (R55, R57, R61). -/
def convRow (f : Fmt) (mode : Round) (isat : Bool) (rs : List Nat) (xs : List Val) : RowCodes :=
  let parts : List (Nat × List Conv) :=
    if f.isMx then convBlocks f mode 16 rs xs
    else [(0, (List.zip xs rs).map (fun q => f.elem.conv isat mode q.2 q.1))]
  let cs := parts.flatMap (fun q => q.2)
  { codes := cs.map (fun c => c.code), scales := if f.isMx then parts.map (fun q => q.1) else [],
    sat := (cs.filter (fun c => c.sat)).length, nan := (cs.filter (fun c => c.nan)).length }

/-- Codes of `bits` bits packed densely into a number (R46). -/
def packCodes (bits : Nat) : List Nat → Nat
  | [] => 0
  | c :: t => c % 2 ^ bits + 2 ^ bits * packCodes bits t

/-- ZF12 groups of 8 elements in 12 bytes (R60). -/
def zf12Group (cs : List Nat) : List Byte :=
  (List.range 8).map (fun i => BitVec.ofNat 8 (cs.getD i 0 / 16)) ++
  (List.range 4).map (fun i => BitVec.ofNat 8 (cs.getD (2 * i) 0 % 16 + 16 * (cs.getD (2 * i + 1) 0 % 16)))

def zf12Bytes (fuel : Nat) (cs : List Nat) : List Byte :=
  match fuel with
  | 0 => []
  | n + 1 => if cs = [] then [] else zf12Group (cs.take 8) ++ zf12Bytes n (cs.drop 8)

/-- Granules of the store that hold any bit of a poisoned element of a row at byte `a` (R60, R215). -/
def rowBadGranules (zf : Bool) (a bits : Nat) (bad : List Bool) : List Nat :=
  ((List.range bad.length).filter (fun j => bad.getD j false)).flatMap (fun j =>
    if zf then [(a + 12 * (j / 8) + j % 8) / 64, (a + 12 * (j / 8) + 8 + j % 8 / 2) / 64]
    else granulesOf (a + bits * j / 8) ((bits * j + bits - 1) / 8 + 1 - bits * j / 8))

/-- Output row k is written (R213, R215, R485). -/
def Station.writeRow (st : Station) (f : Fmt) (dst k : Nat) (c : RowCodes) (bad : List Bool) : Station :=
  if f.elem = .zf12 then
    let a := 64 * dst + 384 * k
    let gs := rowBadGranules true a 12 bad
    st.storeWrite a (zf12Bytes 32 c.codes) gs.contains
  else
    let r0 := 64 * dst + k / 256 * f.recordBytes
    let a := r0 + k % 256 * f.rowBytes
    let gs := rowBadGranules false a f.elem.bits bad
    let st := st.storeWrite a (leBytes f.rowBytes (packCodes f.elem.bits c.codes)) gs.contains
    if f.isMx then
      let sa := r0 + 256 * f.rowBytes + k % 256 * f.blocks
      let ss := ((List.range f.blocks).filter (fun b => ((bad.drop (f.block * b)).take f.block).any id)).map
        (fun b => (sa + b) / 64)
      st.storeWrite sa ((c.scales.take f.blocks).map (fun x => BitVec.ofNat 8 x)) ss.contains
    else st

/-- A row of results is converted and written at record row `row`; `off` numbers it for R54 (R54 to R56, R215). -/
def State.outRow (s : State) (k : Nat) (o : OutFmt) (row off : Nat) (xs : List PVal) : State :=
  match Fmt.ofDesc o.desc, Round.ofCode o.round with
  | some f, some mode =>
    let c := convRow f mode o.isat (rowRandom s.srInputs mode k off) (xs.map (fun q => q.1))
    let s := s.modStation k (fun st => st.writeRow f o.dst row c (xs.map (fun q => q.2)))
    (s.bump .convertSat k c.sat).bump .convertNan k c.nan
  | _, _ => s

/-- A result vector is written, packed from a granule up; FP64 is exact and FP32 flushes (R214, R224). -/
def Station.writeVector (st : Station) (gran : Nat) (r64 : Bool) (xs : List PVal) : Station :=
  let el : Elem := if r64 then .fp64 else .fp32
  let a := 64 * gran
  let codes := xs.map (fun q => (el.conv false .rne 0 q.1).code)
  let gs := rowBadGranules false a el.bits (xs.map (fun q => q.2))
  st.storeWrite a (leBytes (el.bits / 8 * xs.length) (packCodes el.bits codes)) gs.contains

/-- The results of a reduction over rows, or within each row (R133, R134). -/
def reduceRows (code : Nat) (cols sample : Bool) (rows : List (List PVal)) : List (List Val × Bool) :=
  let sets := if cols then rows else (List.range 256).map (fun i => rows.map (fun r => r.getD i (.zero, false)))
  sets.map (fun xs => (reduce code cols sample (xs.map (fun q => q.1)), xs.any (fun q => q.2)))

/-- The vectors of a reduction are written one after another, each at a granule boundary (R224). -/
def Station.writeReduction (st : Station) (gran code : Nat) (cols sample r64 : Bool) (rows : List (List PVal)) : Station :=
  let res := reduceRows code cols sample rows
  (List.range (redVectors code)).foldl (fun st v =>
    st.writeVector (gran + v * redVecGran cols r64 rows.length) r64
      (res.map (fun q => (q.1.getD v .zero, q.2)))) st

/-- Cycles to write reduction results at 256 bytes per sc (R218). -/
def redSc (code : Nat) (cols r64 : Bool) (n : Nat) : Nat :=
  ceilDiv (redVectors code * (if cols then n else 256) * (if r64 then 8 else 4)) 256

/-- Drain-path latency of the part under the image that runs (R175, R176). -/
def State.pathLatency (s : State) : Nat :=
  match s.workSlot with
  | some c => (match (s.slot c).image with | some i => s.drainLatency i | none => if s.isA1 then 26 else 18)
  | none => if s.isA1 then 26 else 18

/-- The figures of R218 for a departure: groups drained, cycles for the operands read once, cycles of the array-feed port in a row, pace,
rows, cycles of a written row (0 for none), and cycles of the reduction results. -/
structure DrainPace where
  groups : List Nat
  once   : Nat
  reads  : Nat
  pace   : Nat
  rows   : Nat
  w      : Nat
  red    : Nat

/-- A departure of the drain path begins at cycle `t`, with the Station as it was before it. -/
def DrainPace.run (q : DrainPace) (id : DepId) (t : Nat) (b : Station) : DrainRun :=
  let r : DrainRun :=
    { dep := id, groups := q.groups, start := t, once := q.once, rows := q.rows, pace := q.pace, reads := q.reads, yields := 0,
      red := q.red, before := b.drainLast, store := b.store, storePoison := b.storePoison, acc := b.acc, accPoison := b.accPoison,
      status := b.rows }
  r.yieldTo b.feeds

/-- The schedule of R216 to R218 from cycle `t` on: the departure's completion, and the drain path's books. -/
def State.schedule (s : State) (k p : Nat) (pr : Prog) (t : Nat) (b : Station) (q : DrainPace) : State :=
  let r := q.run pr.id t b
  let last := r.readSc (q.rows - 1)
  let done := last + s.pathLatency + (q.w - 1) + q.red
  let first := if q.w = 0 then done + 1 - q.red else r.readSc 0 + s.pathLatency
  let st := s.station k
  let shift := if st.drainLast < first then 0 else st.drainLast + 1 - first
  let busy := done + shift - max pr.issueSc st.drainLast
  let st := { st with drainFree := last + 1, drainLast := done + shift, runs := st.runs ++ [r] }
  let s := ((s.setStation k st).bump .vecFeedYield p r.yields).bump .drainPathBusy p busy
  let s := ((s.finish k pr.id (done + shift)).stall k pr.id 8 (t - pr.issueSc)).stall k pr.id 3 (r.yields + shift)
  s.stall k pr.id 7 (if s.stepping then 8 else 0)

/-- The pace of R218. -/
def pace (r w : Nat) : Nat := max 1 (max r w)

/-- The tile row (pair) at an offset of a group. -/
def Group.tileRow (g : Group) (u : Nat) : Nat := if g.kind = 2 then g.base + 2 * u else g.base + u

/-- A tile row (pair) as a drain reads it: `CANCEL_MARK` counts as poison (R135, R210). -/
def Station.entryRow (st : Station) (kind r : Nat) : List PVal :=
  let cols := st.accPoisonCols r
  let mark := (st.row r).cancelMark
  (st.accVals kind r).mapIdx (fun i x => (x, mark || cols.contains i))

/-- The values that a drain reads at an offset of a group: partner plus primary in a cascaded pair (R127, R223). -/
def Station.drainRow (st : Station) (g : Group) (u : Nat) : List PVal :=
  let own := st.entryRow g.kind (g.tileRow u)
  if g.cascade then
    let q := st.group g.partner
    (List.zip (st.entryRow g.kind (q.tileRow u)) own).map (fun v =>
      (accAdd g.kind false v.1.1 v.2.1, v.1.2 || v.2.2))
  else own

/-- The tile rows that a drain of a group reads, both halves of a cascaded pair (R223). -/
def Station.drainRows (st : Station) (g : Group) (off n : Nat) : List Nat :=
  (List.range n).flatMap (fun i => g.tileRow (off + i) :: (if g.cascade then [(st.group g.partner).tileRow (off + i)] else []))

/-- The errors that a drain's reads find (R123), group by group. -/
def State.drainErrors (s : State) (k p : Nat) (groups : List Nat) (off n : Nat) (errs : List AccError) : State :=
  groups.foldl (fun s x =>
    let st := s.station k
    s.accErrors k p (st.group x).kind (st.drainRows (st.group x) off n) errs) s

/-- `CLEAR` of the rows that a drain has read, in both halves of a cascaded pair (R131, R223). -/
def Station.clearDrained (st : Station) (g : Group) (off n : Nat) : Station :=
  let rows := fun (b : Nat) => if g.kind = 2 then (b + 2 * off, 2 * n) else (b + off, n)
  let own := rows g.base
  let st := st.clearRows own.1 own.2
  if g.cascade then
    let q := rows (st.group g.partner).base
    st.clearRows q.1 q.2
  else st

/-- Tile rows read for one output row of a drain (R218). -/
def Group.readSc (g : Group) : Nat := (if g.kind = 2 then 2 else 1) * (if g.cascade then 2 else 1)

/-- The lane steps of a drain for column i (R223). -/
def drainLane (o : DrainOps) (st : Station) (i : Nat) (q : PVal) : PVal :=
  if o.scale || o.bias || o.func != 0 then
    let x := laneIn q.1
    let sc := fp32Elem st o.param i
    let bi := fp32Elem st (o.param + 16) i
    let p0 := fp32Elem st (o.param + 32) 0
    let p1 := fp32Elem st (o.param + 32) 1
    let x := if o.scale then laneMul x sc.1 else x
    let x := if o.bias then laneAdd x bi.1 else x
    (laneFunc o.func p0.1 p1.1 x,
     q.2 || (o.scale && sc.2) || (o.bias && bi.2) || (funcParams o.func && (p0.2 || p1.2)))
  else q

/-- The rows that a drain reads, first to last. -/
def DrainOps.rowsOf (o : DrainOps) (st : Station) (n : Nat) : List (List PVal) :=
  (List.range n).map (fun i => st.drainRow (st.group o.group) (o.rowOff + i))

/-- The first `n` rows of a drain are read, and their values written (R220 to R223). -/
def State.drainValues (s : State) (k n : Nat) (o : DrainOps) : State :=
  let st := s.station k
  let rows := o.rowsOf st n
  let params := o.usesParam && (granulesOf (64 * o.param) 2112).any st.storePoison.contains
  let s := s.runBad (params || rows.any (fun r => r.any (fun q => q.2)))
  if o.outEn then
    (List.range n).foldl (fun s i =>
      s.outRow k ⟨o.ofmt, o.round, o.isat, o.dst⟩ i i ((rows.getD i []).mapIdx (drainLane o st))) s
  else s

/-- The rows that a drain has read are cleared where it asks for that (R131, R223). -/
def Station.drainClear (st : Station) (o : DrainOps) (groups : List Nat) (n : Nat) : Station :=
  if o.clear then groups.foldl (fun x g => x.clearDrained (st.group g) o.rowOff n) st else st

/-- A drain reads and writes (R220 to R224): `t` is the end of its interlock. -/
def State.runDrain (s : State) (k p : Nat) (pr : Prog) (t : Nat) (errs : List AccError) : State :=
  let o := drainOps pr.word
  let b := s.station k
  let s := s.drainErrors k p [o.group] o.rowOff o.nrows errs
  let st := s.station k
  let g := st.group o.group
  let into := (o.rowsOf st o.nrows).map (fun r => r.map (fun q => (acc48Arith.round .rne q.1, q.2)))
  let s := s.drainValues k o.nrows o
  let s := s.modStation k (fun x => x.writeReduction (o.dst + o.valueGran) o.red o.cols o.sample o.r64 into)
  let s := s.modStation k (fun x => x.drainClear o [o.group] o.nrows)
  let s := s.bump .drainRows p (g.readSc * o.nrows)
  let w := if o.outEn then rowSc o.ofmt else 0
  s.schedule k p pr t b { groups := [o.group], once := if o.usesParam then 9 else 0, reads := 0, pace := pace g.readSc w,
                          rows := o.nrows, w := w, red := redSc o.red o.cols o.r64 o.nrows }

/-- The first `n` rows of a `DRAIN_CPLX` are read, and their values written (R226). -/
def State.cplxValues (s : State) (k n : Nat) (o : DrainOps) : State :=
  let st := s.station k
  let g := fun i => st.group (o.group + i)
  let kind := (g 0).kind
  let row := fun i u => st.drainRow (g i) (o.rowOff + u)
  let comb := fun (neg : Bool) (a b : List PVal) =>
    (List.zip a b).map (fun q => (accAdd kind o.isat q.1.1 (if neg then q.2.1.neg else q.2.1), q.1.2 || q.2.2))
  let any3 := fun u => List.zipWith (fun a b => a || b) ((row 0 u).map (fun q => q.2))
    (List.zipWith (fun a b => a || b) ((row 1 u).map (fun q => q.2)) ((row 2 u).map (fun q => q.2)))
  let mark := fun u (l : List PVal) => List.zipWith (fun q b => (q.1, b)) l (any3 u)
  let out : OutFmt := ⟨o.ofmt, o.round, o.isat, o.dst⟩
  let imag : OutFmt := { out with dst := o.dst + rowsGran o.ofmt o.nrows }
  let s := s.runBad ((List.range n).any (fun u => (any3 u).any id))
  let s := (List.range n).foldl (fun s u => s.outRow k out u u (mark u (comb true (row 0 u) (row 2 u)))) s
  (List.range n).foldl (fun s u => s.outRow k imag u (o.nrows + u) (mark u (comb false (row 0 u) (row 1 u)))) s

/-- `DRAIN_CPLX` reads and writes (R226). -/
def State.runDrainCplx (s : State) (k p : Nat) (pr : Prog) (t : Nat) (errs : List AccError) : State :=
  let o := drainOps pr.word
  let groups := [o.group, o.group + 1, o.group + 2]
  let b := s.station k
  let s := s.drainErrors k p groups o.rowOff o.nrows errs
  let s := s.cplxValues k o.nrows o
  let s := s.modStation k (fun x => x.drainClear o groups o.nrows)
  let w := rowSc o.ofmt
  let r := 3 * ((s.station k).group o.group).readSc
  let s := s.bump .drainRows p (r * o.nrows)
  s.schedule k p pr t b { groups := groups, once := 0, reads := 0, pace := max r (2 * w), rows := o.nrows, w := w, red := 0 }

/-- A drain runs at once where nothing is in flight for its groups, or waits on the interlock (R130, R216). -/
def State.drainOrWait (s : State) (k p : Nat) (pr : Prog) (groups : List Nat) (cplx : Bool) (errs : List AccError) :
    State :=
  let st := s.station k
  if st.quiet groups then
    if cplx then s.runDrainCplx k p pr pr.issueSc errs else s.runDrain k p pr pr.issueSc errs
  else s.setStation k { st with waits := st.waits ++ [{ dep := pr.id, isClose := false, groups := groups, since := pr.issueSc }] }

/-- State check of `DRAIN` (R118, R208, R221). -/
def drainCheck (s : State) (k j : Nat) (h : Head) : List Nat :=
  let o := drainOps h.word
  groupReasons (s.station k) j o.group (o.rowOff + o.nrows) o.gseqEn

def drainRule (errs : List AccError) : DepRule :=
  { op := opDrain, form := fun _ h => drainForm h.word, check := drainCheck,
    effect := fun s k h pr =>
      let g := (drainOps h.word).group
      (s.modStation k (fun st => st.enterGroup g 0)).drainOrWait k h.p pr [g] false errs }

/-- `DRAIN` (R220 to R224). -/
def execDrain (k : Fin 128) (j : Fin 4) (t : IssueTick) (s : State) : Out := .next (issue (drainRule t.acc) k j t s)

/-- State check of `DRAIN_CPLX` (R225). -/
def drainCplxCheck (s : State) (k j : Nat) (h : Head) : List Nat :=
  let o := drainOps h.word
  let st := s.station k
  let gs := [o.group, o.group + 1, o.group + 2]
  gs.flatMap (fun g => groupReasons st j g (o.rowOff + o.nrows) o.gseqEn) ++
  reasonsOf [(gs.any (fun g => (st.group g).kind != (st.group o.group).kind), 8),
             (gs.any (fun g => (st.group g).isOpen && (st.group g).cascade), 0x0B)]

def drainCplxRule (errs : List AccError) : DepRule :=
  { op := opDrainCplx, form := fun _ h => drainCplxForm h.word, check := drainCplxCheck,
    effect := fun s k h pr =>
      let g := (drainOps h.word).group
      let gs := [g, g + 1, g + 2]
      (s.modStation k (fun st => gs.foldl (fun st x => st.enterGroup x 0) st)).drainOrWait k h.p pr gs true errs }

/-- `DRAIN_CPLX` (R225, R226). -/
def execDrainCplx (k : Fin 128) (j : Fin 4) (t : IssueTick) (s : State) : Out := .next (issue (drainCplxRule t.acc) k j t s)

/-- A vector departure over its rows: `f` gives row i of the result from the store as it stands when the row is read; `n`
operand rows are read for it. -/
def State.runRows (s : State) (k : Nat) (o : OutFmt) (n : Nat) (f : Station → Nat → List PVal) : State :=
  (List.range n).foldl (fun s i =>
    let xs := f (s.station k) i
    (s.runBad (xs.any (fun q => q.2))).outRow k o i i xs) s

/-- Row i of the first operand, from the store as it stands when the row is read (R213, R227). -/
def VecOps.row (o : VecOps) (st : Station) (i : Nat) : List PVal := rowOperand st o.ifmt o.src i

/-- The schedule of a vector departure with one output row for each row of its operands: `extra` cycles for the operands read once,
`more` cycles of the port in a row beside the first operand. -/
def State.vecSchedule (s : State) (k p : Nat) (pr : Prog) (b : Station) (o : VecOps) (extra more : Nat) : State :=
  let reads := rowSc o.ifmt + more
  s.schedule k p pr pr.issueSc b { groups := [], once := extra, reads := reads, pace := pace reads (rowSc o.ofmt), rows := o.nrows,
                                   w := rowSc o.ofmt, red := 0 }

/-- `CONVERT` at issue (R227). -/
def convertEffect (s : State) (k : Nat) (h : Head) (pr : Prog) : State :=
  let o := convertOps h.word
  let b := s.station k
  let s := s.runRows k o.out o.nrows o.row
  (s.bump .vecRows h.p o.nrows).vecSchedule k h.p pr b o 0 0

def convertRule : DepRule :=
  { op := opConvert, form := fun _ h => convertForm h.word, check := fun _ _ _ _ => [], effect := convertEffect }

/-- `CONVERT` (R227). -/
def execConvert (k : Fin 128) (j : Fin 4) (t : IssueTick) (s : State) : Out := .next (issue convertRule k j t s)

/-- One lane of `ACT`: f(x), or G × f' (R230, R486). -/
def actLane (o : ActOps) (p0 p1 x g : PVal) : PVal :=
  let bad := x.2 || (funcParams o.func && (p0.2 || p1.2))
  if o.grad then
    (laneMul (laneIn g.1) (laneDeriv o.func p0.1 p1.1 (laneIn x.1)), bad || g.2)
  else if o.func = 0 then (x.1, bad)
  else (laneFunc o.func p0.1 p1.1 (laneIn x.1), bad)

/-- Row i of the result of an `ACT` that issued with the store of `st0` (R230). -/
def ActOps.row (o : ActOps) (st0 st : Station) (i : Nat) : List PVal :=
  let xs := o.v.row st i
  let gs := if o.grad then rowOperand st o.v.ifmt o.gsrc i else xs
  List.zipWith (actLane o (fp32Elem st0 o.param 0) (fp32Elem st0 o.param 1)) xs gs

/-- `ACT` at issue (R230). -/
def actEffect (s : State) (k : Nat) (h : Head) (pr : Prog) : State :=
  let o := actOps h.word
  let b := s.station k
  let s := s.runRows k o.v.out o.v.nrows (o.row b)
  let n := if o.grad then 2 else 1
  (s.bump .vecRows h.p (n * o.v.nrows)).vecSchedule k h.p pr b o.v (if funcParams o.func then 1 else 0) ((n - 1) * rowSc o.v.ifmt)

def actRule : DepRule := { op := opAct, form := fun _ h => actForm h.word, check := fun _ _ _ _ => [], effect := actEffect }

/-- `ACT` (R228 to R230, R486). -/
def execAct (k : Fin 128) (j : Fin 4) (t : IssueTick) (s : State) : Out := .next (issue actRule k j t s)

/-- Operand B of an `EW` in lane i of row r: `fixed` is the broadcast row or vector (R231). -/
def ewOperandB (o : EwOps) (st : Station) (fixed : List PVal) (r : Nat) : List PVal :=
  match o.bcast with
  | 0 => rowOperand st o.bfmt o.src2 r
  | 1 => fixed
  | _ => List.replicate 256 (fixed.getD r (.zero, false))

/-- The operand B that an `EW` reads once, from the store at its issue (R218, R231). -/
def EwOps.fixed (o : EwOps) (st0 : Station) : List PVal :=
  match o.bcast with
  | 0 => []
  | 1 => rowOperand st0 o.bfmt o.src2 0
  | _ => (List.range o.v.nrows).map (fun r => denseElem st0 o.bfmt o.src2 o.v.nrows r)

/-- Row i of the result of an `EW` (R231). -/
def EwOps.row (o : EwOps) (fixed : List PVal) (st : Station) (i : Nat) : List PVal :=
  let xs := o.v.row st i
  let bs := ewOperandB o st fixed i
  let ds := if o.op = 6 then rowOperand st o.v.ofmt o.v.dst i else xs
  (List.zip xs (List.zip bs ds)).map (fun q =>
    (laneOp o.op (laneIn q.1.1) (laneIn q.2.1.1) (laneIn q.2.2.1), q.1.2 || q.2.1.2 || (o.op == 6 && q.2.2.2)))

/-- Store rows read for one output row of an `EW` (R234). -/
def EwOps.rowsRead (o : EwOps) : Nat := 1 + (if o.bcast = 0 then 1 else 0) + (if o.op = 6 then 1 else 0)

/-- `EW` at issue (R231). -/
def ewEffect (s : State) (k : Nat) (h : Head) (pr : Prog) : State :=
  let o := ewOps h.word
  let n := o.v.nrows
  let b := s.station k
  let s := s.runRows k o.v.out n (o.row (o.fixed b))
  let once := match o.bcast with
    | 0 => 0
    | 1 => rowSc o.bfmt
    | _ => ceilDiv (64 * o.bGran) 256
  let more := (if o.bcast = 0 then rowSc o.bfmt else 0) + (if o.op = 6 then rowSc o.v.ofmt else 0)
  (s.bump .vecRows h.p (o.rowsRead * n)).vecSchedule k h.p pr b o.v once more

def ewRule : DepRule := { op := opEw, form := fun _ h => ewForm h.word, check := fun _ _ _ _ => [], effect := ewEffect }

/-- `EW` (R231). -/
def execEw (k : Fin 128) (j : Fin 4) (t : IssueTick) (s : State) : Out := .next (issue ewRule k j t s)

/-- One lane of `NORM`: ((x - m) × q) × γ + β (R232). -/
def normLane (gb : Bool) (x m q g b : PVal) : PVal :=
  let y := laneMul (laneSub (laneIn x.1) (laneIn m.1)) (laneIn q.1)
  let bad := x.2 || m.2 || q.2
  if gb then (laneAdd (laneMul y (laneIn g.1)) (laneIn b.1), bad || g.2 || b.2) else (y, bad)

/-- Row r of the result of a `NORM` that issued with the store of `st0` (R232). -/
def NormOps.row (o : NormOps) (st0 st : Station) (r : Nat) : List PVal :=
  (o.v.row st r).mapIdx (fun i x =>
    let e := if o.perRow then r else i
    normLane o.gbEn x (fp32Elem st0 o.stat e) (fp32Elem st0 (o.stat + o.vecGran) e) (fp32Elem st0 o.gb i)
      (fp32Elem st0 (o.gb + 16) i))

/-- `NORM` at issue (R232). -/
def normEffect (s : State) (k : Nat) (h : Head) (pr : Prog) : State :=
  let o := normOps h.word
  let b := s.station k
  let s := s.runRows k o.v.out o.v.nrows (o.row b)
  let once := (if o.perRow then ceilDiv (8 * o.v.nrows) 256 else 8) + (if o.gbEn then 8 else 0)
  (s.bump .vecRows h.p o.v.nrows).vecSchedule k h.p pr b o.v once 0

def normRule : DepRule := { op := opNorm, form := fun _ h => normForm h.word, check := fun _ _ _ _ => [], effect := normEffect }

/-- `NORM` (R232). -/
def execNorm (k : Fin 128) (j : Fin 4) (t : IssueTick) (s : State) : Out := .next (issue normRule k j t s)

/-- `VSTATS` at issue (R233): every element enters as an ACC48 value. -/
def vstatsEffect (s : State) (k : Nat) (h : Head) (pr : Prog) : State :=
  let o := vstatsOps h.word
  let st := s.station k
  let rows := (List.range o.nrows).map (fun i =>
    (rowOperand st o.ifmt o.src i).map (fun q => (acc48Arith.round .rne q.1, q.2)))
  let s := s.runBad (rows.any (fun r => r.any (fun q => q.2)))
  let s := s.modStation k (fun st => st.writeReduction o.dst o.red o.cols o.sample o.r64 rows)
  (s.bump .vecRows h.p o.nrows).schedule k h.p pr pr.issueSc st
    { groups := [], once := 0, reads := rowSc o.ifmt, pace := pace (rowSc o.ifmt) 0, rows := o.nrows, w := 0,
      red := redSc o.red o.cols o.r64 o.nrows }

def vstatsRule : DepRule :=
  { op := opVstats, form := fun _ h => vstatsForm h.word, check := fun _ _ _ _ => [], effect := vstatsEffect }

/-- `VSTATS` (R233). -/
def execVstats (k : Fin 128) (j : Fin 4) (t : IssueTick) (s : State) : Out := .next (issue vstatsRule k j t s)

/-- Cycles for which a departure has waited on the interlock by cycle `sc`, in which it goes on or is cut (R130). -/
def Waiting.waited (w : Waiting) (sc : Nat) : Nat := sc - w.since - 1

/-- DRAIN_INTERLOCK_END: the oldest waiting drain or close whose groups have nothing in flight goes on, in the cycle after their last
write (R130, R132). -/
def execDrainInterlockEnd (k : Fin 128) (sc : Nat) (acc : List AccError) (s : State) : Out := s.clocked fun s =>
  match s.phys k with
  | none => .next s
  | some p =>
    let s := s.advanceSc p sc
    let st := s.station k
    match st.waits.find? (fun w => st.quiet w.groups) with
    | none => .next s
    | some w =>
      let sc := (w.groups.map (fun g => (st.group g).lastWrite)).foldl max w.since + 1
      let b := st
      let st := { st with waits := st.waits.filter (fun x => x.dep != w.dep) }
      match st.prog w.dep with
      | none => .next (s.setStation k st)
      | some pr =>
        let s := ((s.setStation k st).advanceSc p sc).bump .accDrainWait p (w.waited sc)
        if w.isClose then
          let s := s.modStation k (fun st => w.groups.foldl (fun st g => st.freeGroup g) st)
          .next (((s.finish k pr.id sc).stall k pr.id 8 (sc - pr.issueSc)).noteHeads b k)
        else if Dep.opcode pr.word = opDrainCplx then .next ((s.runDrainCplx k p pr sc acc).noteHeads b k)
        else .next ((s.runDrain k p pr sc acc).noteHeads b k)

/-! ## Departures cut short (R219) -/

/-- The first `n` rows of a departure of the drain path, as it finds the Station: values, and clears. -/
def State.partRun (s : State) (k : Nat) (word : BitVec 256) (n : Nat) : State :=
  let op := Dep.opcode word
  if op = opDrain then
    let o := drainOps word
    (s.drainValues k n o).modStation k (fun x => x.drainClear o [o.group] n)
  else if op = opDrainCplx then
    let o := drainOps word
    (s.cplxValues k n o).modStation k (fun x => x.drainClear o [o.group, o.group + 1, o.group + 2] n)
  else if op = opConvert then s.runRows k (convertOps word).out n (convertOps word).row
  else if op = opAct then s.runRows k (actOps word).v.out n ((actOps word).row (s.station k))
  else if op = opEw then s.runRows k (ewOps word).v.out n ((ewOps word).row ((ewOps word).fixed (s.station k)))
  else if op = opNorm then s.runRows k (normOps word).v.out n ((normOps word).row (s.station k))
  else s

/-- The granules of the store that a departure of the drain path writes: the first, and how many. -/
def outGranules (word : BitVec 256) : Nat × Nat :=
  let op := Dep.opcode word
  let values := fun (o : VecOps) => (o.dst, rowsGran o.ofmt o.nrows)
  if op = opDrain then ((drainOps word).dst, (drainOps word).valueGran + (drainOps word).redGran)
  else if op = opDrainCplx then ((drainOps word).dst, 2 * rowsGran (drainOps word).ofmt (drainOps word).nrows)
  else if op = opConvert then values (convertOps word)
  else if op = opAct then values (actOps word).v
  else if op = opEw then values (ewOps word).v
  else if op = opNorm then values (normOps word).v
  else ((vstatsOps word).dst, redVectors (vstatsOps word).red * redVecGran (vstatsOps word).cols (vstatsOps word).r64 (vstatsOps word).nrows)

/-- The tile rows of the rows from `from'` on that a drain reads. -/
def Station.drainedRows (st : Station) (word : BitVec 256) (groups : List Nat) (from' n : Nat) : List Nat :=
  let o := drainOps word
  groups.flatMap (fun g =>
    (st.drainRows (st.group g) (o.rowOff + from') (n - from')).flatMap (kindRows (st.group g).kind))

/-- Tile rows, or rows of the store, that a departure reads for one output row, and their counter (R234). -/
def readCount (st : Station) (word : BitVec 256) : Ctr × Nat :=
  let op := Dep.opcode word
  if op = opDrain then (.drainRows, (st.group (drainOps word).group).readSc)
  else if op = opDrainCplx then (.drainRows, 3 * (st.group (drainOps word).group).readSc)
  else if op = opAct then (.vecRows, if (actOps word).grad then 2 else 1)
  else if op = opEw then (.vecRows, (ewOps word).rowsRead)
  else (.vecRows, 1)

/-- A span of granules of a Station's store is as in `x`, poison with it. -/
def Station.storeAs (st x : Station) (a n : Nat) : Station :=
  { st with
    store := memSplice st.store (64 * a) (64 * (a + n)) (memCells x.store (64 * a) (64 * n) (64 * a))
    storePoison := (List.range n).foldl (fun p i => if x.storePoison.contains (a + i) then numInsert p (a + i) else numErase p (a + i))
      st.storePoison }

/-- A tile row of a Station's accumulator memory is as in `x`. -/
def Station.accAs (st x : Station) (r : Nat) : Station :=
  { st with
    acc := tset st.acc r (x.accRow r), rows := tset st.rows r (x.row r)
    accPoison := (x.accPoison.filter (fun e => e / 256 == r)).foldl numInsert (st.accPoison.filter (fun e => e / 256 != r)) }

/-- The Station as it was before a departure of the drain path began. -/
def Station.beforeRun (st : Station) (r : DrainRun) : Station :=
  { st with store := r.store, storePoison := r.storePoison, acc := r.acc, accPoison := r.accPoison, rows := r.status }

/-- A departure of the drain path stops reading at cycle `sc` (R219): what it wrote from rows that it had not read, its reduction
results, and the clears of those rows are taken back, and so are the counts. -/
def State.cutRun (s : State) (k p sc : Nat) (pr : Prog) (r : DrainRun) : State :=
  let done := pr.doneSc.getD 0
  if done ≤ sc then s
  else
    let n := r.rowsRead sc
    let st := s.station k
    let b := s.setStation k (st.beforeRun r)
    let part := b.partRun k pr.word n
    let full := b.partRun k pr.word r.rows
    let out := outGranules pr.word
    let st := st.storeAs (part.station k) out.1 out.2
    let st := (st.drainedRows pr.word r.groups n r.rows).foldl (fun x i => x.accAs (part.station k) i) st
    let ends := if n = 0 then max sc r.before else max sc (done - r.red - (r.rows - n) * r.pace)
    let st := { st with drainFree := min st.drainFree (sc + 1), drainLast := min st.drainLast ends }
    let reads := readCount st pr.word
    let s := (s.setStation k st).uncount reads.1 p (reads.2 * (r.rows - n))
    let s := s.uncount .drainPathBusy p (done - ends)
    let s := s.uncount .convertSat k ((full.ctr .convertSat k).value - (part.ctr .convertSat k).value)
    s.uncount .convertNan k ((full.ctr .convertNan k).value - (part.ctr .convertNan k).value)

/-- A departure that waits on its interlock is cut at cycle `sc`: the wait has been counted (R130, R234). -/
def State.cutWait (s : State) (p sc : Nat) (w : Waiting) (before : Nat) : State :=
  (s.bump .accDrainWait p (w.waited sc)).bump .drainPathBusy p (if w.isClose then 0 else sc - max w.since before)

/-- The drain path's part in a cut of departures at cycle `sc`, the youngest first. -/
def State.cutDrains (s : State) (k p sc : Nat) (cuts : List Prog) : State :=
  let st := s.station k
  let s := (st.waits.filter (fun w => cuts.any (fun q => q.id == w.dep))).foldl (fun s w => s.cutWait p sc w st.drainLast) s
  let s := st.runs.reverse.foldl (fun s r =>
    match cuts.find? (fun q => q.id == r.dep) with
    | some pr => s.cutRun k p sc pr r
    | none => s) s
  s.modStation k (fun st => { st with runs := st.runs.filter (fun r => !cuts.any (fun q => q.id == r.dep)) })

end Sys2Proof.Machine
end

