-- ==== Sys2Proof/Machine/Tiers.lean ====
section
/-! DEFINITION. The memory tiers (10_memory_tiers_and_shunter.md): frames in service, the Placement Map, reads and writes of
objects through it, page moves, and the faults of R281 to R284. -/

namespace Sys2Proof.Machine

open Sys2Proof

/-- Key of a frame. -/
def frameKey (tier frame : Nat) : Nat := tier * 2 ^ 21 + frame
/-- First byte of a frame in `Tiers.mem`. -/
def frameByte (tier frame : Nat) : Nat := frameKey tier frame * pageBytes
/-- Granules of a page. -/
def pageGran : Nat := 131072

/-- Frames of Tiers S, 1 and 2 (R255). -/
def State.tierFrames (s : State) : Nat → Nat
  | 0 => 512
  | 1 => 65536
  | 2 => if s.part == .m1b then 131072 else 262144
  | _ => 2097152

/-- Frames of Tier 1 that belong to no context: the Placement Map and the poison list (R257). They are taken to be its first
frames. -/
def systemFrames : Nat → Nat
  | 1 => 9
  | _ => 0

/-- Retired frames of a tier. -/
def State.retiredIn (s : State) (tier : Nat) : List Nat :=
  (s.flash.retiredFrames.filter (fun f => f / 2 ^ 21 == tier)).map (fun f => f % 2 ^ 21)

/-- Depot frames that bound contexts reserve in Tier 2 (R413). -/
def State.depotReserved (s : State) : Nat :=
  ((List.range 8).map (fun c => match (s.slot c).binding with | some b => b.depotFrames | none => 0)).sum

/-- Frames in service of Tiers S, 1 and 2 (R257, R282). -/
def State.inService (s : State) (tier : Nat) : Nat :=
  let gone := (s.retiredIn tier).length
  match tier with
  | 0 => 512 - gone
  | 1 => 65536 - 9 - max 64 gone
  | _ => s.tierFrames 2 - max 64 gone - s.depotReserved

/-- Frames in service of a grant of Tier 3 frames (R257): each grant has its own spares and retirements. -/
def State.grantInService (s : State) (frames : List Nat) : Nat :=
  if frames.length < 128 then 0 else frames.length - max 64 (frames.filter s.tiers.t3Retired.contains).length

/-- Host address of frame i of a grant, whose ranges (base, frames) follow one another (R256). -/
def rangeAddr : List (Nat × Nat) → Nat → Option Nat
  | [], _ => none
  | (base, n) :: t, i => if i < n then some (base + i * pageBytes) else rangeAddr t (i - n)

/-- Host address of a Tier 3 frame (R256). -/
def State.t3Addr (s : State) (frame : Nat) : Option Nat :=
  (List.range 8).findSome? (fun c => match (s.slot c).binding with
    | some b => (b.t3Frames.idxOf? frame).bind (rangeAddr b.t3Ranges)
    | none => none)

/-- Where the bytes of a frame lie, in host memory (Tier 3) or in `Tiers.mem`, and from which byte (R255, R256). -/
def State.frameAt (s : State) (tier frame : Nat) : Bool × Nat :=
  match (if tier = 3 then s.t3Addr frame else none) with
  | some a => (true, a)
  | none => (false, frameByte tier frame)

def State.memOf (s : State) (host : Bool) : List Host.Cell := if host then s.hostMem else s.tiers.mem

def State.setMem (s : State) (host : Bool) (m : List Host.Cell) : State :=
  if host then { s with hostMem := m } else { s with tiers := { s.tiers with mem := m } }

/-- Bytes of a frame. -/
def State.frameRead (s : State) (tier frame off n : Nat) : List Byte :=
  memReadBytes (s.memOf (s.frameAt tier frame).1) ((s.frameAt tier frame).2 + off) n

/-- [off, off + n) of a frame is replaced by the bytes of `cells` from `from'` on. -/
def State.frameCells (s : State) (tier frame off n from' : Nat) (cells : List Host.Cell) : State :=
  let a := s.frameAt tier frame
  s.setMem a.1 (memSplice (s.memOf a.1) (a.2 + off) (a.2 + off + n) (memCells cells from' n (a.2 + off)))

/-- Bytes written to a frame. -/
def State.frameWrite (s : State) (tier frame off : Nat) (bs : List Byte) : State :=
  let a := s.frameAt tier frame
  s.setMem a.1 (memWriteBytes (s.memOf a.1) (a.2 + off) bs)

/-- A frame filled with zeros. -/
def State.frameClear (s : State) (tier frame : Nat) : State :=
  let a := s.frameAt tier frame
  s.setMem a.1 (memClear (s.memOf a.1) a.2 pageBytes)

/-- Frames that reads in flight at a Station read from (R274). -/
def Station.readFrames (st : Station) : List Nat :=
  st.sidings.flatMap (fun q => (q.2.slots.filter (fun p => p.state == .inFlight)).flatMap (fun p => p.reads.map (fun r => r.frame))) ++
  st.pilot.flatMap (fun m => m.bursts.flatMap (fun b => b.reads.map (fun r => r.frame)))

/-- Is a frame read from by a read in flight? -/
def State.reading (s : State) (key : Nat) : Bool := s.stations.any (fun q => q.2.readFrames.contains key)

/-- Is a map entry one that holds frames? -/
def MapEntry.held (e : MapEntry) : Bool := e.state != 0

/-- Does a map entry hold this frame (R275)? -/
def MapEntry.holds (e : MapEntry) (tier frame : Nat) : Bool :=
  e.held && ((e.tier == tier && e.frame == frame) || (e.state == 2 && e.destTier == tier && e.destFrame == frame))

/-- Frames of a tier that some page holds, and source frames that wait for reads in flight (R275). -/
def State.heldFrames (s : State) (tier : Nat) : List Nat :=
  s.tiers.map.flatMap (fun q =>
    (if q.2.held && q.2.tier == tier then [q.2.frame] else []) ++
    (if q.2.state == 2 && q.2.destTier == tier then [q.2.destFrame] else [])) ++
  (s.tiers.draining.filter (fun k => k / 2 ^ 21 == tier)).map (fun k => k % 2 ^ 21)

/-- The lowest number from `n` on that is not in the list; the list holds at most `fuel` numbers from `n` on. -/
def lowestFree (used : List Nat) : Nat → Nat → Nat
  | 0, n => n
  | fuel + 1, n => if used.contains n then lowestFree used fuel (n + 1) else n

/-- Is a PCIe link up to carry Tier 3 traffic (R284)? -/
def State.tier3Up (s : State) : Bool := (s.link 0).up || (s.link 1).up

/-- Poisoned Tier 3 granules on the poison list (R283). -/
def State.poisonListed (s : State) : Nat :=
  (s.tiers.poison.filter (fun g => decide (frameKey 3 0 * pageGran ≤ g) && !s.tiers.draining.contains (g / pageGran))).length

/-- A free frame in service of a tier for a page of context c: the lowest one, where fewer are held than are in service (R269, R275; the
number is a DESIGN CHOICE). -/
def State.freeFrame (s : State) (c tier : Nat) : Option Nat :=
  let held := s.heldFrames tier
  if tier = 3 then
    match (s.slot c).binding with
    | none => none
    | some b =>
      let good := b.t3Frames.filter (fun f => !s.tiers.t3Retired.contains f)
      if s.tier3Up && decide ((good.filter held.contains).length < s.grantInService b.t3Frames) then good.find? (fun f => !held.contains f)
      else none
  else
    let gone := s.retiredIn tier
    let used := held ++ gone
    if (held.filter (fun f => !gone.contains f)).length < s.inService tier then
      some (lowestFree used used.length (systemFrames tier))
    else none

/-- Home tier order of a pattern (R260). -/
def homeOrder : Nat → List Nat
  | 0 => [2, 3, 1, 0]
  | 2 => [3, 2, 1, 0]
  | _ => [1, 2, 3, 0]

/-- Home order of the object of a map entry; system pages have 2, 3, 1, S (R269). -/
def State.homeOrderOf (s : State) (c object : Nat) : List Nat :=
  match (s.slot c).image with
  | some img => (match img.obj object with | some d => homeOrder d.pattern | none => [2, 3, 1, 0])
  | none => [2, 3, 1, 0]

/-- The first tier of an order with a free frame, and the frame (R269). -/
def State.placePage (s : State) (c : Nat) : List Nat → Option (Nat × Nat)
  | [] => none
  | t :: rest => match s.freeFrame c t with
    | some f => some (t, f)
    | none => s.placePage c rest

def State.setEntry (s : State) (e : Nat) (v : MapEntry) : State :=
  { s with tiers := { s.tiers with map := tset s.tiers.map e v } }

/-- The home tier of the page of a map entry (R269). -/
def State.homeOf (s : State) (e : Nat) : Nat := tget 2 s.tiers.homes e

/-- A page is allocated: `RESIDENT` on the first tier of its order with a free frame, which is its home tier, and reading as zero (R265,
R269). -/
def State.allocPage (s : State) (c e object page : Nat) (order : List Nat) (pinned : Bool) : State :=
  match s.placePage c order with
  | none => s
  | some (t, f) =>
    let s := s.setEntry e { MapEntry.init with object := object, page := page, tier := t, frame := f, state := 1, pinned := pinned,
                                               zero := true }
    { s with tiers := { s.tiers with homes := tset s.tiers.homes e t } }

/-- The poison of a frame goes (R263, R265, R283). -/
def State.cleanFrame (s : State) (tier frame : Nat) : State :=
  { s with tiers := { s.tiers with poison := s.tiers.poison.filter (fun g => g / pageGran != frameKey tier frame) } }

/-- A frame is free: its poison goes, and in Tiers S, 1 and 2 its bytes too, which nothing reads before they are written (R265). -/
def State.wipeFrame (s : State) (tier frame : Nat) : State :=
  let s := s.cleanFrame tier frame
  if tier = 3 then s else s.frameClear tier frame

/-- A frame is retired (R282): it is never in service again, in Tier 3 while its grant lasts (R257). -/
def State.retireFrame (s : State) (tier frame : Nat) : State :=
  let k := frameKey tier frame
  if tier = 3 then
    if s.tiers.t3Retired.contains frame then s
    else { s with tiers := { s.tiers with t3Retired := numInsert s.tiers.t3Retired frame } }.bump .shuntFrameRetired 0 1
  else if s.flash.retiredFrames.contains k then s
  else (s.setFlash { s.flash with retiredFrames := numInsert s.flash.retiredFrames k }).bump .shuntFrameRetired 0 1

/-- Frames that waited for their pages to leave retire: a reset has freed every page (R282, R468). -/
def State.retireWaiting (s : State) : State := s.shunter.retiring.foldl (fun s k => s.retireFrame (k / 2 ^ 21) (k % 2 ^ 21)) s

/-- Pages of context c beyond its own Tier 3 frames in service (R268). -/
def State.overflowPages (s : State) (c : Nat) : Nat :=
  match (s.slot c).binding with
  | some b => b.peak - s.grantInService b.t3Frames
  | none => 0

/-- Do the bound contexts fit Tiers S, 1 and 2 (R268)? -/
def State.fits (s : State) : Bool :=
  decide (((List.range 8).map s.overflowPages).sum ≤ s.inService 0 + s.inService 1 + s.inService 2)

/-- Bound contexts that no longer fit stop with `MEMORY_UNCORRECTED` (R282, R403). -/
def State.checkFit (s : State) (w : Nat) : State :=
  if s.fits then s
  else
    (List.range 8).foldl (fun s c =>
      if (s.slot c).binding.isSome && decide (0 < s.overflowPages c) && (s.slot c).state != .stopped then
        s.abortingError c { EvtRec.blank with loc := w }
      else s) s

/-- `WHERE` of a frame (R453). -/
def frameWhere (tier frame : Nat) : Nat := place tier 60 + place frame 39

/-- A frame that is to be retired retires, once no page lies in it and no read in flight reads from it (R282). -/
def State.retireQuit (s : State) (k : Nat) : State :=
  if s.shunter.retiring.contains k then
    ({ s with shunter := { s.shunter with retiring := s.shunter.retiring.filter (fun x => x != k) } }.retireFrame (k / 2 ^ 21)
      (k % 2 ^ 21)).checkFit (frameWhere (k / 2 ^ 21) (k % 2 ^ 21))
  else s

/-- A frame that no page holds any more is free, or retires (R274, R282). -/
def State.quitFrame (s : State) (k : Nat) : State := (s.wipeFrame (k / 2 ^ 21) (k % 2 ^ 21)).retireQuit k

/-- Source frames whose reads in flight have completed are free, or retire (R274, R282). -/
def State.drained (s : State) : State :=
  (s.tiers.draining.filter (fun k => !s.reading k)).foldl (fun s k =>
    { s with tiers := { s.tiers with draining := s.tiers.draining.filter (fun x => x != k) } }.quitFrame k) s

/-- A page leaves a frame, which is free at once, or, where reads in flight read from it, once they have completed (R274, R280). -/
def State.leaveFrame (s : State) (tier frame : Nat) : State :=
  if s.reading (frameKey tier frame) then { s with tiers := { s.tiers with draining := s.tiers.draining ++ [frameKey tier frame] } }
  else s.quitFrame (frameKey tier frame)

/-- A page is freed, with the frames that it held: its move stops (R263, R280). -/
def State.freePage (s : State) (e : Nat) : State :=
  let m := s.mapEntry e
  if m.held then
    let s := s.setEntry e MapEntry.init
    let s := { s with tiers := { s.tiers with homes := terase s.tiers.homes e } }
    let s := { s with shunter := { s.shunter with moving := s.shunter.moving.filter (fun x => x != e),
                                                  queued := s.shunter.queued.filter (fun x => x.1 != e) } }
    let s := s.leaveFrame m.tier m.frame
    if m.state = 2 then s.retireQuit (frameKey m.destTier m.destFrame) else s
  else s

/-- The run of map entries of an object of context c (R264). -/
def State.mapBase (s : State) (c object : Nat) : Option Nat :=
  match (s.slot c).binding with
  | none => none
  | some b => (b.mapBase.find? (fun q => q.1 == object)).map (fun q => q.2)

/-- Map entries of an object's pages. -/
def State.objEntries (s : State) (c object : Nat) : List Nat :=
  match s.mapBase c object, (s.slot c).image with
  | some base, some img => match img.obj object with
    | some d => (List.range d.pages).map (fun p => base + p)
    | none => []
  | _, _ => []

/-- The context and the object to which a map entry belongs (system items stand at 1,048,576 + item). -/
def State.ownerOf (s : State) (e : Nat) : Option (Nat × Nat) :=
  let page := (s.mapEntry e).page
  (List.range 8).findSome? (fun c =>
    match (s.slot c).binding with
    | none => none
    | some b => (b.mapBase.find? (fun q => q.2 + page == e && decide (q.2 ≤ e) &&
        (if (s.mapEntry e).object = 1048576 then decide (1048576 ≤ q.1) else q.1 == (s.mapEntry e).object))).map
        (fun q => (c, q.1)))

/-- The bytes of a page (R265, R274): served from the source frame while it moves. -/
def State.pageRead (s : State) (e off n : Nat) : List Byte :=
  let m := s.mapEntry e
  if m.zero || !m.held then List.replicate n 0 else s.frameRead m.tier m.frame off n

/-- Poisoned granules of a page's bytes, numbered in the page; every granule of a Tier 3 page while both links are down
(R284). -/
def State.pagePoison (s : State) (e off n : Nat) : List Nat :=
  let m := s.mapEntry e
  if !m.held || m.zero then []
  else if m.tier = 3 && !s.tier3Up then granulesOf off n
  else (granulesOf off n).filter (fun g => s.tiers.poison.contains (frameKey m.tier m.frame * pageGran + g))

/-- The first write to a page reading as zero fills its frame with zeros (R265). -/
def State.zeroFill (s : State) (e : Nat) : State :=
  let m := s.mapEntry e
  if m.zero then (((s.cleanFrame m.tier m.frame).frameClear m.tier m.frame).setEntry e { m with zero := false }).bump .shuntZeroFills 0 1
  else s

/-- Poisoned granules of a whole page. -/
def State.wholePoison (s : State) (e : Nat) : List Nat :=
  let m := s.mapEntry e
  if m.zero then []
  else if m.tier = 3 && !s.tier3Up then List.range pageGran
  else (s.tiers.poison.filter (fun g => g / pageGran == frameKey m.tier m.frame)).map (fun g => g % pageGran)

/-- A move in one operation: the page's bytes and poison lie in the new frame, and the page has left the old one (R274); it is counted
(R285). A page that reads as zero moves by its entry alone (R265). Where the new frame is itself to be retired, the page is to move on
(R282). -/
def State.shift (s : State) (e tier frame : Nat) : State :=
  let m := s.mapEntry e
  let a := s.frameAt m.tier m.frame
  let k := frameKey tier frame
  let bad := s.wholePoison e
  let s := if m.zero then s else
    let s := s.frameCells tier frame 0 pageBytes a.2 (s.memOf a.1)
    let below := s.tiers.poison.filter (fun g => decide (g / pageGran < k))
    let above := s.tiers.poison.filter (fun g => decide (k < g / pageGran))
    { s with tiers := { s.tiers with poison := below ++ bad.map (fun g => k * pageGran + g) ++ above } }
  let s := s.setEntry e { m with tier := tier, frame := frame, destTier := 0, destFrame := 0, state := 1 }
  let again : List (Nat × Nat) := if s.shunter.retiring.contains k && !m.pinned then [(e, tier)] else []
  let s := { s with shunter := { s.shunter with moving := s.shunter.moving.filter (fun x => x != e),
                                                queued := again ++ s.shunter.queued.filter (fun (q : Nat × Nat) => q.1 != e) } }
  let s := s.leaveFrame m.tier m.frame
  (s.bump .shuntMoves 0 1).bump .shuntMoveGran 0 (if m.zero then 0 else 32768)

/-- The tiers of a home order that follow Tier 3 in it, for a page that the full poison list keeps out of Tier 3 (R283). -/
def afterTier3 (order : List Nat) : List Nat := (order.dropWhile (fun t => t != 3)).drop 1 ++ order.filter (fun t => t != 3)

/-- A Tier 3 page to which poison adds entries beyond the list's 65,536 goes to the next tier of its home order (R283); a context for
whose page there is no frame stops (R284). `more`: entries still to be added. -/
def State.spareList (s : State) (c e object more : Nat) : State :=
  let m := s.mapEntry e
  if m.tier = 3 ∧ 65536 < s.poisonListed + more then
    let s := s.bump .t3PoisonFull 0 1
    match s.placePage c (afterTier3 (s.homeOrderOf c object)) with
    | some (t, f) => s.shift e t f
    | none => if (s.slot c).state == .stopped then s else s.abortingError c { EvtRec.blank with object := m.object, page := m.page }
  else s

/-- Is a granule of a page's frame poisoned? -/
def State.granPoisoned (s : State) (e g : Nat) : Bool :=
  s.tiers.poison.contains (frameKey (s.mapEntry e).tier (s.mapEntry e).frame * pageGran + g)

/-- Bytes written to a page with their poison (R265, R274, R283, R485). -/
def State.pageWrite (s : State) (c e object off : Nat) (bs : List Byte) (bad : Nat → Bool) : State :=
  let s := s.zeroFill e
  let more := ((granulesOf off bs.length).filter (fun g => bad g && !s.granPoisoned e g)).length
  let s := if more = 0 then s else s.spareList c e object more
  let m := s.mapEntry e
  let k := frameKey m.tier m.frame * pageGran
  let s := s.frameWrite m.tier m.frame off bs
  { s with tiers := { s.tiers with poison := poisonWrite s.tiers.poison (64 * k + off) bs.length (fun g => bad (g - k)) } }

/-- [off, off + n) of a page is replaced by the bytes of `cells` from `from'` on, unpoisoned. -/
def State.pageCells (s : State) (e off n from' : Nat) (cells : List Host.Cell) : State :=
  let s := s.zeroFill e
  let m := s.mapEntry e
  let a := frameByte m.tier m.frame + off
  let s := s.frameCells m.tier m.frame off n from' cells
  { s with tiers := { s.tiers with poison := s.tiers.poison.filter (fun g => decide (g < a / 64 ∨ (a + n) / 64 ≤ g)) } }

/-- A granule of a page is poisoned in place (R281, R283); a page that reads as zero carries no poison (R265). -/
def State.poisonGran (s : State) (c e object gran : Nat) : State :=
  let m := s.mapEntry e
  if m.zero || !m.held || s.granPoisoned e gran then s
  else ({ s with tiers := { s.tiers with
    poison := numInsert s.tiers.poison (frameKey m.tier m.frame * pageGran + gran) } }).spareList c e object 0

/-- [b, b + n) of an object cut at page boundaries: page, offset, length (R262). -/
def pageChunks : Nat → Nat → Nat → List (Nat × Nat × Nat)
  | 0, _, _ => []
  | fuel + 1, b, n =>
    if n = 0 then []
    else
      let len := min n (pageBytes - b % pageBytes)
      (b / pageBytes, b % pageBytes, len) :: pageChunks fuel (b + len) (n - len)

def chunksOf (b n : Nat) : List (Nat × Nat × Nat) := pageChunks (n / pageBytes + 2) b n

/-- Bytes [b, b + n) of an object. -/
def State.objRead (s : State) (c object b n : Nat) : List Byte :=
  match s.mapBase c object with
  | none => List.replicate n 0
  | some base => (chunksOf b n).flatMap (fun q => s.pageRead (base + q.1) q.2.1 q.2.2)

/-- Number under which a system item's run is kept: 0 the descriptor table, 1 the image tables, 2 the save area, 3 the lateness log
(R264). -/
def systemItem (n : Nat) : Nat := 1048576 + n

/-- [b, b + n) of a system item is replaced by the bytes of `cells`, which count from b. -/
def State.itemCells (s : State) (c item b n : Nat) (cells : List Host.Cell) : State :=
  match s.mapBase c (systemItem item) with
  | none => s
  | some base => (chunksOf b n).foldl (fun s q => s.pageCells (base + q.1) q.2.1 q.2.2 (q.1 * pageBytes + q.2.1 - b) cells) s

/-- The pages that a read of [b, b + n) of an object begins to read (R274). -/
def State.readsOf (s : State) (c object b n : Nat) : List FillRead :=
  match s.mapBase c object with
  | none => []
  | some base => (chunksOf b n).map (fun q =>
      let m := s.mapEntry (base + q.1)
      { entry := base + q.1, frame := frameKey m.tier m.frame, zero := m.zero })

/-- Is the page of a read still in the frame that served it when the read began? -/
def State.stillThere (s : State) (r : FillRead) : Bool :=
  (s.mapEntry r.entry).held && frameKey (s.mapEntry r.entry).tier (s.mapEntry r.entry).frame == r.frame

/-- The bytes of a page for a read in flight: those of the frame from which the read began (R274). -/
def State.readFrom (s : State) (reads : List FillRead) (e off n : Nat) : List Byte :=
  match reads.find? (fun r => r.entry == e) with
  | some r => if s.stillThere r then s.pageRead e off n
    else if r.zero then List.replicate n 0 else s.frameRead (r.frame / 2 ^ 21) (r.frame % 2 ^ 21) off n
  | none => s.pageRead e off n

/-- Its poisoned granules. -/
def State.poisonFrom (s : State) (reads : List FillRead) (e off n : Nat) : List Nat :=
  match reads.find? (fun r => r.entry == e) with
  | some r => if s.stillThere r then s.pagePoison e off n
    else if r.zero then []
    else if r.frame / 2 ^ 21 = 3 && !s.tier3Up then granulesOf off n
    else (granulesOf off n).filter (fun g => s.tiers.poison.contains (r.frame * pageGran + g))
  | none => s.pagePoison e off n

/-- Bytes [b, b + n) of an object for a read in flight, and its poisoned granules numbered from the object's start. -/
def State.objReadFrom (s : State) (c object : Nat) (reads : List FillRead) (b n : Nat) : List Byte × List Nat :=
  match s.mapBase c object with
  | none => (List.replicate n 0, [])
  | some base =>
    ((chunksOf b n).flatMap (fun q => s.readFrom reads (base + q.1) q.2.1 q.2.2),
     (chunksOf b n).flatMap (fun q => (s.poisonFrom reads (base + q.1) q.2.1 q.2.2).map (fun g => q.1 * pageGran + g)))

/-- Its poisoned granules, numbered from the object's start. -/
def State.objPoison (s : State) (c object b n : Nat) : List Nat :=
  match s.mapBase c object with
  | none => []
  | some base => (chunksOf b n).flatMap (fun q =>
      (s.pagePoison (base + q.1) q.2.1 q.2.2).map (fun g => q.1 * pageGran + g))

/-- Tables that the module reads at run time, in the order of their block (R447): offset and length. -/
def runTables (i : Image) : List (Nat × Nat) :=
  [(i.le 64 8, 32 * i.sectionCount), (i.le 72 8, i.le 80 8), (i.le 88 8, 49152), (i.le 104 8, 16 * i.slotCount),
   (i.le 112 8, 64 * i.unitCount), (i.le 120 8, 64 * i.collCount), (i.le 128 8, 32 * i.schedCount)]

/-- Bytes of the block of the image tables, each at a 64-byte boundary (R447). -/
def tableBytes (i : Image) : Nat := ((runTables i).map (fun t => roundUp t.2 64)).sum

/-- Pages of the system items in their order (R264, R268): descriptor table, image tables, save area, lateness log. -/
def systemPages (i : Image) : List Nat :=
  [ceilDiv (64 * i.objectCount) pageBytes, ceilDiv (tableBytes i) pageBytes, 50, ceilDiv (2 ^ i.latelogLog2 * 32) pageBytes]

/-- Items of a context that have runs of map entries, in the order of R264, with their pages. -/
def mapItems (i : Image) : List (Nat × Nat) :=
  (List.range i.objectCount).map (fun o => (o, match i.obj o with | some d => d.pages | none => 0)) ++
  (List.range 4).map (fun n => (systemItem n, (systemPages i).getD n 0))

/-- The context and the object in whose run of map entries an entry lies, whether it holds a page or not (R264). -/
def State.runOwner (s : State) (e : Nat) : Option (Nat × Nat) :=
  (List.range 8).findSome? (fun c =>
    match (s.slot c).binding, (s.slot c).image with
    | some b, some img => ((mapItems img).find? (fun m =>
        decide (tget 0 b.mapBase m.1 ≤ e ∧ e < tget 0 b.mapBase m.1 + m.2))).map (fun m => (c, m.1))
    | _, _ => none)

/-- A write to a Class P page is remembered until the Right-away (R408, R414). -/
def State.dirtyPage (s : State) (c object page : Nat) : State :=
  match (s.slot c).image with
  | some img =>
    if img.classP object && !(s.slot c).step.dirty.contains (object, page) then
      s.modSlot c (fun x => { x with step := { x.step with dirty := x.step.dirty ++ [(object, page)] } })
    else s
  | none => s

/-- Bytes written to an object from byte b; `bad` tells which of its granules the data poisons. -/
def State.objWrite (s : State) (c object b : Nat) (bs : List Byte) (bad : Nat → Bool) : State :=
  match s.mapBase c object with
  | none => s
  | some base => (chunksOf b bs.length).foldl (fun s q =>
      (s.pageWrite c (base + q.1) object q.2.1 ((bs.drop (q.1 * pageBytes + q.2.1 - b)).take q.2.2)
        (fun g => bad (q.1 * pageGran + g))).dirtyPage c object q.1) s

/-- Byte of a ZF12 group as the object lies in its pages (R60, R262). -/
def zf12Byte (g : Nat) : Nat := g / 699050 * pageBytes + g % 699050 * 12

/-- Is an object live (R263)? -/
def State.live (s : State) (c object : Nat) : Bool :=
  match (s.slot c).image with
  | some img => (match img.obj object with
    | some d => (d.pattern == 0 && (s.slot c).binding.isSome) || (s.slot c).live.contains object
    | none => false)
  | none => false

/-- Class bit of a `WHERE` (R453). -/
def classBit (aborting : Bool) : Nat := if aborting then place 1 15 else 0

/-- `WHERE` of a granule of a tier frame (R453). -/
def whereKey (key gran : Nat) (aborting : Bool) : Nat :=
  place (key / 2 ^ 21) 60 + place (key % 2 ^ 21) 39 + place gran 22 + classBit aborting

/-- The same of the frame that serves a page. -/
def whereTier (m : MapEntry) (gran : Nat) (aborting : Bool) : Nat := whereKey (frameKey m.tier m.frame) gran aborting

/-- Is an object's data Aborting class? System pages are (R267). -/
def State.abortingObject (s : State) (c object : Nat) : Bool :=
  match (s.slot c).image with
  | some img => (match img.obj object with | some d => d.aborting | none => true)
  | none => true

/-- A frame that page e holds is to be retired once the page has moved out: the move goes before every other (R282). A pinned page never
moves (R265), and its frame retires once the page is freed; a page that moves already is on its way. -/
def State.evacFrame (s : State) (e k : Nat) : State :=
  let m := s.mapEntry e
  if s.shunter.retiring.contains k then s
  else { s with shunter := { s.shunter with
    retiring := s.shunter.retiring ++ [k]
    queued := if m.state = 1 && !m.pinned && frameKey m.tier m.frame == k then
        (e, m.tier) :: s.shunter.queued.filter (fun q => q.1 != e) else s.shunter.queued } }

/-- The same of the frame that serves the page. -/
def State.evacuate (s : State) (e : Nat) : State :=
  let m := s.mapEntry e
  if m.held then s.evacFrame e (frameKey m.tier m.frame) else s

/-- The frame that serves a page for a read in flight (R274). -/
def State.served (s : State) (reads : List FillRead) (e : Nat) : FillRead :=
  match reads.find? (fun r => r.entry == e && !s.stillThere r) with
  | some r => r
  | none => { entry := e, frame := frameKey (s.mapEntry e).tier (s.mapEntry e).frame, zero := (s.mapEntry e).zero }

/-- Granules of an object, of those read, in which the read finds an error (R256, R307): `fresh` ones, in which it comes to light, those on
the poison list of Tier 3, and every one of a Tier 3 page while both links are down (R284). -/
def State.foundIn (s : State) (base : Nat) (reads : List FillRead) (grans fresh : List Nat) : List Nat :=
  let at' := fun (g : Nat) => s.served reads (base + g / pageGran)
  let listed := if (reads.any (fun r => (s.served reads r.entry).frame / 2 ^ 21 == 3)) = false then [] else
    grans.filter (fun g => (at' g).frame / 2 ^ 21 == 3 && !(at' g).zero &&
      (!s.tier3Up || s.tiers.poison.contains ((at' g).frame * pageGran + g % pageGran)))
  (fresh.filter (fun g => !(at' g).zero)) ++ listed

/-- An error comes to light in a granule of an object as a read in flight reads it: the granule is poisoned and its frame is to retire,
where the page still lies there; a frame that the page has left retires once its reads have completed (R281, R282). -/
def State.freshError (s : State) (c object : Nat) (reads : List FillRead) (g : Nat) : State :=
  match s.mapBase c object with
  | none => s
  | some base =>
    let e := base + g / pageGran
    let r := s.served reads e
    if r.zero then s
    else if frameKey (s.mapEntry e).tier (s.mapEntry e).frame = r.frame then (s.evacuate e).poisonGran c e object (g % pageGran)
    else if s.shunter.retiring.contains r.frame then s
    else { s with shunter := { s.shunter with retiring := s.shunter.retiring ++ [r.frame] } }

/-- The map entry that holds a frame. -/
def State.entryAt (s : State) (tier frame : Nat) : Option Nat :=
  (s.tiers.map.find? (fun q => q.2.holds tier frame)).map (fun q => q.1)

/-- A frame leaves service: at once where no page holds it and no read in flight reads from it, else once both are over (R282). -/
def State.dropFrame (s : State) (tier frame : Nat) : State :=
  let k := frameKey tier frame
  match s.entryAt tier frame with
  | some e => s.evacFrame e k
  | none =>
    if s.tiers.draining.contains k then
      if s.shunter.retiring.contains k then s else { s with shunter := { s.shunter with retiring := s.shunter.retiring ++ [k] } }
    else (s.retireFrame tier frame).checkFit (frameWhere tier frame)

/-- Powered time over which corrected errors of a frame add up (R402): 24 hours. -/
def dayLt : Nat := 86400 * 10 ^ 9

/-- A corrected error in a frame of Tiers S, 1 and 2 (R425); the sixteenth within 24 hours retires the frame (R402). -/
def State.corrected (s : State) (tier frame : Nat) : State :=
  if tier < 3 then
    let k := frameKey tier frame
    let l := (tget [] s.tiers.errors k).filter (fun t => decide (s.time.lt < t + dayLt)) ++ [s.time.lt]
    let s := { s with tiers := { s.tiers with errors := tset s.tiers.errors k l } }.bump .memCorrected tier 1
    if 16 ≤ l.length then s.dropFrame tier frame else s
  else s

/-- The errors of a read of an object that could be corrected (R402): each in its frame. -/
def State.correctedReads (s : State) (c object : Nat) (reads : List FillRead) (grans : List Nat) : State :=
  match s.mapBase c object with
  | none => s
  | some base => grans.foldl (fun s g =>
      let r := s.served reads (base + g / pageGran)
      if r.zero then s else s.corrected (r.frame / 2 ^ 21) (r.frame % 2 ^ 21)) s

/-- Granules of a list that the errors of a read name, corrected or not. -/
def ReadError.pick (errs : List ReadError) (corrected : Bool) (grans : List Nat) : List Nat :=
  (errs.filter (fun e => e.corrected == corrected)).filterMap (fun e => grans[e.gran]?)

/-- What an error in a granule of a page costs, by its class (R281, R307, R309): `k` is the frame in which it was found. -/
def State.tierFault (s : State) (e k gran : Nat) : State :=
  let m := s.mapEntry e
  match s.ownerOf e with
  | none => s
  | some (c, object) =>
    let ab := s.abortingObject c object
    let r := { EvtRec.blank with object := m.object, page := m.page, loc := whereKey k gran ab }
    if ab then
      if (s.slot c).state == .stopped then s.report { r with family := 3, code := 0, scope := scopeContext, context := c }
      else s.abortingError c r
    else
      let s := s.report { r with family := 3, code := 0, scope := scopeStep, context := c }
      if (s.slot c).run.isSome then s.markStepBad c else s

/-- An uncorrected error where no data lies: it is reported, and costs nothing more (R281, R403). -/
def State.emptyFault (s : State) (k gran : Nat) : State :=
  s.report { EvtRec.blank with family := 3, code := 0, scope := scopeNone, loc := whereKey k gran false }

/-- An uncorrected error found in a granule of frame k, which page e holds, outside any reader's own rule (R281, R282): the granule of the
page is poisoned, the frame is to retire, and the page's class decides the rest. -/
def State.tierError (s : State) (e k gran : Nat) : State :=
  let s := s.evacFrame e k
  if (s.mapEntry e).zero then s.emptyFault k gran else
  let s := match s.ownerOf e with | some (c, object) => s.poisonGran c e object gran | none => s
  s.tierFault e k gran

end Sys2Proof.Machine
end

