-- ==== Sys2Proof/Machine/Pilot.lean ====
section
/-! DEFINITION. The Pilot (11_pilot_sidings_waybills.md): Manifests, Waybills, Siding fills and write-backs. -/

namespace Sys2Proof.Machine

open Sys2Proof

/-- Fields that R295 requires to be 0 for the Waybill's kind. -/
def Waybill.unusedSet (w : Waybill) : Bool :=
  match w.kind with
  | 0 => w.offset != 0 || w.store != 0 || w.len != 0
  | 1 => w.trow != 0 || w.tcol != 0 || w.store != 0 || w.len != 0
  | 2 => w.offset != 0 || w.len != 0
  | _ => w.trow != 0 || w.tcol != 0

/-- Groups that a ZF12 write-back places (R296). -/
def Waybill.groups (w : Waybill) : Nat := w.len * 64 / 12

/-- The checks of R297, with the format rule of R295 for `WRITE_BYTES`: reasons for a Waybill of a Manifest with this direction
and ring size. -/
def waybillReasons (s : State) (c : Nat) (img : Image) (back : Bool) (ring : Nat) (w : Waybill) : List Nat :=
  let zero := reasonsOf [(w.reserved || w.unusedSet || (w.kind == 3 && w.fmt != 0), 1),
                         (back != decide (2 ≤ w.kind), 0x0B)]
  match img.obj w.object with
  | none => zero ++ reasonsOf [(w.kind == 1 && w.fmt != 0x02, 6)] ++ [0x0B]
  | some d =>
    let layoutOk := match w.kind with
      | 0 | 2 => d.layout == 0
      | 1 => d.layout == 1
      | _ => d.layout == 1 || d.layout == 2
    zero ++ reasonsOf [(!layoutOk, 0x0B), (!s.live c w.object || d.kind == 6 || d.kind == 7, 0x0B),
      ((w.kind == 0 || w.kind == 2) && w.fmt != d.desc, 6), (w.kind == 1 && w.fmt != 0x02, 6),
      ((w.kind == 0 || w.kind == 2) && (decide (d.rows ≤ w.trow) || decide (d.cols ≤ w.tcol)), 0x0B),
      (w.kind == 1 && (decide (w.offset % 8 ≠ 0) || decide (d.extent < w.offset + 65536)), 0x0B),
      (decide (2 ≤ w.kind) && decide (storeGranules < w.store + w.gran), 0x0B),
      (w.kind == 3 && (w.len == 0 || decide (storeGranules < w.len)), 0x0B),
      (w.kind == 3 && d.layout == 2 && (decide (w.offset % 64 ≠ 0) || decide (d.extent < w.offset + 64 * w.len)), 0x0B),
      (w.kind == 3 && d.layout == 1 && (decide (w.len % 3 ≠ 0) || decide (d.extent / 8 < w.offset + w.groups)), 0x0B),
      (!back && decide (ring < w.gran), 0x0B)]

/-- State check of `MANIFEST`: the Siding of a fill (R287, R288, R293), and a live object. -/
def manifestCheck (s : State) (k j : Nat) (h : Head) : List Nat :=
  let o := manifestOps h.word
  reasonsOf [(!o.back && !sidingOk (s.station k) o.siding j, 0x0B), (!s.live h.c o.object, 0x0B)]

/-- `MANIFEST` at issue (R288, R293): it enters the Pilot queue, and a fill reserves its positions. -/
def manifestEffect (s : State) (k : Nat) (h : Head) (pr : Prog) : State :=
  let o := manifestOps h.word
  let m : Manifest :=
    { dep := pr.id, issueLt := pr.issueLt, sect := h.sect, object := o.object, first := o.first, count := o.count,
      writeBack := o.back, siding := o.siding, forSect := o.forSect, token := o.token, fetched := 0, arrived := 0, bursts := [], wbs := [],
      failed := false, cancelled := false }
  s.modStation k (fun st =>
    let st := { st with pilot := st.pilot ++ [m], named := st.named ++ [(o.forSect, o.token)] }
    if o.back then st
    else st.setSiding o.siding ((List.range o.count).foldl (fun d i =>
      d.reserve (.waybill pr.id i) 0 0 0 0 o.forSect 0 (o.forSect != h.sect)) (st.siding o.siding)))

def manifestRule : DepRule :=
  { op := opManifest, form := fun _ h => manifestForm h.img h.sect h.word, check := manifestCheck, effect := manifestEffect }

/-- `MANIFEST` (R292, R293). -/
def execManifest (k : Fin 128) (j : Fin 4) (t : IssueTick) (s : State) : Out := .next (issue manifestRule k j t s)

def sidingSetRule : DepRule :=
  { op := opSidingSet, form := fun _ h => sidingSetForm h.word, check := fun _ _ _ _ => [],
    effect := fun s k h pr =>
      let o := sidingSetOps h.word
      (s.modStation k (fun st => st.setSiding o.siding
        { st.siding o.siding with isSet := true, base := o.base, size := o.size, line := pr.id.line, fillAt := 0 })).completeNow
        k pr }

/-- `SIDING_SET` (R286, R287). -/
def execSidingSet (k : Fin 128) (j : Fin 4) (t : IssueTick) (s : State) : Out := .next (issue sidingSetRule k j t s)

def expectRule : DepRule :=
  { op := opExpect, form := fun _ h => expectForm h.word,
    check := fun s k j h => reasonsOf [(!sidingOk (s.station k) (expectOps h.word).siding j, 0x0B)],
    effect := fun s k h pr =>
      let o := expectOps h.word
      (s.modStation k (fun st => st.setSiding o.siding
        ((st.siding o.siding).reserve (.expect o.fmt false) 0 0 0 o.fmt h.sect (recGran o.fmt) false))).completeNow k pr }

/-- `SIDING_EXPECT` (R300). -/
def execSidingExpect (k : Fin 128) (j : Fin 4) (t : IssueTick) (s : State) : Out := .next (issue expectRule k j t s)

/-- Is every Waybill of the Manifest done? -/
def Manifest.over (m : Manifest) : Bool :=
  (m.cancelled || (m.arrived == m.count && !m.failed)) && m.wbs.all (fun w => w.stage == 2)

def Station.dropDone (st : Station) : Station := { st with pilot := st.pilot.filter (fun m => !m.over) }

/-- Waybills of the next burst of a Manifest (R294). -/
def Manifest.burst (m : Manifest) : Nat := min 16 (m.count - m.fetched)

/-- First data at the Pilot from a tier, lt (R175, R302). -/
def State.tierLatency (s : State) (img : Image) : Nat → Nat
  | 0 => if s.slowUnits img then 190 else 150
  | 1 => 520
  | 2 => 780
  | _ => 1900

/-- The same for a read that begins with the first of these pages. -/
def State.readLatency (s : State) (img : Image) (reads : List FillRead) : Nat :=
  s.tierLatency img ((reads.map (fun r => r.frame / 2 ^ 21)).headD 2)

/-- Byte of a Waybill in its object. -/
def Manifest.wbByte (m : Manifest) (i : Nat) : Nat := 64 * (m.first + i)

/-- What an A1 that runs a B0 image charges a `MANIFEST` for a burst out of Tier S: 40 lt, in sc at 1.8 GHz (R176; DESIGN CHOICE,
notes/assumptions/11.md). -/
def steppingBurst : Nat := 72

/-- WAYBILL_BURST_FETCH: the first Manifest with Waybills to fetch has its next burst fetched, once that many Waybill slots are
free (R294); it arrives no sooner than the latency of its tier allows (R302). -/
def execWaybillBurstFetch (t : StationTick) (s : State) : Out := s.clocked fun s =>
  let k := t.station
  let s := s.advance t.lt
  let st := s.station k
  match s.workSlot, st.pilot.find? (fun m => decide (m.fetched < m.count) && !m.cancelled && !m.failed) with
  | some c, some m =>
    match (s.slot c).image with
    | none => .next s
    | some img =>
      if 64 < st.wbHeld + m.burst then .next s
      else
        let reads := s.readsOf c m.object (m.wbByte m.fetched) (64 * m.burst)
        let b : Burst := { firstLt := s.time.lt + s.readLatency img reads, reads := reads }
        let yard := (reads.map (fun r => r.frame / 2 ^ 21)).headD 2 == 0
        let s := s.setStation k { (st.modManifest m.dep (fun x =>
          { x with fetched := x.fetched + m.burst, bursts := x.bursts ++ [b] })) with wbHeld := st.wbHeld + m.burst }
        .next (s.stall k m.dep 7 (if s.stepping && yard then steppingBurst else 0))
  | _, _ => .next s

/-- Where the MANIFEST departure stands, for a report (R297, R309). -/
def whereManifest (s : State) (k : Nat) (m : Manifest) : EvtRec := whereDep s k m.dep.line m.sect m.dep.index

/-- The Waybill index field of a `WHERE` (R453). -/
def wbBits (i : Nat) : Nat := place 1 14 + place i 8

/-- An abort under R307 at granule g of an Aborting object, as a read in flight finds it, for Waybill `wb` of a Manifest (R309). -/
def State.pilotAbort (s : State) (c k object : Nat) (reads : List FillRead) (g : Nat) (m : Manifest) (wb : Nat) : State :=
  match s.mapBase c object with
  | none => s
  | some base =>
    s.abortingError c { whereManifest s k m with
      object := object, page := g / pageGran
      loc := whereKey (s.served reads (base + g / pageGran)).frame (g % pageGran) true + wbBits wb }

/-- The checks of a burst, Waybill by Waybill: the first that fails stops the Manifest (R297), and a context that has not stopped. -/
def State.checkBurst (s : State) (c k : Nat) (img : Image) (m : Manifest) : List Nat → Nat → State
  | [], _ => s
  | w :: rest, i =>
    let st := s.station k
    match leastOf (waybillReasons s c img m.writeBack (st.siding m.siding).size (Waybill.ofNat w)) with
    | some reason =>
      let s := s.setStation k (st.modManifest m.dep (fun x => { x with failed := true }))
      if (s.slot c).state = .stopped then s else s.contractFault c 3 { whereManifest s k m with loc := reason + wbBits i }
    | none =>
      let s := s.setStation k (st.modManifest m.dep (fun x =>
        { x with arrived := i + 1, wbs := x.wbs ++ [{ index := i, word := w, stage := 0 }] }))
      s.checkBurst c k img m rest (i + 1)

/-- A burst has been read: it is checked, and after the last one the `MANIFEST` completes, 16 sc later (R291, R302). -/
def State.burstRead (s : State) (c k p : Nat) (img : Image) (m : Manifest) (words : List Nat) : State :=
  let s := s.checkBurst c k img m words m.arrived
  let s := match (s.station k).manifest m.dep with
    | some x => if x.arrived = x.count ∧ !x.failed then s.finish k m.dep (s.cycle p + 16) else s
    | none => s
  s.noteFills k

/-- WAYBILL_BURST_ARRIVE: the oldest burst fetched arrives and is checked (R294, R297, R302), of a context that has stopped too (R181).
Waybills are Aborting data (R307). -/
def execWaybillBurstArrive (k : Fin 128) (errs : List ReadError) (now : Nat) (s : State) : Out := s.clocked fun s =>
  let s := s.advance now
  match s.workSlot, (s.station k).pilot.find? (fun m => m.bursts != [] && !m.cancelled && !m.failed) with
  | some c, some m =>
    match (s.slot c).image, s.phys k, m.bursts with
    | some img, some p, b :: rest =>
      if s.time.lt < b.firstLt then .next s
      else
        let n := min 16 (m.count - m.arrived)
        let a := m.wbByte m.arrived
        let grans := granulesOf a (64 * n)
        let s := s.correctedReads c m.object b.reads (ReadError.pick errs true grans)
        let fresh := ReadError.pick errs false grans
        let found := match s.mapBase c m.object with | some base => s.foundIn base b.reads grans fresh | none => []
        let data := s.objReadFrom c m.object b.reads a (64 * n)
        let bad := grans.filter (fun g => found.contains g || data.2.contains g)
        let s := fresh.foldl (fun s g => s.freshError c m.object b.reads g) s
        let s := (s.modStation k (fun st => st.modManifest m.dep (fun x => { x with bursts := rest }))).drained
        match bad with
        | g :: _ =>
          let s := s.modStation k (fun st => st.modManifest m.dep (fun x => { x with failed := true }))
          .next (if (s.slot c).state = .stopped then s else s.pilotAbort c k m.object b.reads g m (g - a / 64 + m.arrived))
        | [] => .next (s.burstRead c k p img m ((List.range n).map (fun i => leNat (sliceBytes data.1 (64 * i) 64))))
    | _, _, _ => .next s
  | _, _ => .next s

/-- The groups [g, g + n) of a ZF12 object as spans of its bytes, one for each page (R60, R262): first group, count. -/
def zf12Runs : Nat → Nat → Nat → List (Nat × Nat)
  | 0, _, _ => []
  | fuel + 1, g, n =>
    if n = 0 then [] else
      let here := min n (699050 - g % 699050)
      (g, here) :: zf12Runs fuel (g + here) (n - here)

def zf12Spans (g n : Nat) : List (Nat × Nat) := zf12Runs (n / 699050 + 2) g n

/-- Byte spans that a Waybill's record covers in its object: first byte, length (R262, R296). -/
def Waybill.spans (w : Waybill) (d : ObjDesc) : List (Nat × Nat) :=
  match w.kind with
  | 0 | 2 => [((w.trow * d.cols + w.tcol) * d.recordBytes, d.recordBytes)]
  | 1 => (zf12Spans (w.offset / 8) 8192).map (fun q => (zf12Byte q.1, 12 * q.2))
  | _ => [(w.offset, 64 * w.len)]

/-- A ZF12 group's code values (R59). -/
def zf12Codes (bs : List Byte) : List Nat :=
  (List.range 8).map (fun e => (bs.getD e 0).toNat * 16 + ((bs.getD (8 + e / 2) 0).toNat / (if e % 2 = 0 then 1 else 16)) % 16)

/-- Bytes cut into pieces of 12. -/
def dozens : Nat → List Byte → List (List Byte)
  | 0, _ => []
  | n + 1, bs => bs.take 12 :: dozens n (bs.drop 12)

/-- The FP16 record that a `FILL_ZF12` delivers for groups from g on, and its poisoned granules, each of which a poisoned granule of the
object reaches (R58, R62, R296). -/
def zf12Record (g n : Nat) (bytes : List Byte) (bad : List Nat) : List Byte × List Nat :=
  ((dozens n bytes).flatMap (fun bs => (zf12Codes bs).flatMap (fun x =>
     leBytes 2 (Elem.fp16.conv false .rne 0 (zf12Decode x)).code)),
   if bad = [] then [] else
     ((List.range n).filter (fun i => (granulesOf (zf12Byte (g + i)) 12).any bad.contains)).map (fun i => i / 4) |>.eraseDups)

/-- Is a page that a read begins to read below its target tier, or moving (R279)? -/
def State.isFallback (s : State) (reads : List FillRead) : Bool :=
  reads.any (fun r =>
    let m := s.mapEntry r.entry
    m.state == 2 || (match s.shunter.targets.find? (fun t => t.1 == r.entry) with
      | some t => decide (t.2 < m.tier)
      | none => false))

/-- What a read of spans of an object brings: its bytes, the granules that it read, those poisoned, and those in which it found an error;
the errors are dealt with where they lie (R281, R282, R307, R402). -/
structure ReadBack where
  bytes  : List Byte
  grans  : List Nat
  bad    : List Nat
  found  : List Nat
deriving DecidableEq, Repr

def State.readBack (s : State) (c object : Nat) (reads : List FillRead) (spans : List (Nat × Nat)) (errs : List ReadError) :
    State × ReadBack :=
  let grans := spans.flatMap (fun q => granulesOf q.1 q.2)
  let fresh := ReadError.pick errs false grans
  let found := match s.mapBase c object with | some base => s.foundIn base reads grans fresh | none => []
  let parts := spans.map (fun q => s.objReadFrom c object reads q.1 q.2)
  let r : ReadBack := { bytes := parts.flatMap (fun q => q.1), grans := grans, found := found.eraseDups
                        bad := (parts.flatMap (fun q => q.2) ++ found).eraseDups }
  let s := s.correctedReads c object reads (ReadError.pick errs true grans)
  (fresh.foldl (fun s g => s.freshError c object reads g) s, r)

/-- Reports of the errors found in a Flowing object, one for each granule, and the step is bad (R307, R308). -/
def State.foundErrors (s : State) (c object : Nat) (reads : List FillRead) (r : EvtRec) (grans : List Nat) : State :=
  match s.mapBase c object with
  | none => s
  | some base => grans.foldl (fun s g =>
      s.report { r with family := 3, code := 0, scope := scopeStep, context := c, object := object, page := g / pageGran,
                        loc := whereKey (s.served reads (base + g / pageGran)).frame (g % pageGran) false }) (s.runBad (grans != []))

/-- A Waybill is done: it is counted, its slot is free, and it signals its Token with `SIG` = 1 (R294, R299). -/
def State.waybillDone (s : State) (k : Nat) (id : DepId) (i : Nat) : State :=
  match (s.station k).manifest id, s.phys k with
  | some m, some p =>
    match m.wbs.find? (fun w => w.index == i) with
    | none => s
    | some w =>
      let st := (s.station k).modManifest id (fun x =>
        { x with wbs := x.wbs.map (fun v => if v.index = i then { v with stage := 2 } else v) })
      let s := (s.setStation k { st.dropDone with wbHeld := st.wbHeld - 1 }).bump .pilotWaybills p 1
      if (Waybill.ofNat w.word).sig && !m.cancelled then
        s.signal k { token := m.token, count := 1, bySt := k, byLine := id.line, byIx := id.index, bySect := m.sect,
                     wb := some i, sc := none }
      else s
  | _, _ => s

/-- A cancelled Waybill gives its slot back (R294, R304). -/
def State.waybillDropped (s : State) (k : Nat) (id : DepId) (i : Nat) : State :=
  s.modStation k (fun st =>
    match st.manifest id with
    | some m =>
      if m.wbs.any (fun v => v.index == i) then
        let st' := st.modManifest id (fun x => { x with wbs := x.wbs.filter (fun v => v.index != i) })
        { st'.dropDone with wbHeld := st.wbHeld - 1 }
      else st
    | none => st)

/-- Fills are done in position order: from the oldest position on, every filled one whose predecessors are done (R299). -/
def State.settle (s : State) (k sid : Nat) : List Pos → State
  | [] => s
  | x :: rest =>
    if x.done || x.state == .returning || x.cut then s.settle k sid rest
    else if x.state == .filled || x.state == .gone then
      let st := s.station k
      let d := st.siding sid
      let d := { d with slots := (d.modPos x.num (fun y => { y with done := true })).slots.filter (fun y =>
        !(y.num == x.num && y.state == .gone)) }
      let s := s.setStation k (st.setSiding sid d)
      let s := match x.source with
        | .waybill id i => s.waybillDone k id i
        | .expect _ _ => s
      s.settle k sid rest
    else s

def State.settleSiding (s : State) (k sid : Nat) : State := s.settle k sid ((s.station k).siding sid).slots

/-- The granules of the Station store that a position's record takes. -/
def Siding.storeGranules (d : Siding) (x : Pos) : List Nat := (List.range x.len).map (fun g => d.base + (x.ringAt + g) % d.size)

/-- The record of a position is in the ring: the slot is filled, what can be done is done, and takes that wait go on. `ring`: granules of
the store in which the read of a take that waits finds an uncorrected error (R307). -/
def State.fillPos (s : State) (k sid n : Nat) (data : List Byte) (poison ring : List Nat) : State :=
  let st := s.station k
  let d := st.siding sid
  match d.pos n with
  | none => s
  | some x =>
    let st := st.ringWrite d x data poison
    let st := st.setSiding sid (d.modPos n (fun y => { y with state := .filled, poison := poison != [], reads := [] }))
    let s := (s.setStation k st).settleSiding k sid
    let s := match (s.station k).takeAt sid n with
      | some p => s.storeErrors k p.id.line p.sect p.id.index (ring.filter (d.storeGranules x).contains)
      | none => s
    s.feedSiding k

/-- SIDING_FILL_START: the oldest reserved position starts, when its Waybill may and a slot and the ring have room (R290,
R298); a record read below its target tier is counted (R279). -/
def execSidingFillStart (k : Fin 128) (t : SidingTick) (s : State) : Out := s.clocked fun s =>
  let sid := t.siding
  let s := s.advance t.tick.lt
  match s.phys k with
  | none => .next s
  | some p =>
    let s := (s.advanceSc p t.tick.sc).noteFills k
    let st := s.station k
    let d := st.siding sid
    match s.workSlot, d.oldest with
    | some c, some x =>
      match x.source, s.fillAsked k sid x, (s.slot c).image with
      | .waybill id i, some len, some img =>
        match st.manifest id with
        | none => .next s
        | some m =>
          match m.wbs.find? (fun w => w.index == i) with
          | none => .next s
          | some w =>
            let wb := Waybill.ofNat w.word
            match img.obj wb.object with
            | none => .next s
            | some od =>
              if !d.mayStart x.num len then .next s
              else
                let reads := (wb.spans od).flatMap (fun q => s.readsOf c wb.object q.1 q.2)
                let d := d.start x.num len (fun y =>
                  { y with object := wb.object, row := wb.trow, col := wb.tcol, desc := wb.fmt, sect := m.forSect, reads := reads,
                           firstLt := s.time.lt + s.readLatency img reads, beganSc := s.cycle p })
                let s := s.bump .shuntFallbackTiles 0 (if s.isFallback reads then 1 else 0)
                let s := s.setStation k ((st.setSiding sid d).modManifest id (fun y =>
                  { y with wbs := y.wbs.map (fun v => if v.index = i then { v with stage := 1 } else v) }))
                .next (s.noteFills k)
      | _, _, _ => .next s
    | _, _ => .next s

/-- A fill whose read was cancelled in flight has completed: its data is dropped and the slot goes to returning (R304). -/
def State.landCut (s : State) (k p sid : Nat) (x : Pos) : State :=
  let s := (s.modStation k (fun st => st.setSiding sid ((st.siding sid).modPos x.num (fun y =>
    { y with state := .returning, cut := false, reads := [] })))).bump .sidingDiscard p 1
  match x.source with
  | .waybill id wi => s.waybillDropped k id wi
  | .expect _ _ => s

/-- The record of a fill has been read (R296, R307): a Flowing one goes into the ring, flagged where it is poisoned; an error in an
Aborting one stops the context, and the fill is never filled. -/
def State.landFill (s : State) (c k p sid : Nat) (x : Pos) (m : Manifest) (wi : Nat) (wb : Waybill) (od : ObjDesc)
    (errs : List ReadError) (ring : List Nat) : State :=
  let (s, r) := s.readBack c wb.object x.reads (wb.spans od) errs
  if od.aborting ∧ r.bad ≠ [] then
    let s := s.modStation k (fun st => st.setSiding sid ((st.siding sid).modPos x.num (fun y => { y with reads := [] })))
    if (s.slot c).state = .stopped then s
    else s.pilotAbort c k wb.object x.reads ((r.grans.find? r.bad.contains).getD 0) m wi
  else
    let s := s.foundErrors c wb.object x.reads (whereManifest s k m) r.found
    let rec' := if wb.kind = 1 then zf12Record (wb.offset / 8) 8192 r.bytes r.bad
      else (r.bytes, r.bad.map (fun g => g - (r.grans.headD 0)))
    let s := (s.bump .pilotPoison p rec'.2.length).bump .pilotFillGran p (x.len / 4)
    s.fillPos k sid x.num rec'.1 rec'.2 ring

/-- SIDING_FILL_LAND: fill i of those in flight lands in the ring, no sooner than its tier and the Pilot port allow (R289, R296, R299,
R302, R307); a frame that its page has left is free once the read is over (R274). A read that R307 ended has nothing to land. -/
def execSidingFillLand (k : Fin 128) (sid : Fin 16) (i : Nat) (r : FillFound) (t : Tick) (s : State) : Out := s.clocked fun s =>
  let s := s.advance t.lt
  match s.phys k with
  | none => .next s
  | some p =>
    let s := s.advanceSc p t.sc
    let st := s.station k
    match (((st.siding sid).slots.filter (fun x => x.state == .inFlight))[i]?) with
    | none => .next s
    | some x =>
      if x.reads = [] ∨ s.time.lt < x.firstLt ∨ s.cycle p < x.beganSc + ceilDiv x.len 4 then .next s
      else if x.cut then .next ((s.landCut k p sid x).drained.noteFills k)
      else
        match x.source, s.workSlot with
        | .waybill id wi, some c =>
          match st.manifest id, (s.slot c).image with
          | some m, some img =>
            match m.wbs.find? (fun w => w.index == wi) with
            | none => .next s
            | some w =>
              let wb := Waybill.ofNat w.word
              match img.obj wb.object with
              | none => .next s
              | some od => .next (((s.landFill c k p sid x m wi wb od r.errs r.ring).drained.noteFills k).noteHeads st k)
          | _, _ => .next s
        | _, _ => .next s

/-- The Waybill that is the next write-back to start, or to be done: Manifest order, then Waybill order (R299). -/
def Station.nextBack (st : Station) (stage : Nat) : Option (Manifest × Wb) :=
  st.pilot.findSome? (fun m =>
    if m.writeBack && !(m.failed && stage == 1) then (m.wbs.find? (fun w => w.stage == stage)).map (fun w => (m, w)) else none)

/-- WRITEBACK_START: the next write-back Waybill starts (R299, R301). -/
def execWritebackStart (k : Fin 128) (s : State) : Out := s.clocked fun s =>
  let st := s.station k
  match st.nextBack 0, s.workSlot with
  | some (m, w), some c =>
    if m.cancelled || !s.sectionOpen c m then .next s
    else .next (s.setStation k (st.modManifest m.dep (fun y =>
      { y with wbs := y.wbs.map (fun v => if v.index = w.index then { v with stage := 1 } else v) })))
  | _, _ => .next s

/-- Is a granule of the destination reached by a poisoned source granule, where `a` is the first byte of the groups and `at'` their first
byte in the source (R62)? -/
def zf12Reaches (a at' n : Nat) (bad : List Nat) (g : Nat) : Bool :=
  (List.range 7).any (fun j =>
    let i := (64 * g - a) / 12 + j
    decide (i < n ∧ a + 12 * i < 64 * g + 64 ∧ 64 * g < a + 12 * i + 12) && (granulesOf (at' + 12 * i) 12).any bad.contains)

/-- The groups of a ZF12 write-back, page by page, with the poison of the source granules that hold them (R60, R62, R485). -/
def State.zf12Back (s : State) (c object g : Nat) (data : List Byte) (bad : List Nat) (n : Nat) : State :=
  (zf12Spans g n).foldl (fun s q =>
    let at' := 12 * (q.1 - g)
    s.objWrite c object (zf12Byte q.1) (sliceBytes data at' (12 * q.2))
      (fun x => if bad = [] then false else zf12Reaches (zf12Byte q.1) at' q.2 bad x)) s

/-- First byte in its object that granule x of a write-back's source goes to (R60, R262). -/
def Waybill.destByte (w : Waybill) (d : ObjDesc) (x : Nat) : Nat :=
  if w.kind = 3 ∧ d.layout = 1 then zf12Byte (w.offset + 64 * x / 12) else ((w.spans d).headD (0, 0)).1 + 64 * x

/-- WRITEBACK_DONE: the oldest write-back under way is written with its poison bits, and is done (R299, R301, R307, R308). One whose
poison stops the context writes nothing, and is never done. -/
def execWritebackDone (k : Fin 128) (bad : List Nat) (now : Nat) (s : State) : Out := s.clocked fun s =>
  let s := s.advance now
  match (s.station k).nextBack 1, s.workSlot, s.phys k with
  | some (m, w), some c, some p =>
    let wb := Waybill.ofNat w.word
    match (s.slot c).image with
    | none => .next s
    | some img =>
      match img.obj wb.object with
      | none => .next s
      | some d =>
        let found := bad.filter (fun g => decide (g < wb.gran))
        let was := s.station k
        let s := if found = [] then s else s.modStation k (fun st =>
          { st with storePoison := found.foldl (fun q g => numInsert q (wb.store + g)) st.storePoison })
        let st := s.station k
        let data := storeRead st (64 * wb.store) (64 * wb.gran)
        let poison := (storePoisoned st (64 * wb.store) (64 * wb.gran)).map (fun g => g - wb.store)
        if d.aborting && poison != [] then
          let x := poison.headD 0
          let s := s.modStation k (fun st => st.modManifest m.dep (fun y => { y with failed := true }))
          if (s.slot c).state = .stopped then .next s
          else .next (s.abortingError c { whereManifest s k m with
            object := wb.object, page := wb.destByte d x / pageBytes,
            loc := place 4 60 + place (wb.store + x) 22 + classBit true + wbBits w.index })
        else
          let s := found.foldl (fun s g => s.report { whereManifest s k m with
            family := 3, code := 0, scope := scopeStep, context := c, loc := place 4 60 + place (wb.store + g) 22 }) s
          let s := s.runBad (poison != [])
          let s := if wb.kind = 3 ∧ d.layout = 1 then s.zf12Back c wb.object wb.offset data poison wb.groups
            else
              let b := wb.destByte d 0
              s.objWrite c wb.object b data (fun g => poison.contains (g - b / 64))
          let s := s.bump .pilotWriteGran p (ceilDiv wb.gran 4)
          .next ((s.waybillDone k m.dep w.index).noteHeads was k)
  | _, _, _ => .next s

/-- The departure whose fill waits at a position (R303): its section and its `INDEX`. -/
def State.fillDep (s : State) (k sid : Nat) (x : Pos) : Option (Nat × Nat) :=
  match x.source with
  | .waybill id _ => ((s.station k).manifest id).map (fun m => (m.sect, id.index))
  | .expect _ _ => ((List.range 128).flatMap (fun q => (s.station q).progs)).findSome? (fun p =>
      if turnFills p.word k sid && p.claim == x.num && p.doneSc.isNone then some (p.sect, p.id.index) else none)

/-- `SIDING_OVERFLOW` of Siding sid, whose number stays with the slot: the event record has no field for it (R178, R303). -/
def State.overflowed (s : State) (c k sid line : Nat) (q : Nat × Nat) : State :=
  (s.contractFault c 5 (whereDep s k line q.1 q.2)).modSlot c (fun x => { x with overSiding := some sid })

/-- SIDING_OVERFLOW: a fill has waited `WAIT_TIMEOUT` for a slot or ring space while no issued take held a claim, or a take at a position
that nothing has reserved (R303). -/
def execSidingOverflow (k : Fin 128) (sid : Fin 16) (now : Nat) (s : State) : Out :=
  let s := (s.advance now).noteFills k
  match s.runSlot with
  | none => .next s
  | some c =>
    match (s.slot c).image with
    | none => .next s
    | some img =>
      let st := s.station k
      let d := st.siding sid
      let limit := 1000 * img.waitTimeout
      match st.hungTake sid with
      | some pr =>
        if pr.reachLt + limit ≤ s.time.lt then .next (s.overflowed c k sid d.line (pr.sect, pr.id.index)) else .next s
      | none =>
        match d.wait, d.oldest with
        | some w, some x =>
          match w.hungLt, s.fillDep k sid x with
          | some t, some q => if w.num = x.num ∧ t + limit ≤ s.time.lt then .next (s.overflowed c k sid d.line q) else .next s
          | _, _ => .next s
        | _, _ => .next s

end Sys2Proof.Machine
end

