-- ==== Sys2Proof/Machine/Turntable.lean ====
section
/-! DEFINITION. The Turntables (09_the_backward_pass.md): TURN and the records that they serve. -/

namespace Sys2Proof.Machine

open Sys2Proof

/-- The source coordinates of a `TURN`, and whether a poisoned granule gave them (R240). -/
def turnCoords (st : Station) (o : TurnOps) : (Nat × Nat) × Bool :=
  if o.cind then (coordGranule st o.cgran, st.storePoison.contains o.cgran) else ((o.trow, o.tcol), false)

/-- The oldest expected position of a Siding that no `TURN` has claimed (R300). -/
def Siding.expected (d : Siding) : Option Pos := d.slots.find? Pos.awaitsTurn

/-- Format that a position expects. -/
def Pos.expects (p : Pos) : Nat := match p.source with | .expect f _ => f | .waybill _ _ => 0

/-- State check of `TURN` (R153, R241, R300). -/
def turnCheck (s : State) (k _j : Nat) (h : Head) : List Nat :=
  let o := turnOps h.word
  let rc := (turnCoords (s.station k) o).1
  let d := (s.station o.dstStation).siding o.siding
  reasonsOf [(o.cind && !inGrid h.img o.object rc.1 rc.2, 0x0B), (!s.live h.c o.object, 0x0B)] ++
  (if o.dest = 0 then
    match d.expected with
    | some p => reasonsOf [(p.expects != o.ofmt, 6), (decide (d.size < recGran o.ofmt), 0x0B)]
    | none => []
   else [])

/-- A `TURN` joins a queue: behind all that were accepted before it, and, of those accepted in the same sc, in ascending logical
Station order (R245). -/
def queueTurn (r : TurnReq) : List TurnReq → List TurnReq
  | [] => [r]
  | q :: t => if (q :: t).all (fun x => x.sc == r.sc && decide (r.station < x.station)) then r :: q :: t else q :: queueTurn r t

/-- `TURN` at issue: it enters the queue of its Sector's Turntable, and claims its Siding position (R245, R300). -/
def turnEffect (s : State) (k : Nat) (h : Head) (pr : Prog) : State :=
  let o := turnOps h.word
  let (rc, bad) := turnCoords (s.station k) o
  let u := turnOf k
  let req : TurnReq :=
    { station := k, dep := pr.id, sect := h.sect, word := h.word, row := rc.1, col := rc.2, sc := pr.issueSc }
  let s := { s with turns := tset s.turns u (queueTurn req (tget [] s.turns u)) }
  let s := s.runBad bad
  if o.dest = 0 then
    let d := (s.station o.dstStation).siding o.siding
    match d.expected with
    | some p =>
      let s := s.modProg k pr.id (fun x => { x with claim := p.num })
      s.modStation o.dstStation (fun st => st.setSiding o.siding (d.modPos p.num (fun x =>
        { x with source := .expect p.expects true, object := o.object, row := rc.2, col := rc.1, sect := h.sect })))
    | none => s
  else s

def turnRule : DepRule :=
  { op := opTurn, form := fun k h => turnForm h.img k h.word, check := turnCheck, effect := turnEffect }

/-- Is the head of a line a `TURN` that its Turntable's full queue alone keeps from issuing (R247)? -/
def turnWaits (s : State) (k : Nat) (h : Head) : Bool :=
  let o := turnOps h.word
  Dep.opcode h.word == opTurn && decide (h.planned ≤ s.time.lt) && waitsMet (s.station k) (Dep.waits h.word) &&
  decide (8 ≤ (tget [] s.turns (turnOf k)).length) &&
  (o.dest != 0 || ((s.station o.dstStation).siding o.siding).slots.any Pos.awaitsTurn)

/-- A `TURN` that finds its queue full notes the cycle from which it waits; once it issues, the wait is counted (R247). -/
def State.turnQueueWait (s : State) (k j sc : Nat) (l : RunLine) : State :=
  match s.headOf k j, s.phys k with
  | .head h, some p =>
    if h.index = l.next ∧ turnWaits s k h then
      let s := s.advanceSc p sc
      s.modStation k (fun st => { st with lines := tset st.lines j { st.line j with queueSc := some (l.queueSc.getD (s.cycle p)) } })
    else match l.queueSc with
      | some t => if h.index = l.next then s else s.bump .turnQueueWait (turnOf k) (s.cycle p - t)
      | none => s
  | .runsOut .., some p =>
    match l.queueSc with
    | some t => s.bump .turnQueueWait (turnOf k) (s.cycle p - t)
    | none => s
  | _, _ => s

/-- `TURN` (R240, R241, R245). -/
def execTurn (k : Fin 128) (j : Fin 4) (t : IssueTick) (s : State) : Out :=
  .next (((List.range 16).foldl (fun s i => s.noteFills (k / 16 * 16 + i)) (issue turnRule k j t s)).turnQueueWait k j t.sc
    ((s.station k).line j))

/-- Granules of a record that hold bits of poisoned elements of row r, then of poisoned scales (R48, R215). -/
def recordBad (f : Fmt) (r : Nat) (bad : List Bool) : List Nat :=
  rowBadGranules false (r * f.rowBytes) f.elem.bits bad ++
  (if f.isMx then
    ((List.range f.blocks).filter (fun b => ((bad.drop (f.block * b)).take f.block).any id)).map
      (fun b => (256 * f.rowBytes + r * f.blocks + b) / 64)
   else [])

/-- Is element (i, j) of a record poisoned by its own granule or its scale's (R48)? -/
def elemPoisoned (f : Fmt) (poison : List Nat) (i j : Nat) : Bool :=
  (granulesOf (i * f.rowBytes + f.elem.bits * j / 8)
    ((f.elem.bits * j + f.elem.bits - 1) / 8 + 1 - f.elem.bits * j / 8)).any poison.contains ||
  (f.isMx && poison.contains ((256 * f.rowBytes + i * f.blocks + j / f.block) / 64))

/-- The transposed record (R242): bytes and poisoned granules. -/
def transpose (inF outF : Fmt) (mode : Round) (sr : Nat × Nat) (station : Nat) (bytes : List Byte) (poison : List Nat) :
    List Byte × List Nat :=
  let nums := (List.range 256).map (rowNum inF bytes)
  let scales := (List.range 256).map (fun i => rowScales inF bytes i 32)
  let rows := (List.range 256).map (fun j =>
    let codes := (List.range 256).map (fun i => elemCode inF (nums.getD i 0) j)
    let bad := if poison = [] then List.replicate 256 false
      else (List.range 256).map (fun i => elemPoisoned inF poison i j)
    if inF.isMx then
      let vals := (List.range 256).map (fun i =>
        mxValue inF.elem ((scales.getD i []).getD (j / inF.block) 0) (codes.getD i 0))
      (convRow outF mode false (rowRandom sr mode station j) vals, bad)
    else (({ codes := codes, scales := [], sat := 0, nan := 0 } : RowCodes), bad))
  let body := rows.flatMap (fun r => leBytes outF.rowBytes (packCodes outF.elem.bits r.1.codes))
  let plane := rows.flatMap (fun r => r.1.scales.map (fun x => BitVec.ofNat 8 x))
  let bad := if poison = [] then []
    else (List.range 256).flatMap (fun j => match rows[j]? with | some r => recordBad outF j r.2 | none => [])
  (body ++ plane, bad.foldl numInsert [])

/-- The Consist that a `TURN` puts on a line (R243); its header may leave from cycle `readyAt` on (R244). -/
def turnConsist (o : TurnOps) (q : TurnReq) (data : List Byte) (poison : List Nat) (readyAt : Nat) : Consist :=
  { header := headerWord q.col q.row o.object o.ofmt o.tag q.sect o.hops o.useFrom o.stride q.station (data.length / 256)
      (poison != []),
    data := data, poison := poison, dist := 0, dep := some q.dep, size := data.length / 256 + 1, readyAt := readyAt }

/-- The cycle of a logical Station. -/
def State.stationCycle (s : State) (k : Nat) : Nat := match s.phys k with | some p => s.cycle p | none => 0

/-- Buffers of Turntable u that hold a record whose last output flit has not left (R244); that of a cancelled `TURN` is free (R246). -/
def State.turnBuffers (s : State) (u : Nat) : List TurnOut :=
  (tget [] s.turnOut u).filter (fun o =>
    ((s.station o.station).prog o.dep).isSome &&
    (match o.freeSc with | some t => decide (s.stationCycle o.station < t) | none => true))

/-- First output flit after the last source row (R175, R244). -/
def State.turnLatency (s : State) : Nat :=
  match s.workSlot with
  | some c => (match (s.slot c).image with | some i => if s.slowUnits i then 41 else 9 | none => if s.isA1 then 41 else 9)
  | none => if s.isA1 then 41 else 9

/-- Cycle `sc` has come for Turntable u and for the Stations whose `TURN`s it holds. -/
def State.turnTick (s : State) (u sc : Nat) : State :=
  let ks := (tget [] s.turnOut u).map (fun o => o.station) ++ (tget [] s.turns u).map (fun q => q.station)
  ks.foldl (fun s k => match s.phys k with | some p => s.advanceSc p sc | none => s) s

/-- The record of a `TURN` has been read (R241 to R244, R307): it is transposed or re-blocked, and goes to its Siding or to its lines, the
first flit 255 sc and the latency of R244 after the first source row, or as much later as the feed is. -/
def State.turnOutput (s : State) (u : Nat) (q : TurnReq) (rest : List TurnReq) (inF outF : Fmt) (mode : Round) (feed claim : Nat)
    (r : ReadBack) (fell : Bool) (ring : List Nat) : State :=
  let o := turnOps q.word
  let out := transpose inF outF mode s.srInputs q.station r.bytes (r.bad.map (fun g => g - r.grans.headD 0))
  let first := s.stationCycle q.station + 255 + feed + s.turnLatency
  let flits := out.1.length / 256
  let free := if o.dest = 0 then some (first + flits - 1) else none
  let s := { s with turns := tset s.turns u rest,
                    turnOut := tset s.turnOut u (s.turnBuffers u ++ [(⟨q.station, q.dep, free⟩ : TurnOut)]) }
  let s := (s.bump .turnRecords u 1).bump .turnFeedWait u feed
  let slot := if o.dest = 0 then (match ((s.station o.dstStation).siding o.siding).wait with
    | some w => if w.num = claim then s.stationCycle o.dstStation - w.began else 0
    | none => 0) else 0
  let s := (s.stall q.station q.dep 3 (s.stationCycle q.station - q.sc - slot)).stall q.station q.dep 1 (feed + slot)
  let s := s.stall q.station q.dep 7 (if s.stepping then 32 else 0)
  let s := s.bump .shuntFallbackTiles 0 (if fell then 1 else 0)
  if o.dest = 0 then
    let s := s.bump .turnFlits u flits
    let s := s.modStation o.dstStation (fun st => st.setSiding o.siding ((st.siding o.siding).start claim (recGran o.ofmt)
      (fun x => { x with desc := o.ofmt })))
    (s.fillPos o.dstStation o.siding claim out.1 out.2 ring).finish q.station q.dep (first + flits - 1)
  else
    let cs := turnConsist o q out.1 out.2 first
    let lines := match o.dest with | 1 => [0] | 2 => [1] | _ => [0, 1]
    lines.foldl (fun s l => s.modHop (136 + u) l (fun h => { h with own := h.own ++ [cs] })) s

/-- The oldest `TURN` is served: its source record is read, and goes on, flagged where it is poisoned; an error in an Aborting one stops
the context, and the `TURN` goes no further (R307, R309). -/
def State.turnServe (s : State) (u c : Nat) (q : TurnReq) (rest : List TurnReq) (img : Image) (feed : Nat) (errs : List ReadError)
    (ring : List Nat) : State :=
  let o := turnOps q.word
  let claim := match (s.station q.station).prog q.dep with | some x => x.claim | none => 0
  match img.obj o.object, Fmt.ofDesc o.ifmt, Fmt.ofDesc o.ofmt, Round.ofCode o.round with
  | some od, some inF, some outF, some mode =>
    let b := (q.row * od.cols + q.col) * od.recordBytes
    let reads := s.readsOf c o.object b inF.recordBytes
    let fell := s.isFallback reads
    let (s, r) := s.readBack c o.object reads [(b, inF.recordBytes)] errs
    let whr := whereDep s q.station q.dep.line q.sect q.dep.index
    if od.aborting && r.bad != [] then
      let s := { s with turns := tset s.turns u rest }
      let g := (r.grans.find? r.bad.contains).getD 0
      match s.mapBase c o.object with
      | some base =>
        if (s.slot c).state = .stopped then s
        else s.abortingError c { whr with
          object := o.object, page := g / pageGran, loc := whereKey (s.served reads (base + g / pageGran)).frame (g % pageGran) true }
      | none => s
    else (s.foundErrors c o.object reads whr r.found).turnOutput u q rest inF outF mode feed claim r fell ring
  | _, _, _, _ => s

/-- The heads of the 16 Stations of Turntable u are looked at after a change of its queue and of the Sidings that it fills. -/
def State.noteSector (s b : State) (u : Nat) : State :=
  (List.range 16).foldl (fun s i => (s.noteHeads (b.station (16 * u + i)) (16 * u + i)).noteFills (16 * u + i)) s

/-- TURN_RECORD_SERVE: Turntable u launches the flits that are ready (R244), and, with a buffer free, takes its next `TURN`: the record
is fetched, transposed or re-blocked, and put on its lines or into its Siding (R239 to R245, R307). A Siding fill begins only when its
position may start (R300). -/
def execTurnRecordServe (u : Fin 8) (r : TurnRead) (t : Tick) (s : State) : Out := s.clocked fun s =>
  let s := (s.advance t.lt).turnTick u t.sc
  let s := (s.pump (136 + u) 0).pump (136 + u) 1
  match tget [] s.turns u, s.workSlot with
  | q :: rest, some c =>
    let o := turnOps q.word
    let s := if o.dest = 0 then s.noteFills o.dstStation else s
    let d := (s.station o.dstStation).siding o.siding
    let claim := match (s.station q.station).prog q.dep with | some x => x.claim | none => 0
    if 2 ≤ (s.turnBuffers u).length || (o.dest == 0 && !d.mayStart claim (recGran o.ofmt)) then .next s
    else match (s.slot c).image with
      | some img => .next ((s.turnServe u c q rest img r.feed r.errs r.ring).noteSector s u)
      | none => .next s
  | _, _ => .next s

end Sys2Proof.Machine
end

