-- ==== Sys2Proof/Machine/Cancel.lean ====
section
/-! DEFINITION. Cancelled work (R105, R135, R173, R188, R219, R246, R298, R304 to R306): what a cancel of a section does to the
departures, rows, Consists, Manifests and Siding positions that belong to it. -/

namespace Sys2Proof.Machine

open Sys2Proof

/-- Does a cancel stop this departure in progress (R135, R219, R246, R304, R306, R371)? Under `PREEMPT` the drain path's departures run
to completion. A group close, a group open and a Ballast run on in every case. -/
def Prog.stops (preempt : Bool) (p : Prog) : Bool :=
  let op := Dep.opcode p.word
  [opStage, opMma, opCplx, opSend, opTake, opTurn, opPoints, opColl].contains op ||
  (!preempt && decide (opDrain ≤ op ∧ op ≤ opVstats))

/-- Rows that a multiply has entered: row or pass offset, group offset, the row's own number. -/
def Prog.enteredRows (p : Prog) : List (Nat × Nat) :=
  if Dep.opcode p.word = opMma then (List.range p.next).map (fun n => (0, n))
  else
    let o := cplxOps p.word
    (List.range p.pass).flatMap (fun q => (List.range o.nrows).map (fun n => (q, n))) ++
    (List.range p.next).map (fun n => (p.pass, n))

/-- The group and the tile row (the lower of a pair) that row (pass, n) of a multiply reaches. -/
def Station.reach (st : Station) (p : Prog) (r : Nat × Nat) : Nat × Nat :=
  if Dep.opcode p.word = opMma then
    let o := mmaOps p.word
    (o.group, mmaTileRow (st.group o.group) o r.2)
  else
    let o := cplxOps p.word
    let g := o.group + (match (cplxPasses o.form)[r.1]? with | some q => q.grp | none => 0)
    (g, (st.group g).tileRow (o.rowOff + r.2))

/-- Tile rows that a term for (group, tile row) marks: those of the pair in ACC96, and in a cascaded pair those of the partner
(R135). -/
def Station.markRows (st : Station) (g r : Nat) : List Nat :=
  let x := st.group g
  let own := kindRows x.kind r
  if x.cascade then own ++ own.map (fun q => (st.group x.partner).base + (q - x.base)) else own

/-- Every row of a multiply, entered or not. -/
def Prog.allRows (p : Prog) : List (Nat × Nat) :=
  if Dep.opcode p.word = opMma then (List.range (mmaOps p.word).nrows).map (fun n => (0, n))
  else
    let o := cplxOps p.word
    (List.range (cplxPasses o.form).length).flatMap (fun q => (List.range o.nrows).map (fun n => (q, n)))

/-- The Siding positions from which a stopped `MMA` was streaming: each is released with the last of its rows that the array
still holds, or at once (R84, R304). -/
def Station.endStream (st : Station) (p : Prog) : Station :=
  let o := mmaOps p.word
  if Dep.opcode p.word = opMma && o.kind == 1 then
    let sid := o.src % 16
    (List.range (ceilDiv p.next 256)).foldl (fun st i =>
      let n := p.claim + i
      match ((st.inArray.filter (fun r => r.dep == p.id && r.t / 256 == i)).map (fun r => r.t)).max? with
      | some t => { st with inArray := st.inArray.map (fun r =>
          if r.dep == p.id && r.t / 256 == i then { r with frees := if r.t = t then some (sid, n) else none } else r) }
      | none => st.releasePos sid n) st
  else st

/-- A multiply of a cancelled section enters no more rows (R135): its group loses the rows that never enter, the rows that its
terms reach are marked, and what R82 discarded of it does not come back. -/
def Station.cutMultiply (st : Station) (p : Prog) (sc : Nat) : Station :=
  let waiting := (st.redo.filter (fun r => r.dep == p.id)).map (fun r => (r.pass, r.t))
  let entered := p.enteredRows.filter (fun r => !waiting.contains r)
  let never := p.allRows.filter (fun r => !entered.contains r)
  let st := never.foldl (fun st r =>
    let g := (st.reach p r).1
    st.setGroup g { st.group g with inFlight := (st.group g).inFlight - 1, lastWrite := max (st.group g).lastWrite sc }) st
  let marks := entered.flatMap (fun r => st.markRows (st.reach p r).1 (st.reach p r).2)
  let st := marks.eraseDups.foldl Station.markRow st
  let st := { st with redo := st.redo.filter (fun r => r.dep != p.id), mulq := st.mulq.filter (fun d => d != p.id) }
  st.endStream p

/-- A departure of a cancelled section stops: it completes nothing and signals nothing. -/
def Station.cutDep (sc : Nat) (st : Station) (p : Prog) : Station :=
  let op := Dep.opcode p.word
  let st := if op = opMma ∨ op = opCplx then st.cutMultiply p sc else st
  let shadow := match st.shadow with
    | .staging _ _ dep none _ => if dep = p.id then .empty else st.shadow
    | x => x
  { st with
    shadow := shadow, takes := st.takes.filter (fun t => t.1 != p.id),
    waits := st.waits.filter (fun w => w.dep != p.id), progs := st.progs.filter (fun x => x.id != p.id) }

/-- Positions that a stopped multiply was streaming: they go by R84 and not by R304. -/
def Prog.streamed (p : Prog) : List Nat :=
  if Dep.opcode p.word = opMma && (mmaOps p.word).kind == 1 then
    (List.range (ceilDiv p.next 256)).map (fun i => p.claim + i)
  else []

/-- A Manifest is cancelled (R304): Waybills that have not started are dropped with their slots; a fill in flight and a
write-back under way go on. -/
def Station.cancelManifest (st : Station) (m : Manifest) : Station :=
  let flying := fun (w : Wb) => w.stage == 1 && (m.writeBack ||
    (st.siding m.siding).slots.any (fun p => p.state == .inFlight && p.source == .waybill m.dep w.index))
  let ended := m.wbs.filter (fun w => w.stage == 2)
  let kept := m.wbs.filter flying
  let held := (m.fetched - m.arrived) + (m.wbs.length - ended.length - kept.length)
  { (st.modManifest m.dep (fun x => { x with cancelled := true, wbs := kept })).dropDone with
    wbHeld := st.wbHeld - held, progs := st.progs.filter (fun p => p.id != m.dep) }

/-- What a cancel does to one Siding position. -/
inductive PosFate where
  | stays | removed | flies | returns
deriving DecidableEq, Repr

/-- A position that the cancel covers (R304). -/
def Pos.fate (hit : Bool) (p : Pos) : PosFate :=
  if !hit then .stays
  else match p.state with
    | .reserved | .gone => .removed
    | .inFlight => .flies
    | .filled => .returns
    | .returning => .stays

/-- The positions of a Siding after a cancel: those that stay and are unclaimed take new numbers after every old one, and the
next claim starts at the first of them (R288, R304). `cutFrom`: first position that a stopped take had claimed. -/
def Siding.cancel (d : Siding) (hit : Pos → Bool) (cutFrom : Nat) : Siding × List (Nat × Nat) :=
  let fate := fun (p : Pos) => p.fate (hit p)
  if d.slots.all (fun p => fate p == .stays) && d.claimed ≤ cutFrom then (d, [])
  else
    let kept := d.slots.filter (fun p => fate p != .removed)
    let kept := kept.map (fun p => match fate p with
      | .flies => { p with cut := true }
      | .returns => { p with state := .returning }
      | _ => p)
    if d.next < cutFrom then ({ d with slots := kept, claimed := cutFrom }, [])
    else
      let moves := kept.filter (fun p => decide (d.claimed ≤ p.num) && p.state != .returning && !p.cut)
      let fresh := fun (n : Nat) => match moves.findIdx? (fun p => p.num == n) with | some i => d.next + i | none => n
      ({ d with slots := kept.map (fun p => { p with num := fresh p.num }), next := d.next + moves.length,
                claimed := d.next },
       moves.map (fun p => (p.num, fresh p.num)))

/-- Turntable departures that fill this Siding follow their positions to their new numbers. -/
def State.reclaim (s : State) (k sid : Nat) (moved : List (Nat × Nat)) : State :=
  if moved = [] then s
  else
    let base := k / 16 * 16
    (List.range 16).foldl (fun s i =>
      s.modStation (base + i) (fun st => { st with progs := st.progs.map (fun p =>
        if Dep.opcode p.word == opTurn && (turnOps p.word).dest == 0 && (turnOps p.word).dstStation == k &&
            (turnOps p.word).siding == sid then
          { p with claim := ((moved.find? (fun q => q.1 == p.claim)).map (fun q => q.2)).getD p.claim }
        else p) })) s

/-- One Siding of Station k after a cancel: filled Consists go to returning, each counted (R304). -/
def State.cancelSiding (s : State) (k p sid : Nat) (hit : Pos → Bool) (cutFrom : Nat) : State :=
  let d := (s.station k).siding sid
  let r := d.cancel hit cutFrom
  let out := d.slots.filter (fun x => x.fate (hit x) == .returns)
  let s := if r.1 = d then s else s.modStation k (fun st => st.setSiding sid r.1)
  let s := out.foldl (fun s x => match x.source with
    | .waybill id i => if x.done then s else s.waybillDropped k id i
    | .expect _ _ => s) s
  (s.bump .sidingDiscard p out.length).reclaim k sid r.2

/-- The Pilot's work for every section that `test` names (R304, R305); with `ahead`, only what belongs to sections that have not
begun (R298). -/
def State.cancelPilot (s : State) (k p : Nat) (test : Nat → Bool) (ahead : Bool) (cuts : List Prog) : State :=
  let st := s.station k
  let mine := fun (m : Manifest) => test m.forSect && (!ahead || m.forSect != m.sect) && !m.cancelled
  let st := (st.pilot.filter mine).foldl Station.cancelManifest st
  let st := { st with
    zeroAt := ((st.named.filter (fun q => test q.1)).map (fun q => q.2)).foldl numInsert st.zeroAt
    named := st.named.filter (fun q => !test q.1) }
  let streamed := cuts.flatMap (fun q => match q.sidingClaim with | some (sid, _) => q.streamed.map (fun n => (sid, n)) | none => [])
  (List.range 16).foldl (fun s sid =>
    let d := (s.station k).siding sid
    let from' := ((cuts.filterMap Prog.sidingClaim).filter (fun q => q.1 == sid)).map (fun q => q.2)
    let cutFrom := from'.foldl min d.claimed
    s.cancelSiding k p sid (fun x =>
      !streamed.contains (sid, x.num) &&
      ((test x.sect && (!ahead || x.ahead)) || decide (cutFrom ≤ x.num ∧ x.num < d.claimed))) cutFrom)
    (s.setStation k st) |>.noteFills k |>.drained

/-- One Station's work of the sections that `test` names stops. -/
def State.cancelStation (s : State) (k : Nat) (test : Nat → Bool) (preempt : Bool) : State :=
  match s.phys k with
  | none => s
  | some p =>
    let st := s.station k
    let cuts := st.progs.filter (fun x => test x.sect && x.stops preempt)
    let s := s.cutDrains k p (s.cycle p) cuts
    let st := cuts.foldl (Station.cutDep (s.cycle p)) (s.station k)
    let shadow := match st.shadow with
      | .full pl _ => if test pl.sect then .empty else st.shadow
      | x => x
    (s.setStation k { st with shadow := shadow }).cancelPilot k p test false cuts

/-- The output of a node after a cancel: own Consists that have not begun to leave never do, and of one that has, no further flit is
launched (R105, R246). A junction, which is no Station, goes on with the flits that it is given. -/
def Hop.cutOutput (h : Hop) (junction : Bool) (test : Nat → Bool) : Hop :=
  { h with own := h.own.filter (fun c => !test c.sect),
           moving := h.moving.map (fun c => if test c.sect && !(junction && h.passes) then { c with size := h.sent } else c) }

/-- Flits that will have been launched to the input of `p` of the Consist at its head. -/
def State.cutSize (s : State) (p l : Nat) (c : Consist) : Nat :=
  let up := s.hop (prevNode s.flash.retired p l) l
  match up.moving with
  | some m => if up.arrived then m.size else c.size
  | none => c.size

/-- A Consist that passes a junction is as long as what reaches the junction. -/
def State.cutJunction (s : State) (p l : Nat) (h : Hop) (test : Nat → Bool) : Hop :=
  match h.moving, h.held with
  | some m, some c => if h.passes && test m.sect && h.sent == h.read then { h with moving := some { m with size := s.cutSize p l c } } else h
  | _, _ => h

/-- The Consist at the head of a node's input after a cancel: a Station discards it (R105). -/
def State.cutInput (s : State) (p l : Nat) (h : Hop) (test : Nat → Bool) : Hop :=
  match h.held with
  | some c =>
    if test c.sect then { h with held := some { c with size := s.cutSize p l c }, mode := if p < 136 then .dropping else h.mode } else h
  | none => h

/-- Every hop is changed by a rule of its node and line. -/
def State.mapHops (s : State) (f : Nat → Nat → Hop → Hop) : State :=
  { s with hops := s.hops.map (fun q => (q.1, f (q.1 / 2) (q.1 % 2) q.2)) }

/-- The Consists of the cancelled sections on the Loop (R105): no further flit of them is launched, and the flits that have reached a
Station are discarded, each counted; those on a hop are discarded as they arrive. -/
def State.cancelLoop (s : State) (test : Nat → Bool) : State :=
  let ended := s.hops.filter (fun q => q.2.mode == .holding && (match q.2.held with | some c => test c.sect | none => false))
  let s := ended.foldl (fun s q => s.bumpNode (q.1 / 2) (.loopHeld (lineOf (q.1 % 2))) (s.cycle (q.1 / 2) - q.2.heldSince)) s
  let s := s.mapHops (fun p _ h => h.cutOutput (decide (136 ≤ p)) test)
  let s := s.mapHops (fun p l h => if 136 ≤ p then s.cutJunction p l h test else h)
  let s := s.mapHops (fun p l h => s.cutInput p l h test)
  (s.loopSettle settleFuel (List.range 144) 0).loopSettle settleFuel (List.range 144) 1

/-- The Turntables drop the queued `TURN`s of the cancelled sections (R246). -/
def State.cancelTurns (s : State) (test : Nat → Bool) : State :=
  { s with turns := s.turns.map (fun q => (q.1, q.2.filter (fun r => !test r.sect))) }

/-- Messages of the cancelled sections that have not started are dropped (R332). -/
def State.cancelMessages (s : State) (c : Nat) (test : Nat → Bool) : State :=
  let cut := fun (m : OutMsg) => m.off == 0 && test m.sect
  let t := if s.collSlot = some c then s.forgetSent (fun x => (s.flow x.flow).out.any (fun m => m.num == x.msg && cut m)) else s
  { t with flows := s.flows.map (fun q =>
      if q.2.slot = c then (q.1, { q.2 with out := q.2.out.filter (fun m => !cut m) }) else q) }

/-- The running section of context c is cancelled (R173, R304, R306, R443): `next` is its successor. Under `halt` every departure
that has issued stops, whatever its section. -/
def State.cancelSection (s : State) (c next : Nat) (halt preempt : Bool) : State :=
  match (s.slot c).run with
  | none => s
  | some run =>
    let test := fun (x : Nat) => halt || x == run.sect
    let s := s.modSlot c (fun x => { x with run := some { run with cancelled := some next, halting := halt } })
    let s := s.setColl { s.coll with cut := numInsert s.coll.cut run.sect, runs := s.coll.runs.filter (fun r => !test r.sect) }
    let s := (s.cancelTurns test).cancelMessages c (fun x => decide (x < 65536) && test x)
    let s := (List.range 128).foldl (fun s k => s.cancelStation k test preempt) s
    s.cancelLoop test

/-- Pilot work for sections that will not follow is cancelled on every Station (R298): `stay` names the sections that keep theirs. -/
def State.cancelAhead (s : State) (stay : List Nat) : State :=
  (List.range 128).foldl (fun s k =>
    match s.phys k with
    | none => s
    | some p => s.cancelPilot k p (fun x => !stay.contains x) true []) s

/-- Is a cancelled Pilot read or write in flight at a Station (R149, R304)? -/
def Station.flying (st : Station) : Bool :=
  st.sidings.any (fun q => q.2.slots.any (fun p => p.cut)) || st.pilot.any (fun m => m.cancelled)

/-- Every returning slot of a Siding becomes free (R304). -/
def Siding.settleReturns (d : Siding) : Siding := { d with slots := d.slots.filter (fun p => p.state != .returning) }

/-- Is a Consist that the cancel covers anywhere on the Loop (R105)? -/
def State.onLoop (s : State) : Bool :=
  s.hops.any (fun q => (match q.2.moving with | some c => s.discards c.sect | none => false) ||
    (match q.2.held with | some c => s.discards c.sect | none => false))

/-- The Loop with nothing on it and nothing to launch: every buffer empty, every hop with the credits of its kind (R110). The next
flit of a hop has `SEQ` 0: the spec is silent, and this is the model's choice (DESIGN CHOICE, notes/assumptions/12.md). -/
def State.clearLoop (s : State) : State := { s with hops := [], turnOut := [] }

/-- Nothing of a Station's work is in flight: no row, term, spill, departure of the drain path or close (R136, R306). -/
def Station.still (st : Station) : Bool :=
  st.inArray.isEmpty && st.redo.isEmpty && st.tree.isEmpty && st.spills.isEmpty && st.waits.isEmpty

end Sys2Proof.Machine
end

