-- ==== Sys2Proof/Machine/Shunter.lean ====
section
/-! DEFINITION. The Shunter (10_memory_tiers_and_shunter.md): lifetimes, the plan, page moves, placement Tokens; and the scrub
(R402). -/

namespace Sys2Proof.Machine

open Sys2Proof

/-- Where `JOIN` stands in the `POINTS` of a section. -/
def joinOf (d : BitVec 256) : Nat := (pointsOps d).join

/-- The chain of sections from one on (R270): `after` is the `JOIN` that follows a Points target. -/
def chainFrom (img : Image) : Nat → Nat → Option Nat → List Nat
  | 0, _, _ => []
  | n + 1, x, after =>
    if x = 0xFFFF then []
    else x :: (match after with
      | some j => chainFrom img n j none
      | none =>
        if (img.sect x).hasPoints then
          match img.predictOf x, img.pointsOf x with
          | some t, some d => chainFrom img n t (some (joinOf d))
          | _, _ => []
        else chainFrom img n (img.sect x).next none)

/-- The sections after the running one, in the chain (R270). -/
def chainAfter (img : Image) (n : Nat) (run : Run) : List Nat :=
  match run.cancelled with
  | some x => chainFrom img n x none
  | none =>
    match run.follow.getLast? with
    | some j => chainFrom img n j none
    | none =>
      if (img.sect run.sect).hasPoints then
        match run.points with
        | some p =>
          match p.selected with
          | some (t :: _) => chainFrom img n t (some p.join)
          | some [] => chainFrom img n p.join none
          | none => if p.predict < p.targets then chainFrom img n (p.base + p.predict) (some p.join) else []
        | none =>
          match img.predictOf run.sect, img.pointsOf run.sect with
          | some t, some d => chainFrom img n t (some (joinOf d))
          | _, _ => []
      else chainFrom img n (img.sect run.sect).next none

/-- The chain c0, c1, ... of the running section (R270), with at most `SHUNT_HORIZON` sections. -/
def chainOf (img : Image) (run : Run) : List Nat := run.sect :: chainAfter img (img.horizon - 1) run

/-- The part of a chain that lies in the current step: a later start of a step ends it (R271, R408). -/
def inStep (img : Image) (chain : List Nat) : List Nat :=
  match chain with
  | [] => []
  | x :: rest => x :: rest.takeWhile (fun y => y != img.stepFirst)

/-- An object's distance in a chain (R271); none is infinite. The `USE_A` of a `SAVED` object no longer counts once that section has
ended in the step. -/
def distanceIn (ended chain : List Nat) (o : ObjDesc) : Option Nat :=
  let a := !(o.pattern == 2 && ended.contains o.useA)
  chain.findIdx? (fun x => x != 0xFFFF && ((a && x == o.useA) || x == o.useB))

/-- The rank of an object of finite distance, as a key that rises with the rank (R271). -/
def rankKey (k : Nat) (n : Nat) (o : ObjDesc) : Nat :=
  place k 42 + (if o.pattern = 2 then place (1048575 - o.layer) 20 else place 1 41 + place o.layer 20) + n

/-- Objects of finite distance in the rank order of R271. -/
def ranking (img : Image) (ended chain : List Nat) : List Nat :=
  (((List.range img.objectCount).filterMap (fun n => (img.obj n).bind (fun o =>
    (distanceIn ended chain o).map (fun k => rankKey k n o)))).foldl numInsert []).map (fun q => q % 2 ^ 20)

/-- Step 2 of R271: Tier S for each ranked object at distance 0 or 1 whose pages fit in the frames left. -/
def claimTiers (img : Image) (ended chain : List Nat) : List Nat → Nat → Table Nat
  | [], _ => []
  | n :: rest, yard =>
    match img.obj n with
    | none => claimTiers img ended chain rest yard
    | some o =>
      let k := (distanceIn ended chain o).getD 64
      if k ≤ 1 ∧ o.pages ≤ yard then (n, 0) :: claimTiers img ended chain rest (yard - o.pages)
      else claimTiers img ended chain rest yard

/-- Step 3: Tier 1 for each ranked object that is left and fits. -/
def claimHbm (img : Image) (given : Table Nat) : List Nat → Nat → Table Nat
  | [], _ => []
  | n :: rest, hbm =>
    if given.any (fun q => q.1 == n) then claimHbm img given rest hbm
    else match img.obj n with
      | some o => if o.pages ≤ hbm then (n, 1) :: claimHbm img given rest (hbm - o.pages) else claimHbm img given rest hbm
      | none => claimHbm img given rest hbm

/-- The target tier of the page of a map entry under the plan: its home tier, where the plan gives it none (R271). -/
def State.targetOf (s : State) (e : Nat) : Nat :=
  match s.shunter.targets.find? (fun q => q.1 == e) with
  | some q => q.2
  | none => s.homeOf e

/-- Pages of an object that the plan moves, in ascending order, each to its target (R273): `pick` compares the page's tier and its target. -/
def State.toMove (s : State) (c n : Nat) (target : Nat → Nat) (pick : Nat → Nat → Bool) : List (Nat × Nat) :=
  ((s.objEntries c n).filter (fun e =>
    let m := s.mapEntry e
    m.state == 1 && !m.pinned && pick m.tier (target e))).map (fun e => (e, target e))

/-- Moves that retire frames stay in the queue through every plan (R282). -/
def State.evacuations (s : State) : List (Nat × Nat) :=
  s.shunter.queued.filter (fun q => s.shunter.retiring.contains (frameKey (s.mapEntry q.1).tier (s.mapEntry q.1).frame))

/-- The Shunter plans for the running context: chain, target tiers and the moves in rank order; `SAVED` pages whose `USE_A` section
has ended go home after those, and pages below their home tier last (R270 to R273, R276, R280). -/
def State.plan (s : State) : State :=
  match s.runSlot with
  | none => { s with shunter := { s.shunter with chain := [], targets := [], claims := [], queued := s.evacuations } }
  | some c =>
    match (s.slot c).image, (s.slot c).run with
    | some img, some run =>
      let ended := (s.slot c).step.ended
      let chain := chainOf img run
      let near := inStep img chain
      let rank := ranking img ended near
      let yard := claimTiers img ended near rank (s.inService 0)
      let claims := (yard ++ claimHbm img yard rank (s.inService 1)).foldl (fun t q => tset t q.1 q.2) []
      let objs := (List.range img.objectCount).filterMap (fun n => (img.obj n).map (fun o => (n, o)))
      let target := fun (n e : Nat) => tget (s.homeOf e) claims n
      let targets := objs.foldl (fun t q => ((s.objEntries c q.1).filter (fun e => (s.mapEntry e).held)).foldl (fun t e =>
        tset t e (target q.1 e)) t) []
      let up := rank.flatMap (fun n => s.toMove c n (target n) (fun x t => decide (t < x)))
      let far := objs.filter (fun q => !rank.contains q.1)
      let left := fun (q : Nat × ObjDesc) => q.2.pattern == 2 && ended.contains q.2.useA
      let saved := (far.filter left).flatMap (fun q => s.toMove c q.1 (target q.1) (fun x t => x != t))
      let rest := (far.filter (fun q => !left q)).flatMap (fun q => s.toMove c q.1 (target q.1) (fun x t => decide (t < x)))
      let evac := s.evacuations
      let moves := (up ++ saved ++ rest).filter (fun q => !evac.any (fun v => v.1 == q.1))
      { s with shunter := { s.shunter with chain := chain, targets := targets, claims := claims, queued := evac ++ moves } }
    | _, _ => s

/-! ## Demotion -/

/-- The tiers from one on in a home order, and those before it last: where a page goes that leaves it, or its home tier (R272, R282). -/
def orderFrom (order : List Nat) (tier : Nat) : List Nat :=
  order.dropWhile (fun t => t != tier) ++ order.takeWhile (fun t => t != tier)

/-- Where the page of entry e of context c's object n may be demoted to: its home tier, then the tiers that follow it, but not the tier
that it is to leave (R269, R272). -/
def State.demoteOrder (s : State) (e c n tier : Nat) : List Nat :=
  (orderFrom (s.homeOrderOf c n) (s.homeOf e)).filter (fun t => t != tier)

/-- How far a page lies ahead, for the choice of a victim: 64 stands for infinite (R272). -/
def State.pageDistance (s : State) (c n : Nat) : Nat :=
  match s.runSlot, (s.slot c).image with
  | some r, some img =>
    if r = c then (match img.obj n with
      | some o => (distanceIn (s.slot c).step.ended (inStep img s.shunter.chain) o).getD 64
      | none => 64) else 64
  | _, _ => 64

/-- How free an object's pages are to leave a tier: 2 as R272 asks, 1 where the plan claims the tier for it, 0 where c0 uses it. -/
def State.looseness (s : State) (c n tier : Nat) : Nat :=
  if s.runSlot = some c then
    let c0 := s.shunter.chain.head?
    let inC0 := match (s.slot c).image with
      | some img => (match img.obj n with | some o => c0 == some o.useA || c0 == some o.useB | none => false)
      | none => false
    if inC0 then 0 else if s.shunter.claims.any (fun v => v.1 == n && v.2 == tier) then 1 else 2
  else 2

/-- The page of a tier that is demoted to free a frame, of those at least as loose as `least`: map entry, context and object (R272). `ok`:
contexts of which a page may be taken. -/
def State.victimOf (s : State) (tier least : Nat) (ok : Nat → Bool) : Option (Nat × Nat × Nat) :=
  let pages := s.tiers.map.filterMap (fun q =>
    let m := q.2
    if m.state == 1 && m.tier == tier && !m.pinned then
      match s.ownerOf q.1 with
      | none => none
      | some (c, n) =>
        let x := s.looseness c n tier
        if ok c && decide (least ≤ x) then some (((x * 128 + s.pageDistance c n) * 2 ^ 22 + m.object) * 2 ^ 22 + m.page, q.1, c, n)
        else none
    else none)
  (pages.foldl (fun (best : Option (Nat × Nat × Nat × Nat)) q => match best with
    | none => some q
    | some b => if b.1 < q.1 then some q else best) none).map (fun q => q.2)

/-- The victim of R272 for a move of context c into a tier: in Tier 3 a page of its own grant. -/
def State.victim (s : State) (c tier : Nat) : Option (Nat × Nat × Nat) :=
  s.victimOf tier 2 (fun x => tier != 3 || x == c)

/-- A page leaves a tier at once for the first tier of its demotion order with a free frame. -/
def State.demote (s : State) (v c n tier : Nat) : State :=
  match s.placePage c (s.demoteOrder v c n tier) with
  | some (t, f) => s.shift v t f
  | none => s

/-- Where no tier of an order has a free frame for a page of context c, a page of a context with a free Tier 3 frame is demoted out of the
first of these tiers that holds one: once contexts are bound no placement fails for want of space (R268). The demotion is done at once,
and falls on a claimed page, or on one that c0 uses, only where there is no other (DESIGN CHOICE, notes/assumptions/28.md). -/
def State.relieve (s : State) (c : Nat) (order : List Nat) : State :=
  if (s.placePage c order).isSome then s
  else match (order.filter (fun t => t != 3)).findSome? (fun t =>
      (s.victimOf t 0 (fun x => (s.freeFrame x 3).isSome)).map (fun v => (t, v))) with
    | some (_, v, vc, _) => (match s.freeFrame vc 3 with | some f => s.shift v 3 f | none => s)
    | none => s

/-- A page of Tier t gives way (R264, R268, R275, R348): the page that R272 would demote moves at once. -/
def State.giveWay (s : State) (t : Nat) : State :=
  match s.victimOf t 0 (fun _ => true) with
  | some (v, vc, vn) => (s.relieve vc (s.demoteOrder v vc vn t)).demote v vc vn t
  | none => s

/-- Pages give way until the frames that a tier holds are no more than those in service (R275): a `BIND` has reserved some of them. -/
def State.settleTier (s : State) (t : Nat) : Nat → State
  | 0 => s
  | n + 1 =>
    if ((s.heldFrames t).filter (fun f => !(s.retiredIn t).contains f)).length ≤ s.inService t then s
    else (s.giveWay t).settleTier t n

/-- A page is allocated as R269 gives, room being made for it where no tier of its order has a free frame. -/
def State.newPage (s : State) (c e object page : Nat) (order : List Nat) (pinned : Bool) : State :=
  (s.relieve c order).allocPage c e object page order pinned

/-- The pages of an object are freed at the end of its lifetime (R263, R280). -/
def State.freeObject (s : State) (c n : Nat) : State :=
  (s.objEntries c n).foldl (fun s e => s.freePage e) s

/-- The pages of an object are allocated at the start of a lifetime (R263, R269). A context for whose page no tier has a frame
stops (R284). -/
def State.allocObject (s : State) (c n : Nat) (d : ObjDesc) : State :=
  match s.mapBase c n with
  | none => s
  | some base =>
    (List.range d.pages).foldl (fun s p =>
      let s' := s.newPage c (base + p) n p (homeOrder d.pattern) false
      if (s'.mapEntry (base + p)).held then s'
      else if (s'.slot c).state == .stopped then s'
      else s'.abortingError c { EvtRec.blank with object := n, page := p }) s

/-- The lifetimes at the start of section x of context c: objects whose range is left are freed, then those whose range is
entered are allocated, in ascending number (R263). -/
def State.lifetimes (s : State) (c x : Nat) : State :=
  match (s.slot c).image with
  | none => s
  | some img =>
    let old := (s.slot c).live
    let now := (List.range img.objectCount).filter (fun n => match img.obj n with
      | some o => o.pattern != 0 && o.liveIn x
      | none => false)
    let s := (old.filter (fun n => !now.contains n)).foldl (fun s n => s.freeObject c n) s
    let s := (now.filter (fun n => !old.contains n)).foldl (fun s n => match img.obj n with
      | some o => s.allocObject c n o
      | none => s) s
    s.modSlot c (fun y => { y with live := now })

/-- The epoch of the running section has come: each page of an object that the section uses and that lies below its target
counts once (R279). -/
def State.reachEpoch (s : State) : State :=
  match s.runSlot with
  | none => s
  | some c =>
    match (s.slot c).image, (s.slot c).run with
    | some img, some run =>
      if run.epochSeen || run.waiting || decide (s.time.lt < run.sectEpoch) then s
      else
        let late := (List.range img.objectCount).flatMap (fun n => match img.obj n with
          | some o => if o.useA = run.sect ∨ o.useB = run.sect then
              (s.objEntries c n).filter (fun e => (s.mapEntry e).held && decide (s.targetOf e < (s.mapEntry e).tier))
            else []
          | none => [])
        (s.modSlot c (fun x => { x with run := some { run with epochSeen := true } })).bump .shuntLatePages 0 late.length
    | _, _ => s

/-- Is a page already on its way out of this tier? -/
def State.leaving (s : State) (tier : Nat) : Bool :=
  s.shunter.moving.any (fun e => (s.mapEntry e).tier == tier)

/-- A move starts: the page holds both frames (R274, R275). A page that reads as zero moves by its entry alone (R265). -/
def State.beginMove (s : State) (e tier frame : Nat) : State :=
  let m := s.mapEntry e
  if m.zero then s.shift e tier frame
  else
    let s := s.setEntry e { m with state := 2, destTier := tier, destFrame := frame }
    { s with shunter := { s.shunter with moving := s.shunter.moving ++ [e],
                                         queued := s.shunter.queued.filter (fun q => q.1 != e) } }

/-- The first of the queued moves that can start, or the demotion that it needs starts in its place (R272, R273). A page that must leave
its frame and finds no other waits, and lets others go first (R282). -/
def State.startMove (s : State) : List (Nat × Nat) → State
  | [] => s
  | (e, t) :: rest =>
    let m := s.mapEntry e
    let drop := { s with shunter := { s.shunter with queued := s.shunter.queued.filter (fun q => q.1 != e) } }
    if m.state ≠ 1 ∨ m.pinned then drop
    else
      match s.ownerOf e with
      | none => drop
      | some (c, n) =>
        if s.shunter.retiring.contains (frameKey m.tier m.frame) then
          match s.placePage c (orderFrom (s.homeOrderOf c n) m.tier) with
          | some (tier, frame) => s.beginMove e tier frame
          | none => s.startMove rest
        else
          match s.freeFrame c t with
          | some frame => s.beginMove e t frame
          | none =>
            if s.leaving t then s
            else
              match s.victim c t with
              | none => s
              | some (v, vc, vn) =>
                match s.placePage vc (s.demoteOrder v vc vn t) with
                | some (tier, frame) => s.beginMove v tier frame
                | none => s

/-- PAGE_MOVE_START: the first move of the queue starts; where no frame of its tier is free, a victim's demotion starts in its
place (R272, R273, R282). -/
def execPageMoveStart (s : State) : Out :=
  let s := s.reachEpoch
  if 256 ≤ s.shunter.moving.length then .next s else .next (s.startMove s.shunter.queued)

/-- A move's page reaches its frame, or, where its poison would add entries to a full poison list, stays out of Tier 3 (R283): it goes to
the next tier of its home order if it must leave its frame, and stays where it is if not. -/
def State.endMove (s : State) (e : Nat) : State :=
  let m := s.mapEntry e
  let more := if m.tier = 3 then 0 else (s.wholePoison e).length
  if m.destTier = 3 ∧ 65536 < s.poisonListed + more then
    let s := s.bump .t3PoisonFull 0 1
    let stay := s.setEntry e { m with state := 1, destTier := 0, destFrame := 0 }
    let stay := { stay with shunter := { stay.shunter with moving := stay.shunter.moving.filter (fun x => x != e) } }
    if s.shunter.retiring.contains (frameKey m.tier m.frame) then
      match s.ownerOf e with
      | some (c, n) => (match s.placePage c (afterTier3 (s.homeOrderOf c n)) with
        | some (t, f) => s.shift e t f
        | none => stay)
      | none => stay
    else stay
  else s.shift e m.destTier m.destFrame

/-- PAGE_MOVE_COMPLETE: move i of those in flight completes (R274, R285). An error that it found in the source goes with the granule as
its poison, and the source frame is to retire (R281, R282); a Tier 3 page that moves while both links are down is in error throughout
(R284). -/
def execPageMoveComplete (i : Nat) (errs : List ReadError) (now : Nat) (s : State) : Out :=
  let s := (s.advance now).reachEpoch
  match s.shunter.moving[i]? with
  | none => .next s
  | some e =>
    let m := s.mapEntry e
    if m.state ≠ 2 then .next { s with shunter := { s.shunter with moving := s.shunter.moving.filter (fun x => x != e) } }
    else
      let k := frameKey m.tier m.frame
      let errs := errs.filter (fun x => decide (x.gran < pageGran))
      let s := (errs.filter (fun x => x.corrected)).foldl (fun s _ => s.corrected m.tier m.frame) s
      let s := if m.tier = 3 && !s.tier3Up then (List.range pageGran).foldl (fun s g => s.tierFault e k g) s
        else (errs.filter (fun x => !x.corrected)).foldl (fun s x => s.tierError e k x.gran) s
      .next (s.endMove e)

/-- Is this use of an object, at this place of the chain, in a Points target that has not been selected (R278)? -/
def unselected (img : Image) (run : Run) (chain : List Nat) (i : Nat) : Bool :=
  if i = 0 then false
  else match chain[i - 1]? with
    | some y => (img.sect y).hasPoints && !(i == 1 && (match run.points with | some p => p.selected.isSome | none => false)) &&
        !(i == 1 && (run.cancelled.isSome || run.follow != []))
    | none => false

/-- A use that the Shunter may signal now: every page of the object in its target tier or above, or the use section's epoch
(R278). -/
def State.readyUse (s : State) (c n : Nat) (o : ObjDesc) : Option Nat :=
  match (s.slot c).image, (s.slot c).run with
  | some img, some run =>
    let placed := (s.objEntries c n).all (fun e => (s.mapEntry e).state == 1 && decide ((s.mapEntry e).tier ≤ s.targetOf e))
    [o.useA, o.useB].find? (fun u =>
      u != 0xFFFF && !(s.slot c).step.signalled.contains (n, u) &&
      ((match (inStep img s.shunter.chain).idxOf? u with
        | some i => placed && !unselected img run s.shunter.chain i
        | none => false) ||
       (u == run.sect && !run.waiting && decide (run.sectEpoch ≤ s.time.lt))))
  | _, _ => none

/-- SHUNT_READY_SIGNAL: an object's Token gains a count, once for each use in a step (R278). -/
def execShuntReadySignal (object : Nat) (now : Nat) (s : State) : Out :=
  let s := (s.advance now).reachEpoch
  match s.runSlot with
  | none => .next s
  | some c =>
    match (s.slot c).image with
    | none => .next s
    | some img =>
      match img.obj object with
      | none => .next s
      | some o =>
        if !o.readyEn || (s.slot c).state != .running then .next s
        else match s.readyUse c object o with
          | none => .next s
          | some u =>
            let s := s.modSlot c (fun x => { x with step := { x.step with signalled := x.step.signalled ++ [(object, u)] } })
            .next (s.engineSignal o.readyStation (0xF8 + o.readyToken))

/-- Contexts that own a map entry in a granule of the Placement Map's frames, held or free; every bound context where one is a system
entry, or the frame is the poison list's (R264, R267). -/
def State.mapVictims (s : State) (frame gran : Nat) : List Nat :=
  let owners := (List.range 4).filterMap (fun i => s.runOwner ((frame * pageGran + gran) * 4 + i))
  if 8 ≤ frame ∨ owners.any (fun q => decide (1048576 ≤ q.2)) then
    (List.range 8).filter (fun c => (s.slot c).state.boundOrLater)
  else (List.range 8).filter (fun c => owners.any (fun q => q.1 == c))

/-- An error in the Placement Map or the poison list: each victim stops; where there is none, or all have stopped before, it is reported
without one (R267). -/
def State.mapError (s : State) (frame gran : Nat) : State :=
  let loc := whereKey (frameKey 1 frame) gran true
  let l := (s.mapVictims frame gran).filter (fun c => (s.slot c).state != .stopped)
  if l = [] then s.emptyFault (frameKey 1 frame) gran
  else l.foldl (fun s c => s.abortingError c { EvtRec.blank with loc := loc }) s

/-- Granules that a full scrub pass of a tier reads (R402). -/
def State.scrubTotal (s : State) (tier : Nat) : Nat := (s.inService tier + systemFrames tier) * pageGran

/-- SCRUB_READ: the scrub reads a granule of a tier; a corrected one is written back, an uncorrected error follows R281 (R402). -/
def execScrubRead (tier : Fin 3) (frame gran : Nat) (ecc : Ecc) (now : Nat) (s : State) : Out :=
  let s := s.advance now
  if s.tierFrames tier ≤ frame ∨ pageGran ≤ gran then .fault .noFrame
  else
    let n := tget 0 s.tiers.scrubbed tier + 1
    let ends := decide (s.scrubTotal tier ≤ n)
    let s := { s with tiers := { s.tiers with scrubbed := tset s.tiers.scrubbed tier (if ends then 0 else n) } }
    let s := s.bump .scrubPasses tier (if ends then 1 else 0)
    match ecc with
    | .clean => .next s
    | .corrected => .next (s.corrected tier frame)
    | .uncorrected =>
      if frame < systemFrames tier then .next (s.mapError frame gran)
      else
        match s.entryAt tier frame with
        | some e => .next (s.tierError e (frameKey tier frame) gran)
        | none => .next ((s.emptyFault (frameKey tier frame) gran).dropFrame tier frame)

end Sys2Proof.Machine
end

