-- ==== Sys2Proof/Machine/Timetable.lean ====
section
/-! DEFINITION. The Timetable (06_timetable_and_line_time.md): TOKEN, SECTION_END, POINTS, WARNING_BOARD, completion and lateness,
Tokens, timeouts, and the section boundary. -/

namespace Sys2Proof.Machine

open Sys2Proof

def tokenRule : DepRule :=
  { op := opToken, form := fun _ h => plainForm h.word, check := fun _ _ _ _ => [],
    effect := fun s k _ pr => s.completeNow k pr }

/-- `TOKEN` (R154). -/
def execToken (k : Fin 128) (j : Fin 4) (t : IssueTick) (s : State) : Out := .next (issue tokenRule k j t s)

/-- Has a Station issued the `SECTION_END` of every running line that is not empty? -/
def State.linesEnded (s : State) (img : Image) (sect k : Nat) : Bool :=
  [0, 1, 2, 3].all (fun j => img.lineCount sect k j == 0 || ((s.station k).line j).ended)

/-- `MALFORMED`, reason 0x09, of a section whose `POINTS_STATION` ends without a `POINTS` (R172). -/
def State.pointsMissing (s : State) (c k j sect index : Nat) : State :=
  match (s.slot c).image, (s.slot c).run with
  | some img, some run =>
    let r := img.sect sect
    if r.hasPoints && r.pointsStation == k && run.points.isNone && s.linesEnded img sect k then s.malformed c k j sect index 9
    else s
  | _, _ => s

def sectionEndRule : DepRule :=
  { op := opSectionEnd, form := fun _ h => plainForm h.word, check := fun _ _ _ _ => [],
    effect := fun s k h pr => (s.completeNow k pr).pointsMissing h.c k pr.id.line h.sect h.index }

/-- `SECTION_END` (R148, R154, R172). -/
def execSectionEnd (k : Fin 128) (j : Fin 4) (t : IssueTick) (s : State) : Out := .next (issue sectionEndRule k j t s)

/-- `POINTS` at issue: the selector word is read (R172); one out of range counts in `INDEX` mode. -/
def pointsEffect (s : State) (k : Nat) (h : Head) (pr : Prog) : State :=
  let o := pointsOps h.word
  let st := s.station k
  let v := memReadNat st.store (4 * o.sel) 4
  let bad := st.storePoison.contains (4 * o.sel / 64)
  let p : PointsSel :=
    { station := k, line := pr.id.line, index := h.index, base := o.base, targets := o.targets, mask := o.mask,
      predict := o.predict, join := o.join, value := v, poisoned := bad, selected := none }
  let s := s.modSlot h.c (fun x => { x with run := x.run.map (fun r => { r with points := some p }) })
  let s := s.bump .pointsClamp 0 (if !bad && !o.mask && decide (o.targets ≤ v) then 1 else 0)
  s.runBad bad

def pointsRule : DepRule :=
  { op := opPoints, form := fun k h => pointsForm h.img h.sect k h.word,
    check := fun s _ _ h => reasonsOf [((match (s.slot h.c).run with | some r => r.points.isSome | none => false), 9)],
    effect := pointsEffect }

/-- `POINTS` (R171, R172). -/
def execPoints (k : Fin 128) (j : Fin 4) (t : IssueTick) (s : State) : Out := .next (issue pointsRule k j t s)

/-- The sections that a selection names, in ascending order (R172). -/
def PointsSel.targetsOf (p : PointsSel) : List Nat :=
  if p.poisoned then [p.base]
  else if p.mask then ((List.range p.targets).filter (fun t => bit p.value t)).map (fun t => p.base + t)
  else [p.base + min p.value (p.targets - 1)]

/-- POINTS_SELECT: the selection is broadcast, which completes the `POINTS`, of a context that has stopped too (R181); predicted work
that is not taken is cancelled and the Shunter plans again (R172, R173, R270, R280, R298). -/
def execPointsSelect (t : Tick) (s : State) : Out :=
  let s := (s.advance t.lt).reachEpoch
  match s.workSlot with
  | none => .next s
  | some c =>
    match (s.slot c).run with
    | none => .next s
    | some run =>
      match run.points with
      | none => .next s
      | some p =>
        if p.selected.isSome || run.cancelled.isSome || (s.slot c).state == .recovering then .next s
        else
          match s.phys p.station with
          | none => .next s
          | some ph =>
            let s := s.advanceSc ph t.sc
            let l := p.targetsOf
            let s := s.modSlot c (fun x => { x with run := some { run with points := some { p with selected := some l } } })
            let s := s.modStation p.station (fun st => { st with progs := st.progs.map (fun x =>
              if Dep.opcode x.word == opPoints && x.id.line == p.line && x.id.index == p.index && x.sect == run.sect &&
                  x.doneSc.isNone then
                { x with doneSc := some (s.cycle ph) } else x) })
            if (s.slot c).state = .running then .next ((s.cancelAhead [run.sect, l.headD p.join]).plan.noteAllFills) else .next s

def boardRule : DepRule :=
  { op := opBoard, form := fun _ h => boardForm h.word, check := fun _ _ _ _ => [],
    effect := fun s k h pr =>
      let o := boardOps h.word
      let start := pr.issueLt + o.lead
      let target := min o.level s.power.capW
      let rises := ceilDiv (1000 * target - s.power.lastAvg) 20000
      let ramp := max pr.issueLt (start - (rises - 1) * s.power.meterWait 20)
      let b : Board := { startLt := start, rampLt := ramp, endLt := start + 1000 * o.duration, target := target,
                         want := s.power.active.length + rises, raised := [] }
      { s with power := { s.power with boards := s.power.boards ++ [b] } }.completeNow k pr }

/-- `WARNING_BOARD` (R174, R394): the announcement is in force from its issue. The rises that the pre-ramp needs follow from the
measured draw, so that the last is granted at S. -/
def execWarningBoard (k : Fin 128) (j : Fin 4) (t : IssueTick) (s : State) : Out := .next (issue boardRule k j t s)

/-- Amount charged to one cause, in 1/16 lt. -/
def chargeOf (l : List (Nat × Nat)) (c : Nat) : Nat := ((l.filter (fun q => q.1 == c)).map (fun q => q.2)).sum

/-- The sum of a list of charges. -/
def chargeSum (l : List (Nat × Nat)) : Nat := (l.map (fun q => q.2)).sum

/-- The cause with the largest share; a tie goes to the lower code (R167). -/
def mainCause (l : List (Nat × Nat)) : Nat :=
  (List.range 11).foldl (fun b c => if chargeOf l b < chargeOf l c then c else b) 0

/-- What a retry after its last row has entered adds to a multiply: its end less the end that its last entry gives without one (R82,
R120, R122, R167). -/
def Prog.tail (pr : Prog) : List (Nat × Nat) :=
  let op := Dep.opcode pr.word
  let path := if op = opMma then pairPath (mmaOps pr.word).sfmt (mmaOps pr.word).xfmt
    else pairPath (cplxOps pr.word).sfmt (cplxOps pr.word).xfmt
  if op = opMma ∨ op = opCplx then [(5, pr.doneSc.getD 0 - (pr.due + 520 + pathWrite path))] else []

/-- The clock debt of `n` sc that took `t` sixteenths of a lt: what they took beyond 5/9 lt each (R168). -/
def clockDebt (t n : Nat) : Nat := (9 * t - 80 * n) / 9

/-- The stalls S of a departure that completes `n` sc, and `took` sixteenths of a lt, after its issue (R166 to R168): its stalled cycles by
cause, each in proportion to the whole (DESIGN CHOICE, notes/assumptions/11.md), and the clock debt of the others. -/
def Prog.stallParts (pr : Prog) (took n : Nat) : List (Nat × Nat) :=
  let cycles := pr.stalls ++ pr.tail
  let parts := cycles.map (fun q => (q.1, took * min q.2 n / max 1 n))
  parts ++ [(6, clockDebt (took - chargeSum parts) (n - chargeSum cycles))]

/-- A lateness-log entry (R169): `w`, `st` and the charge in 1/16 lt. -/
def lateEntry (lt k : Nat) (p : Prog) (w st cause : Nat) : Nat :=
  let top := fun (n v : Nat) => stick (ones n) v
  let allow := Dep.allowance p.word
  place lt 192 + place (top 24 ((w + st) / 16)) 168 + place (top 24 ((w + st - 16 * allow) / 16)) 144 + place p.sect 128 +
  place p.id.index 104 + place k 97 + place p.id.line 95 + place cause 91 + place allow 71 + place (top 24 (w / 16)) 47 +
  place (top 24 (st / 16)) 23

/-- Completion order, and ascending Station within one line time (R170). -/
def lateInsert : List Nat → Nat → List Nat
  | [], e => [e]
  | x :: t, e =>
    let key := fun (v : Nat) => (field v 255 192, field v 103 97)
    if (key e).1 < (key x).1 ∨ ((key e).1 = (key x).1 ∧ (key e).2 < (key x).2) then e :: x :: t else x :: lateInsert t e

/-- An entry goes into the log of context c, into its pages too, or is lost; the entry that fills the log raises `LATELOG_FULL` (R170,
R182). -/
def State.logLate (s : State) (c e : Nat) : State :=
  let x := s.slot c
  let cap := match x.image with | some img => 2 ^ img.latelogLog2 | none => 0
  if x.log.entries.length < cap then
    let l := lateInsert x.log.entries e
    let i := ((List.zip x.log.entries l).takeWhile (fun q => q.1 == q.2)).length
    let fills := l.length == cap
    let s := s.setSlot c { x with log := { x.log with entries := l, full := fills } }
    let s := s.itemCells c 3 (32 * i) (32 * (l.length - i)) (cellsAt 0 ((l.drop i).flatMap (leBytes 32)))
    if fills then (s.bump .latelogFull 0 1).notice 4 c 0 else s
  else (s.setSlot c { x with log := { x.log with lost := x.log.lost + 1, full := true } }).bump .latelogLost 0 1

/-- A send from a Siding frees its slot once its last flit is launched (R204, R289). -/
def Station.sendDone (st : Station) (pr : Prog) : Station :=
  let o := sendOps pr.word
  if Dep.opcode pr.word = opSend ∧ o.siding = true then st.releasePos (o.src % 16) pr.claim else st

/-- DEPARTURE_COMPLETE: the departure at this position of a section's Timetable has reached its completion (R157); its signals fire, and
a lateness of 1 lt or more is counted and logged (R166 to R170). -/
def execDepartureComplete (k : Fin 128) (j : Fin 4) (sect index : Nat) (lt sc : Nat) (s : State) : Out := s.clocked fun s =>
  let s := s.advance lt
  match s.phys k with
  | none => .next s
  | some p =>
    let s := s.advanceSc p sc
    match (s.station k).progs.find? (fun x => x.id.line == j.val && x.sect == sect && x.id.index == index && x.doneSc.isSome) with
    | none => .next s
    | some pr =>
      if s.cycle p < pr.doneSc.getD 0 then .next s
      else
        let b := s.station k
        let s := if pr.fired then s else s.fireSignals k pr
        let s := s.modStation k (fun st =>
          { (st.sendDone pr) with progs := st.progs.filter (fun x => x.id != pr.id), runs := st.runs.filter (fun x => x.dep != pr.id) })
        let s := (s.noteHeads b k).noteFills k
        let w := chargeSum pr.waits
        let parts := pr.stallParts (s.copy p - pr.issueAt) (s.cycle p - pr.issueSc)
        let st := chargeSum parts
        let late := (w + st - 16 * Dep.allowance pr.word) / 16
        if late = 0 then .next s
        else
          let s := (s.bump .ttLate p 1).bump .ttLateLt p late
          match s.workSlot with
          | none => .next s
          | some c => .next (s.logLate c (lateEntry s.time.lt k pr w st (mainCause (pr.waits ++ parts))))

/-- Is a signal visible to its Station at cycle `sc` (R160)? -/
def Signal.visible (g : Signal) (sc : Nat) : Bool := match g.sc with | some t => decide (t < sc) | none => true

/-- TOKEN_SIGNAL_LAND: the oldest signal in transit to the Token that can have arrived lands (R160, R161); one that would raise the count
above 65,535 leaves it and is a `TOKEN_OVERFLOW` of its signaller (R159). -/
def execTokenSignalLand (k : Fin 128) (tok : Fin 256) (t : Tick) (s : State) : Out := s.clocked fun s =>
  let s := s.advance t.lt
  let s := match s.phys k with | some p => s.advanceSc p t.sc | none => s
  let st := s.station k
  let seen := fun (g : Signal) => match s.phys k with | some p => g.visible (s.cycle p) | none => true
  match st.transit.findIdx? (fun x => x.token == tok.val && seen x) with
  | none => .next s
  | some i =>
    match st.transit[i]? with
    | none => .next s
    | some g =>
      let st' := { st with transit := st.transit.eraseIdx i }
      let n := st.token tok + g.count
      if n ≤ 65535 then .next ((s.setStation k { st' with tokens := tset st'.tokens tok n }).note st k)
      else
        let s := s.setStation k st'
        let wb := match g.wb with | some i => wbBits i | none => 0
        match s.workSlot with
        | some c => .next (s.contractFault c 1 { whereDep s g.bySt g.byLine g.bySect g.byIx with
            loc := place tok.val 16 + place k.val 24 + wb })
        | none => .next s

/-- Line time between two instants that falls in a span of R417. -/
def suspended (spans : List (Nat × Option Nat)) (a b : Nat) : Nat :=
  (spans.map (fun q => min b (q.2.getD b) - max a q.1)).sum

/-- Line time for which the head of a line has waited: from the later of P and the instant it became the head (R180, R405). -/
def State.headWait (s : State) (k j : Nat) (h : Head) : Nat × Nat :=
  let began := match (s.slot h.c).run with | some r => r.began | none => 0
  (max h.planned (max ((s.station k).line j).headLt began), s.time.lt)

/-- Line time that the watchdog of a line counts: as `headWait`, but from the instant at which the head's last wait was met, where it
has waited (R405). -/
def State.watchSpan (s : State) (k j : Nat) (h : Head) : Nat × Nat :=
  (max (s.headWait k j h).1 (((s.station k).line j).metLt.getD 0), s.time.lt)

/-- The first wait of the head that has been unmet for the limit (R180): 0 to 3 for its Token waits, 4 for `GSEQ`. -/
def State.waitExpired (s : State) (k j : Nat) (h : Head) (limit : Nat) : Option Nat :=
  let st := s.station k
  let q := s.headWait k j h
  let held := fun (tok : Nat) => if fabricToken tok then suspended s.coll.suspends q.1 q.2 else 0
  let unmet := (Dep.waitFields h.word).findIdx? (fun w =>
    w.count != 0 && (st.lacks h).any (fun x => x.tok == w.tok) && decide (q.1 + limit + held w.tok ≤ q.2))
  match unmet with
  | some i => some i
  | none => if gseqWaits st h.word && decide (q.1 + limit ≤ q.2) then some 4 else none

/-- The issued take of a line at whose input another tag has stood for the limit (R97, R180). -/
def State.tagExpired (s : State) (k p j limit : Nat) : Option Prog :=
  let st := s.station k
  (st.takes.filter (fun t => t.1.line == j)).findSome? (fun t =>
    match (s.hop p t.2.1).held, st.prog t.1 with
    | some c, some pr =>
      if c.tag ≠ t.2.2 ∧ (st.takeFor t.2.1 c.tag).isNone ∧ max pr.issueLt (s.hop p t.2.1).heldLt + limit ≤ s.time.lt then some pr
      else none
    | _, _ => none)

/-- A `WAIT_TIMEOUT` of context c (R178, R180): the event record has no field for the wait that it names, which stays with the slot. -/
def State.waitFault (s : State) (c k j sect index wait : Nat) : State :=
  (s.contractFault c 2 (whereDep s k j sect index)).modSlot c (fun x => { x with timedOut := some wait })

/-- WAIT_TIMEOUT: a wait of the line's head, or a taking departure's tag, has been unmet for `WAIT_TIMEOUT` µs (R178, R180). -/
def execWaitTimeout (k : Fin 128) (j : Fin 4) (now : Nat) (s : State) : Out :=
  let s := s.advance now
  match s.runSlot, s.phys k with
  | some c, some p =>
    match (s.slot c).image with
    | none => .next s
    | some img =>
      let limit := 1000 * img.waitTimeout
      let head := match s.headOf k j with
        | .head h => (s.waitExpired k j h limit).map (fun w => (h, w))
        | _ => none
      match head with
      | some (h, w) => .next (s.waitFault c k j h.sect h.index w)
      | none =>
        match s.tagExpired k p j limit with
        | some pr => .next (s.waitFault c k j pr.sect pr.id.index 5)
        | none => .next s
  | _, _ => .next s

/-- WATCHDOG_EXPIRY: the head of a line has not issued for `WAIT_TIMEOUT` µs, under no wait that R180 covers and no interlock
(R405; notes/assumptions/16.md). -/
def execWatchdogExpiry (k : Fin 128) (j : Fin 4) (now : Nat) (s : State) : Out :=
  let s := s.advance now
  match s.headOf k j with
  | .head h =>
    let st := s.station k
    let q := s.watchSpan k j h
    let counted := q.2 - q.1 - suspended s.coll.suspends q.1 q.2
    if waitsMet st (Dep.waits h.word) && !gseqWaits st h.word && !st.waits.any (fun w => w.dep.line == j.val) &&
        decide (q.1 ≤ q.2) && decide (1000 * h.img.waitTimeout ≤ counted) then
      let s := s.bump .depWatchdog 0 1
      .next ((s.report { whereDep s k j h.sect h.index with family := 2, code := 5, scope := scopeContext, context := h.c }).stopContext
        h.c)
    else .next s
  | _ => .next s

/-- The epoch of a section that begins at `lt` (R150, R409), and whether passed fixed epochs still float. -/
def epochOf (r : SectionRec) (runEpoch lt : Nat) (floatPast : Bool) : Nat × Bool :=
  let planned := runEpoch + r.epochPlan
  if r.anchor = 1 then
    if floatPast && decide (planned < lt) then (lt + 64, true) else (planned, false)
  else (max planned (lt + 64), floatPast)

/-- The Station state of a section that begins: lines at their first departure, no Token bound (R148, R158). -/
def Station.newSection (st : Station) : Station := { st with lines := [], bound := [] }

/-- Every Station that the state lists is changed. -/
def State.mapStations (s : State) (f : Station → Station) : State := { s with stations := s.stations.map (fun q => (q.1, f q.2)) }

/-- Reason 0x09 for a section whose `POINTS_STATION` has no departure at all (R172). -/
def State.noPoints (s : State) (c : Nat) (img : Image) (x : Nat) : State :=
  if (img.sect x).hasPoints && s.runSlot == some c then s.pointsMissing c (img.sect x).pointsStation 3 x (ones 24) else s

/-- Section x becomes the running section of context c (R443): lifetimes and the plan, whose step begins with `STEP_FIRST_SECTION` (R271,
R278); the check of its Points waits for a run epoch still to come (R172). -/
def State.enterSection (s : State) (c x epoch : Nat) (floatPast : Bool) (follow : List Nat) : State :=
  match (s.slot c).run, (s.slot c).image with
  | some run, some img =>
    let s := s.modSlot c (fun y => { y with run := some { run with
      sect := x, sectEpoch := epoch, began := s.time.lt, cancelled := none, halting := false, switching := false, points := none,
      follow := follow, floatPast := floatPast, epochSeen := false } })
    let s := s.mapStations Station.newSection
    let s := if x = img.stepFirst then s.modSlot c (fun y => { y with step := { y.step with signalled := [], ended := [] } }) else s
    let s := (s.lifetimes c x).plan
    if run.waiting then s else s.noPoints c img x
  | _, _ => s

/-- Groups that close at the boundary after a cancel (R135). -/
def Station.mustClose (st : Station) (sect : Nat) : List Nat :=
  (List.range 8).filter (fun g =>
    let x := st.group g
    x.isOpen && !x.orderFixed && !x.isPartner && x.openSection == sect)

/-- The groups of a cancelled section are closed; a close that waits on one of them is done (R132, R135). -/
def Station.closeGroups (st : Station) (sect sc : Nat) : Station :=
  (st.mustClose sect).foldl (fun st g =>
    let mine := fun (w : Waiting) => w.isClose && w.groups.contains g
    let done := (st.waits.filter mine).map (fun w => w.dep)
    let st := st.freeGroup g
    { st with waits := st.waits.filter (fun w => !mine w),
              progs := st.progs.map (fun p => if done.contains p.id then { p with doneSc := some sc } else p) }) st

/-- What the closes that a cancel's boundary ends have waited (R130). -/
def Station.closeWait (st : Station) (run : Run) (sc : Nat) : Nat :=
  if run.cancelled.isSome then
    ((st.waits.filter (fun w => w.isClose && w.groups.any (st.mustClose run.sect).contains)).map (fun w => w.waited sc)).sum
  else 0

/-- Does every condition of R149 hold at one Station? -/
def State.stationEnds (s : State) (img : Image) (run : Run) (k : Nat) : Bool :=
  let st := s.station k
  (run.cancelled.isSome || s.linesEnded img run.sect k || (s.phys k).isNone) && st.transit.isEmpty && !st.flying &&
  !st.progs.any (fun p => Dep.opcode p.word == opTurn && p.sect == run.sect) &&
  (run.cancelled.isNone || st.quiet (st.mustClose run.sect))

/-- May the boundary come (R149, R172)? -/
def State.boundaryReady (s : State) (c : Nat) (img : Image) (run : Run) : Bool :=
  (s.slot c).state == .running && !run.waiting && !run.halting && !run.switching &&
  (List.range 128).all (fun k => s.stationEnds img run k) && (run.cancelled.isNone || !s.onLoop) &&
  (run.cancelled.isSome || !(img.sect run.sect).hasPoints || (match run.points with | some p => p.selected.isSome | none => false))

/-- The successor of the running section, and the sections that follow it while Points targets run (R149, R172, R443). -/
def nextSection (img : Image) (run : Run) : Nat × List Nat :=
  match run.cancelled with
  | some n => (n, [])
  | none =>
    match run.follow with
    | n :: rest => (n, rest)
    | [] =>
      match run.points with
      | some p =>
        match p.selected with
        | some (t :: rest) => (t, rest ++ [p.join])
        | _ => (p.join, [])
      | none => ((img.sect run.sect).next, [])

/-- One Station at the boundary: groups of a cancelled section close, Tokens are reset and then those of R305, returning slots are
free (R135, R149, R304, R305). -/
def Station.boundary (st : Station) (img : Image) (run : Run) (k sc : Nat) : Station :=
  let st := if run.cancelled.isSome then st.closeGroups run.sect sc else st
  let r := img.sect run.sect
  let toks := (List.range r.tresetCount).foldl (fun t i => tset t (r.tresetBase + i) (img.tokenInit k (r.tresetBase + i))) st.tokens
  let toks := st.zeroAt.foldl (fun t i => tset t i 0) toks
  { st with tokens := toks, zeroAt := [], sidings := st.sidings.map (fun q => (q.1, q.2.settleReturns)) }

/-- Positions and Pilot Tokens of the section that begins are its own from here on (R298, R305). -/
def Station.adoptAhead (st : Station) (x : Nat) : Station :=
  { st with
    named := st.named.filter (fun q => q.1 == x)
    sidings := st.sidings.map (fun q => (q.1, { q.2 with slots := q.2.slots.map (fun p =>
      if p.sect = x then { p with ahead := false } else p) })) }

/-- The run of context c ends (R441): the slot is `BOUND`, and a `PREEMPT` that waited has had no effect (R442). -/
def State.endRun (s : State) (c : Nat) : State :=
  let s := (s.modSlot c (fun x => { x with state := .bound, run := none })).settleRun
  let s := s.endCommands (fun _ x => x.accepted && x.opcode == 0x15 && x.context == c) 0x1001
  (s.plan).notice 1 c 0

/-- SECTION_BOUNDARY: once R149's conditions hold, Tokens are reset, the successor is selected and the next section begins; a
`CANCEL_SECTION` completes (R149, R150, R172, R443), and a `PREEMPT` with `WHEN` 1 cancels the successor (R442). -/
def execSectionBoundary (now : Nat) (s : State) : Out :=
  let s := (s.advance now).reachEpoch
  match s.runSlot with
  | none => .next s
  | some c =>
    match (s.slot c).image, (s.slot c).run with
    | some img, some run =>
      if !s.boundaryReady c img run then .next s
      else
        let (succ, follow) := nextSection img run
        let s := (List.range 128).foldl (fun s k =>
          match s.phys k with
          | some p => (s.bump .accDrainWait p ((s.station k).closeWait run (s.cycle p))).modStation k (fun st => st.boundary img run k (s.cycle p))
          | none => s) s
        let s := s.cancelAhead [run.sect, succ]
        let s := s.mapStations (fun st => st.adoptAhead succ)
        let s := s.endCommands (fun _ x => x.accepted && x.opcode == 0x17 && x.context == c) 0
        let s := s.modSlot c (fun x => { x with step := { x.step with ended := numInsert x.step.ended run.sect } })
        if succ = 0xFFFF then .next (s.endRun c)
        else
          let e := epochOf (img.sect succ) run.epoch s.time.lt run.floatPast
          let s := s.enterSection c succ e.1 e.2 follow
          match run.preemptAt with
          | some _ =>
            let s := s.cancelSection c succ false true
            .next ((s.modSlot c (fun x => { x with run := x.run.map (fun r =>
              { r with switching := true, preemptAt := none }) })).plan)
          | none => .next s.noteAllFills
    | _, _ => .next s

end Sys2Proof.Machine
end

