-- ==== Sys2Proof/Machine/Network.lean ====
section
/-! DEFINITION. The Interchange and the Bililjo transport (12_interchange_and_the_network.md): receive checks, flows, messages,
acknowledgements, loss, paths, congestion control, slots, keys, cages and ports. -/

namespace Sys2Proof.Machine

open Sys2Proof

/-- The Interchange die of a port or a flow (R311). -/
def portDie (p : Nat) : Nat := p / 24
def flowDie (f : Nat) : Nat := f / 131072

/-- The cage of a port (R311). -/
def portCage (p : Nat) : Nat := p / 24 * 6 + p % 24 / 4

/-- Sub-ports that a cage mode provides (R312). -/
def modePorts : Nat → List Nat
  | 0 => [0]
  | 1 => [0, 2]
  | 2 => [0, 1, 2, 3]
  | _ => []

/-- Does the mode of its cage provide port p (R312)? -/
def State.portExists (s : State) (p : Nat) : Bool :=
  match (s.cage (portCage p)).mode with
  | some m => (modePorts m).contains (p % 4)
  | none => false

/-- Can the port carry traffic (R312, R328)? -/
def State.portUp (s : State) (p : Nat) : Bool := s.portExists p && (s.cage (portCage p)).trained && (s.port p).lock &&
  !s.power.dieStopped.contains (portDie p)

/-- Fields of a port entry (R450). -/
def portField (e : BitVec 512) (hi lo : Nat) : Nat := field e.toNat hi lo

def portUdp (e : BitVec 512) : Nat := if portField e 175 160 = 0 then 47112 else portField e 175 160
def portPathBase (e : BitVec 512) : Nat := if portField e 159 144 = 0 then 49152 else portField e 159 144
def portMtu (e : BitVec 512) : Nat := portField e 191 176

/-- The 802.1Q tag of a port, as PCP and VLAN ID (R314). -/
def portVlan (e : BitVec 512) : Option (Nat × Nat) :=
  if bit e.toNat 127 then some (portField e 126 124, portField e 123 112) else none

/-- Bytes of a frame that carries n bytes of IP packet, FCS included (R314). -/
def frameSize (e : BitVec 512) (n : Nat) : Nat := max 64 (18 + (if bit e.toNat 127 then 4 else 0) + n)

/-- An IPv4 address as IPv4-mapped (R321). -/
def mapped4 (a : Nat) : Nat := 0xFFFF * 2 ^ 32 + a

/-- The port's own address of a family, IPv4 as IPv4-mapped (R314). -/
def ownIp (e : BitVec 512) (v4 : Bool) : Nat := if v4 then mapped4 (portField e 255 224) else portField e 511 384

/-- Is an address the port's own? -/
def portOwns (e : BitVec 512) (ip : Nat) : Bool :=
  (bit e.toNat 111 && ip == portField e 511 384) || (bit e.toNat 110 && ip == mapped4 (portField e 255 224))

/-- The MAC address of port p (R469). -/
def State.portMac (s : State) (p : Nat) : Nat := s.flash.macBase + p

/-- Is an address IPv4-mapped (R321)? -/
def isV4 (ip : Nat) : Bool := ip / 2 ^ 32 == 0xFFFF

/-- Is the flow's peer reached over IPv4? -/
def Flow.v4 (f : Flow) : Bool := isV4 f.peerAddr

/-- The gateway's MAC address of an address family, where it has been resolved (R314). -/
def Port.gateway (p : Port) (v4 : Bool) : Option Nat := (if v4 then p.gw4 else p.gw6).map (fun q => q.1)

/-! ## Sending a frame -/

/-- Parts of 1/200 lt that a byte takes at the payload rate of the port (R312). -/
def State.byteTime (s : State) (p : Nat) : Nat := 2 ^ ((s.cage (portCage p)).mode.getD 0)

/-- The line time at which a frame handed to the port now leaves: after all that is queued for it (R328). -/
def State.leaveLt (s : State) (p : Nat) : Nat := max s.time.lt (ceilDiv (s.port p).busy 200)

/-- A frame of `size` bytes is handed to a port, behind what is queued for it (R314, R328, R336); 20 bytes of preamble and gap follow
it (R318). -/
def State.sendFrame (s : State) (p : Nat) (dst : Option Nat) (size : Nat) (body : TxBody) : State :=
  let q := s.port p
  let fr : TxFrame := { port := p, vlan := portVlan q.entry, src := s.portMac p, dst := dst, size := size, leave := s.leaveLt p, body := body }
  let s := s.setPort p { q with busy := max (200 * s.time.lt) q.busy + (size + 20) * s.byteTime p }
  let s := (s.bump .netTxFrames p 1).bump .netTxGran p (ceilDiv size 256)
  { s with txFrames := s.txFrames ++ [fr] }

/-- Frames still queued for a port never leave it (R328). -/
def State.dropQueued (s : State) (p : Nat) : State :=
  let queued := fun (x : TxFrame) => x.port == p && decide (s.time.lt < x.leave)
  let gone := s.txFrames.filter queued
  let s := (s.uncount .netTxFrames p gone.length).uncount .netTxGran p ((gone.map (fun x => ceilDiv x.size 256)).sum)
  let s := s.setPort p { s.port p with busy := 0 }
  { s with txFrames := s.txFrames.filter (fun x => !queued x) }

/-! ## Checks over bytes -/

/-- Sum of the 16-bit words of bytes, each most significant byte first. -/
def words16 : List Byte → Nat
  | a :: b :: rest => 256 * a.toNat + b.toNat + words16 rest
  | [a] => 256 * a.toNat
  | [] => 0

/-- Sum of the 16-bit words of a 128-bit address. -/
def addrSum (a : Nat) : Nat := ((List.range 8).map (fun i => a / 2 ^ (16 * i) % 2 ^ 16)).sum

/-- The UDP checksum over IPv6: the one's complement of the one's complement sum of pseudo-header, UDP header and payload (R316). -/
def udpSum (src dst sport dport : Nat) (payload : List Byte) : Nat :=
  65535 - (addrSum src + addrSum dst + 2 * (8 + payload.length) + 17 + sport + dport + words16 payload) % 65535

/-- One bit of the reflected CRC32C. -/
def crcStep (c : Nat) : Nat := if c % 2 = 1 then Nat.xor (c / 2) 0x82F63B78 else c / 2

def crcByte (c : Nat) (b : Byte) : Nat :=
  let x := Nat.xor c b.toNat
  crcStep (crcStep (crcStep (crcStep (crcStep (crcStep (crcStep (crcStep x)))))))

/-- CRC32C (R319). -/
def crc32c (bs : List Byte) : Nat := Nat.xor (bs.foldl crcByte 0xFFFFFFFF) 0xFFFFFFFF

/-- The Bililjo header (R317). -/
structure Hdr where
  version : Nat
  type    : Nat
  flags   : Nat
  flow    : Nat
  path    : Nat
  keyId   : Nat
  txSeq   : Nat
  psn     : Nat
  ackPsn  : Nat
  sendLt  : Nat
  echoLt  : Nat
  msg     : Nat
  off     : Nat
  len     : Nat
  ce      : Nat
  reserved : Bool
deriving DecidableEq, Repr

def Hdr.ofBits (b : BitVec 384) : Hdr :=
  let f := fun (hi lo : Nat) => field b.toNat hi lo
  { version := f 383 380, type := f 379 376, flags := f 375 368, flow := f 367 350, path := f 343 336, keyId := f 335 320,
    txSeq := f 319 272, psn := f 271 240, ackPsn := f 239 208, sendLt := f 207 176, echoLt := f 175 144, msg := f 143 112,
    off := f 111 88, len := f 87 74, ce := f 71 56,
    reserved := f 349 344 != 0 || f 73 72 != 0 || f 55 0 != 0 || f 370 368 != 0 }

def Hdr.bits (h : Hdr) : BitVec 384 :=
  BitVec.ofNat 384 (place h.version 380 + place h.type 376 + place h.flags 368 + place h.flow 350 + place h.path 336 +
    place h.keyId 320 + place h.txSeq 272 + place h.psn 240 + place h.ackPsn 208 + place h.sendLt 176 + place h.echoLt 144 +
    place h.msg 112 + place h.off 88 + place h.len 74 + place h.ce 56)

def Hdr.last (h : Hdr) : Bool := bit h.flags 7
def Hdr.ackNow (h : Hdr) : Bool := bit h.flags 4
def Hdr.poison (h : Hdr) : Bool := bit h.flags 3

/-- Distance of a `PSN` above another, modulo 2^32. -/
def psnGap (a b : Nat) : Nat := (a + 2 ^ 32 - b) % 2 ^ 32

/-- Is the `PSN` below the other? -/
def psnBelow (a b : Nat) : Bool := decide (2 ^ 31 ≤ psnGap a b)

def psnNext (a : Nat) : Nat := (a + 1) % 2 ^ 32

/-- A flow fails (R323, R327): `LINK_DOWN` names it. -/
def State.failFlow (s : State) (f : Nat) : State :=
  let s := s.modFlow f (fun x => { x with state := 3 })
  s.report { EvtRec.blank with family := 4, code := 0, scope := scopeFlow, context := (s.flow f).slot, loc := place 2 60 + f }

/-- The port by which a path leaves (R325). -/
def Flow.pathPort (fl : Flow) (f path : Nat) : Nat :=
  let bits := (List.range 24).filter (fun b => bit fl.portMask b)
  24 * flowDie f + bits.getD (path % max 1 bits.length) 0

/-- Bytes of a frame that carries a Bililjo packet with n payload bytes, FCS included (R314, R316). -/
def frameBytes (e : BitVec 512) (v4 : Bool) (n : Nat) : Nat := frameSize e ((if v4 then 20 else 40) + 8 + 48 + n + 20)

/-- IP and UDP fields of a packet of a flow on a path (R316, R325). -/
def Flow.ipUdp (fl : Flow) (e : BitVec 512) (path : Nat) (data : Bool) (payload : List Byte) : IpUdp :=
  let src := ownIp e fl.v4
  let sport := portPathBase e + path
  { v4 := fl.v4, src := src, dst := fl.peerAddr, dscp := fl.dscp, ecn := if data then 2 else 0, ttl := 64, df := fl.v4, sport := sport,
    dport := fl.peerUdp, sum := if fl.v4 then 0 else udpSum src fl.peerAddr sport fl.peerUdp payload }

/-- Can a packet of the flow leave on a path: is a send key in use, and the path's port up (R312, R323, R328)? -/
def State.canSend (s : State) (f path : Nat) : Bool :=
  let fl := s.flow f
  fl.txLive && fl.txKeys != [] && s.portUp (fl.pathPort f path)

/-- MSS of a port (R318). -/
def mssOf (e : BitVec 512) (v4 : Bool) : Nat := (portMtu e - (if v4 then 20 else 40) - 76) / 256 * 256

/-- A packet is sealed and leaves on a path (R316, R317, R319, R323). -/
def State.sendPacket (s : State) (f path type flags psn ackPsn echo msg off ce : Nat) (payload : List Byte) : State :=
  let fl := s.flow f
  match s.canSend f path, fl.txKeys with
  | true, key :: _ =>
    if 2 ^ 48 ≤ fl.txSeq then s.failFlow f
    else
      let port := fl.pathPort f path
      let e := (s.port port).entry
      let h : Hdr := { version := 1, type := type, flags := flags, flow := fl.peerFlow, path := path, keyId := key.id,
                       txSeq := fl.txSeq, psn := psn, ackPsn := ackPsn, sendLt := s.leaveLt port % 2 ^ 32, echoLt := echo, msg := msg,
                       off := off, len := payload.length, ce := ce, reserved := false }
      let nonce := BitVec.ofNat 96 fl.txSeq
      let hb := leBytes 48 h.bits.toNat
      let plain := if type = 1 then payload else []
      let body := if type = 1 then Config.gcmSeal key.key nonce payload else payload
      let tag := Config.gcmTag key.key nonce (if type = 2 then hb ++ payload else hb) plain
      let sealedBytes := hb ++ body ++ leBytes 16 tag.toNat
      let crc := BitVec.ofNat 32 (crc32c sealedBytes)
      let ip := fl.ipUdp e path (type == 1) (sealedBytes ++ leBytes 4 crc.toNat)
      let s := s.setFlow f { fl with txSeq := fl.txSeq + 1 }
      let s := s.bump .netKeyAge (flowDie f) (if fl.txSeq + 1 = 2 ^ 47 then 1 else 0)
      s.sendFrame port ((s.port port).gateway fl.v4) (frameBytes e fl.v4 payload.length) (.bililjo path ip h.bits body tag crc)
  | _, _ => s

/-- The `SACK` bitmap (R318). -/
def Flow.sack (fl : Flow) : List Byte :=
  leBytes 48 ((List.range 384).foldl (fun v b =>
    if fl.rcvMap.contains ((fl.rcvNxt + 1 + b) % 2 ^ 32) then v + 2 ^ b else v) 0)

/-- May the flow send an `ACK` on a path: not while every path of it is suspended (R328)? -/
def State.mayAck (s : State) (f path : Nat) : Bool :=
  s.canSend f path && (List.range (s.flow f).npaths).any (fun p => !(s.flow f).suspended.any (fun q => q.1 == p))

/-- An `ACK` is sent for the packets that wait for one (R326); where none may go now, they wait on. -/
def State.sendAck (s : State) (f path echo : Nat) : State :=
  if !s.mayAck f path then s
  else
  let fl := s.flow f
  let s := s.sendPacket f path 2 0 0 fl.rcvNxt echo 0 0 (stick 0xFFFF fl.ceCount) fl.sack
  s.modFlow f (fun x => { x with unacked := 0, ackFrom := none, ceCount := 0 })

/-- A `PROBE` with `ACK_NOW` (R328). -/
def State.sendProbe (s : State) (f path : Nat) : State := s.sendPacket f path 3 16 0 0 0 0 0 0 []

/-- A message is handed to the Interchange (R324); poisoned data marks the step bad (R331). Answers its number. -/
def State.sendMessage (s : State) (f : Nat) (data : List Byte) (poison : List Nat) (sect : Nat) : State × Nat :=
  let fl := s.flow f
  let m : OutMsg := { num := fl.nextMsg, data := data, poison := poison, sect := sect, off := 0 }
  ((s.setFlow f { fl with out := fl.out ++ [m], nextMsg := (fl.nextMsg + 1) % 2 ^ 32 }).runBad (poison != []), fl.nextMsg)

/-- The body of a request, or of an end, among the holders of a Depot: the spec gives neither layout, so each byte is a free value,
by line time (notes/assumptions/19.md). -/
def State.noticeBody (s : State) : List Byte :=
  (List.range 64).map (fun i => BitVec.ofNat 8 (Config.freeValue (2 ^ 64 + 64 * s.time.lt + i)))

/-- A section number that belongs to no section: messages of the Depot. -/
def noSect : Nat := 65536

/-- Everything after the UDP header of a frame that carries a Bililjo packet (R316). -/
def udpPayload (frame : Frame) : List Byte :=
  leBytes 48 frame.hdr.toNat ++ frame.body ++ leBytes 16 frame.tag.toNat ++ leBytes 4 frame.crc.toNat

/-- Is the UDP checksum of a frame zero, or correct (R320)? An IPv4-mapped address adds a multiple of 65,535 to the sum of an IPv4 one. -/
def sumGood (frame : Frame) : Bool :=
  frame.udpSum == 0 || frame.udpSum.toNat ==
    udpSum frame.srcIp.toNat frame.dstIp.toNat frame.udpSrc.toNat frame.udpDst.toNat (udpPayload frame)

/-- ETH_FRAME_RECEIVE: the checks of R320 in order. A good frame larger than the MTU is discarded (R313). -/
def execEthFrameReceive (port : Fin 48) (frame : Frame) (now : Nat) (s : State) : Out :=
  let s := s.advance now
  if !s.portUp port then .next s
  else if !frame.good then .next (s.bump .netFcsErr port 1)
  else
    let p := port.val
    let die := portDie p
    let e := (s.port p).entry
    let s := ((s.bump .netRxFrames p 1).bump .netRxGran p (ceilDiv frame.size 256)).bump .netFecCorrected p frame.fixed
    if frameSize e (portMtu e) < frame.size then .next s
    else match frame.kind with
    | .arp | .ndp | .icmpEcho | .ptp => .next s
    | .other => .next (s.bump .netStrangerAddr die 1)
    | .udp =>
      if frame.dstMac.toNat ≠ s.portMac p ∨ !portOwns e frame.dstIp.toNat ∨ !frame.plain ∨ !sumGood frame ∨ frame.udpDst.toNat ≠ portUdp e then
        .next (s.bump .netStrangerAddr die 1)
      else if frame.crc.toNat ≠ crc32c (leBytes 48 frame.hdr.toNat ++ frame.body ++ leBytes 16 frame.tag.toNat) then
        .next (s.bump .netCrc die 1)
      else
        let h := Hdr.ofBits frame.hdr
        let fl := s.flow h.flow
        if h.version ≠ 1 ∨ h.type = 0 ∨ 3 < h.type ∨ h.reserved ∨ flowDie h.flow ≠ die ∨ (fl.state ≠ 1 ∧ fl.state ≠ 2) ∨
            frame.srcIp.toNat ≠ fl.peerAddr then
          .next (s.bump .netStrangerFlow die 1)
        else
          let slotOf := h.keyId * 256 + h.path
          match fl.rxKeys.find? (fun k => k.id == h.keyId) with
          | none => .next (s.bump .netStrangerAuth die 1)
          | some key =>
            let nonce := BitVec.ofNat 96 h.txSeq
            let hb := leBytes 48 frame.hdr.toNat
            let plain := if h.type = 1 then Config.gcmOpen key.key nonce frame.body else []
            let tag := Config.gcmTag key.key nonce (if h.type = 2 then hb ++ frame.body else hb) plain
            if h.txSeq < tget 0 fl.seen slotOf ∨ tag ≠ frame.tag then .next (s.bump .netStrangerAuth die 1)
            else if h.type = 1 ∧ 384 ≤ psnGap h.psn fl.rcvNxt ∧ !psnBelow h.psn fl.rcvNxt then .next (s.bump .netRxBeyond die 1)
            else
              let r : RxPkt := { hdr := frame.hdr, body := if h.type = 1 then plain else frame.body, ce := frame.ce }
              let s := s.setFlow h.flow { fl with rxq := fl.rxq ++ [r], seen := tset fl.seen slotOf (h.txSeq + 1),
                                                  heard := if h.type = 2 then s.time.lt else fl.heard }
              .next (s.bump .netCe die (if frame.ce && h.type == 1 then 1 else 0))

/-- The packet at the front of a flow's receive queue, if it is of this type; a `FAILED` flow accepts nothing (R322). -/
def Flow.front (fl : Flow) (type : Nat) : Option (Hdr × RxPkt) :=
  match fl.rxq with
  | r :: _ => if (Hdr.ofBits r.hdr).type = type ∧ (fl.state = 1 ∨ fl.state = 2) then some (Hdr.ofBits r.hdr, r) else none
  | [] => none

/-- Bytes laid into a list at an offset; what lies between reads as zero until it arrives. -/
def layBytes (l : List Byte) (off : Nat) (bs : List Byte) : List Byte :=
  let l := l ++ List.replicate (off + bs.length - l.length) 0
  l.take off ++ bs ++ l.drop (off + bs.length)

/-- A payload is written into its message (R324, R331). -/
def InMsg.put (m : InMsg) (off : Nat) (bs : List Byte) (bad : Bool) : InMsg :=
  { m with data := layBytes m.data off bs,
           poison := if bad then (granulesOf off bs.length).foldl numInsert m.poison else m.poison }

/-- `RCV_NXT` past every packet that has been received. -/
def advanceRcv (got : List Nat) : Nat → Nat → Nat
  | 0, n => n
  | fuel + 1, n => if got.contains n then advanceRcv got fuel (psnNext n) else n

/-- Messages whose `LAST` packet `RCV_NXT` has passed are delivered, in the order of those packets, which is `MSG` order (R324). -/
def Flow.deliver (fl : Flow) : Flow :=
  let done := (fl.lastPsn.filter (fun q => psnBelow q.1 fl.rcvNxt)).map (fun q => q.2)
  { fl with
    lastPsn := fl.lastPsn.filter (fun q => !psnBelow q.1 fl.rcvNxt)
    inbox := fl.inbox.filter (fun m => !done.contains m.num)
    delivered := fl.delivered ++ done.filterMap (fun n => fl.inbox.find? (fun m => m.num == n)) }

/-- A `LAST` packet among those held, in `PSN` order. -/
def lastInsert (q : Nat × Nat) : List (Nat × Nat) → List (Nat × Nat)
  | [] => [q]
  | x :: rest => if psnBelow q.1 x.1 then q :: x :: rest else x :: lastInsert q rest

/-- A `DATA` packet that is not a duplicate is taken into its message (R324). -/
def Flow.take (fl : Flow) (h : Hdr) (body : List Byte) : Flow :=
  let inbox := if fl.inbox.any (fun m => m.num == h.msg) then fl.inbox
    else fl.inbox ++ [{ num := h.msg, data := [], poison := [] }]
  let inbox := inbox.map (fun m => if m.num = h.msg then m.put (256 * h.off) body h.poison else m)
  let got := fl.rcvMap ++ [h.psn]
  let next := advanceRcv got (got.length + 1) fl.rcvNxt
  { fl with
    inbox := inbox
    lastPsn := if h.last then lastInsert (h.psn, h.msg) fl.lastPsn else fl.lastPsn
    rcvMap := got.filter (fun p => !psnBelow p next)
    rcvNxt := next }.deliver

/-- BILILJO_DATA_RECEIVE: the `DATA` packet at the front of the flow's queue is taken, or found to be a duplicate; an `ACK` goes
at once where R326 asks for it (R320, R324, R326). -/
def execBililjoDataReceive (flow : Fin 262144) (now : Nat) (s : State) : Out :=
  let s := s.advance now
  let f := flow.val
  let fl := s.flow f
  match fl.front 1 with
  | none => .next s
  | some (h, r) =>
    let dup := psnBelow h.psn fl.rcvNxt || fl.rcvMap.contains h.psn
    let gap := h.psn != fl.rcvNxt && !fl.rcvMap.contains (psnGap h.psn 1)
    let fl' := { fl with
      rxq := fl.rxq.drop 1, unacked := fl.unacked + 1, ackFrom := some (fl.ackFrom.getD s.time.lt), ackEcho := h.sendLt,
      ackPath := h.path, ceCount := fl.ceCount + (if r.ce then 1 else 0) }
    let fl' := if dup then fl' else fl'.take h r.body
    let s := (s.setFlow f fl').bump .netDup (flowDie f) (if dup then 1 else 0)
    if h.ackNow || r.ce || gap || dup || decide (4 ≤ fl'.unacked) then .next (s.sendAck f h.path h.sendLt) else .next s

/-- ACK_DELAY_EXPIRY: within 2,000 lt of a packet not yet acknowledged an `ACK` goes (R326). -/
def execAckDelayExpiry (flow : Fin 262144) (now : Nat) (s : State) : Out :=
  let s := s.advance now
  let fl := s.flow flow
  match fl.ackFrom with
  | none => .next s
  | some _ => if fl.state = 1 ∨ fl.state = 2 then .next (s.sendAck flow fl.ackPath fl.ackEcho) else .next s

/-- A packet is declared lost (R327): a path on which two in a row were lost is suspended (R328). -/
def State.loseSent (s : State) (f : Nat) (x : Sent) : State :=
  let fl := s.flow f
  let n := tget 0 fl.pathLoss x.path + 1
  let fl : Flow := { fl with sent := fl.sent.map (fun (y : Sent) => if y.psn = x.psn then { y with state := 2 } else y) }
  if n < 2 then s.setFlow f { fl with pathLoss := tset fl.pathLoss x.path n }
  else
    let again := fl.suspended.any (fun q => q.1 == x.path)
    let fl := { fl with pathLoss := tset fl.pathLoss x.path 0 }
    if again then s.setFlow f fl
    else (s.setFlow f { fl with suspended := tset fl.suspended x.path s.time.lt }).bump .pathSuspend (flowDie f) 1

/-- `RTO` (R327): the base from `SRTT`, doubled with each timeout in a row. -/
def rtoOf (sampled : Bool) (srtt run : Nat) : Nat :=
  min 16777215 ((if sampled then max (2 * srtt) 20000 else 1000000) * 2 ^ run)

/-- The books after an `ACK` (R327, R330): what it reports leaves or is marked, and answers how many are reported for the first
time. -/
def Flow.acked (fl : Flow) (h : Hdr) (bits : Nat) : Flow × Nat :=
  let reported := fun (x : Sent) => psnBelow x.psn h.ackPsn ||
    (decide (1 ≤ psnGap x.psn h.ackPsn ∧ psnGap x.psn h.ackPsn ≤ 384) && bit bits (psnGap x.psn h.ackPsn - 1))
  let hit := fl.sent.filter reported
  let fresh := hit.filter (fun x => x.state != 1)
  let sent := (fl.sent.filter (fun x => !psnBelow x.psn h.ackPsn)).map (fun x =>
    if reported x then { x with state := 1 } else x)
  let gained := psnBelow fl.sndUna h.ackPsn && !psnBelow fl.sndNxt h.ackPsn
  let out := fl.out.filter (fun m => decide (m.off < m.data.length) || sent.any (fun x => x.msg == m.num))
  ({ fl with
     sent := sent, sndUna := if gained then h.ackPsn else fl.sndUna, rtoRun := if gained then 0 else fl.rtoRun, out := out,
     pathLoss := fresh.foldl (fun t x => tset t x.path 0) fl.pathLoss }, fresh.length)

/-- The packets that an `ACK` shows to be lost (R327). -/
def Flow.lostBy (before after : Flow) (h : Hdr) (bits : Nat) : List Sent :=
  let reported := before.sent.filter (fun x => psnBelow x.psn h.ackPsn ||
    (decide (1 ≤ psnGap x.psn h.ackPsn ∧ psnGap x.psn h.ackPsn ≤ 384) && bit bits (psnGap x.psn h.ackPsn - 1)))
  let far := max (before.srtt / 4) 2000
  after.sent.filter (fun x => x.state == 0 && reported.any (fun y => decide (x.lastLt + far < y.firstLt)))

/-- The sample of an `ACK` and the window that follows (R329). -/
def Flow.sample (fl : Flow) (lt echo ce newly : Nat) : Flow :=
  let rtt := (lt % 2 ^ 32 + 2 ^ 32 - echo) % 2 ^ 32
  let first := fl.rtts == [] && fl.srtt == 0
  let rtts := (fl.rtts.filter (fun q => decide (lt < q.1 + 10 ^ 10))) ++ [(lt, rtt)]
  let srtt := min (ones 24) (if first then rtt else (7 * fl.srtt + rtt) / 8)
  let least := min (ones 24) (rtts.foldl (fun m q => min m q.2) rtt)
  let busy := decide (0 < ce) || decide (least + fl.targetQ < rtt)
  let cut := busy && decide (fl.lastCut + srtt ≤ lt)
  let cwnd := if cut then max 64 (if 0 < ce then fl.cwnd / 2 else fl.cwnd * 7 / 8)
    else if busy then fl.cwnd
    else min 24576 (fl.cwnd + 64 * newly * 64 / fl.cwnd)
  { fl with rtts := rtts, srtt := srtt, minRtt := least, cwnd := cwnd, lastCut := if cut then lt else fl.lastCut,
            rto := rtoOf true srtt fl.rtoRun }

/-- The message whose next packet is to be first transmitted (R324); a `DRAINING` flow starts no new one (R322). -/
def Flow.nextOut (fl : Flow) : Option OutMsg :=
  match fl.out.find? (fun m => decide (m.off < m.data.length)) with
  | some m => if fl.state = 2 ∧ m.off = 0 then none else some m
  | none => none

/-- Has a `DRAINING` flow nothing left: every sent `PSN` acknowledged and no message begun but unsent (R322, R332)? -/
def Flow.drainedOut (fl : Flow) : Bool := fl.state == 2 && fl.sent == [] && fl.nextOut.isNone

/-- An `ACK` at the front of a flow's receive queue: books, losses, sample and window (R327 to R330); one on a path that is being
probed, within `RTO`, returns it to the rotation (R328). The last closes a `DRAINING` flow (R322). -/
def State.ackReceive (s : State) (f : Nat) : State :=
  let fl := s.flow f
  match fl.front 2 with
  | none => s
  | some (h, r) =>
    let bits := leNat r.body
    let (fl', newly) := { fl with rxq := fl.rxq.drop 1 }.acked h bits
    let lost := fl.lostBy fl' h bits
    let intime := fl.suspended.any (fun q => q.1 == h.path && decide (s.time.lt ≤ q.2 + fl.rto))
    let fl' := if fl.probing.contains h.path && intime then
        { fl' with probing := fl'.probing.filter (fun p => p != h.path), suspended := terase fl'.suspended h.path }
      else fl'
    let s := lost.foldl (fun s x => s.loseSent f x) (s.setFlow f fl')
    s.modFlow f (fun x => if x.drainedOut then Flow.init else x.sample s.time.lt h.echoLt h.ce newly)

/-- BILILJO_PROBE_RECEIVE: a `PROBE` with `ACK_NOW` is answered at once (R326, R328). -/
def execBililjoProbeReceive (flow : Fin 262144) (now : Nat) (s : State) : Out :=
  let s := s.advance now
  let f := flow.val
  let fl := s.flow f
  match fl.front 3 with
  | none => .next s
  | some (h, _) =>
    let s := s.setFlow f { fl with rxq := fl.rxq.drop 1 }
    if h.ackNow then .next (s.sendAck f h.path h.sendLt) else .next s

/-- Can a path carry a packet (R325, R328)? -/
def State.pathOpen (s : State) (f path : Nat) : Bool :=
  let fl := s.flow f
  !fl.suspended.any (fun q => q.1 == path) && s.portUp (fl.pathPort f path)

/-- The next path of the rotation from one on (R325). -/
def State.nextPath (s : State) (f start : Nat) : Option Nat :=
  let n := (s.flow f).npaths
  ((List.range n).map (fun i => (start + i) % n)).find? (fun p => s.pathOpen f p)

/-! ## Slots and pacing -/

/-- Slot records of a flow in a section: index and window bounds after the section epoch (R333). -/
def Image.slotsOf (i : Image) (f sect : Nat) : List (Nat × Nat × Nat) :=
  (List.range i.slotCount).filterMap (fun n =>
    let w := i.slotRec n
    if field w 127 112 = sect ∧ field w 39 22 = f then
      some (n, field w 111 80, field w 111 80 + field w 79 56 + field w 55 40)
    else none)

/-- The windows of a flow in the running section, in line time (R333, R334). -/
def State.windows (s : State) (f : Nat) : List (Nat × Nat × Nat) :=
  match s.runSlot with
  | some c =>
    if (s.flow f).slot ≠ c then []
    else match (s.slot c).image, (s.slot c).run with
      | some img, some run => (img.slotsOf f run.sect).map (fun q => (q.1, run.sectEpoch + q.2.1, run.sectEpoch + q.2.2))
      | _, _ => []
  | none => []

/-- Do slot windows apply (R335)? -/
def State.timed (s : State) : Bool := s.time.state == .locked || s.time.state == .holdover

/-- The window of the flow that is open now (R334). -/
def State.openWindow (s : State) (f : Nat) : Option Nat :=
  ((s.windows f).find? (fun w => (s.flow f).window == some w.1 && decide (s.time.lt < w.2.2))).map (fun w => w.1)

/-- May a new `DATA` packet of the flow go now (R334, R335)? -/
def State.slotAllows (s : State) (f : Nat) : Bool :=
  let ws := s.windows f
  !s.timed || ws == [] || (s.openWindow f).isSome || ws.all (fun w => decide (w.2.2 ≤ s.time.lt))

/-- `RATE` of the window that is open for the flow, 0 without one (R333). -/
def State.slotRate (s : State) (f : Nat) : Nat :=
  match s.runSlot, s.openWindow f with
  | some c, some i => match (s.slot c).image with | some img => field (img.slotRec i) 21 8 | none => 0
  | _, _ => 0

/-- How long after a new packet of `wire` bytes the next may go, in 1/65,536 lt, rounded up: `CWND` packets spread over `SRTT`, once a
sample has been taken, and no more than `RATE` Gb/s, which is `RATE` bits a lt (R329, R333). -/
def State.paceGap (s : State) (f wire : Nat) : Nat :=
  let fl := s.flow f
  let rate := s.slotRate f
  max (ceilDiv (64 * 65536 * fl.srtt) fl.cwnd) (if s.timed && rate != 0 then ceilDiv (8 * 65536 * wire) rate else 0)

/-- Does the pace allow a new packet now (R329)? -/
def State.paceAllows (s : State) (f : Nat) : Bool := decide ((s.flow f).paced ≤ 65536 * s.time.lt)

/-- Flag bits of a `DATA` packet (R317). -/
def dataFlags (last retx slot poison : Bool) : Nat :=
  (if last then 128 else 0) + (if retx then 64 else 0) + (if slot then 32 else 0) + (if poison then 8 else 0)

/-- BILILJO_DATA_SEND: a lost packet goes again on the next path after the one that lost it; else a new packet goes when the
window, the pace and the slots allow (R324, R325, R327, R329, R330, R331, R334). -/
def execBililjoDataSend (flow : Fin 262144) (now : Nat) (s : State) : Out :=
  let s := s.advance now
  let f := flow.val
  let fl := s.flow f
  if (fl.state ≠ 1 ∧ fl.state ≠ 2) ∨ !fl.txLive then .next s
  else
    match fl.sent.find? (fun x => x.state == 2) with
    | some x =>
      match s.nextPath f (x.path + 1), fl.out.find? (fun m => m.num == x.msg) with
      | some path, some m =>
        let s := s.setFlow f { fl with sent := fl.sent.map (fun y =>
          if y.psn = x.psn then { y with state := 0, path := path, lastLt := s.leaveLt (fl.pathPort f path) } else y) }
        let s := s.bump .netRetx (flowDie f) 1
        .next (s.sendPacket f path 1 (dataFlags x.last true x.slot x.poison) x.psn 0 0 x.msg (x.off / 256) 0
          (sliceBytes m.data x.off x.len))
      | _, _ => .next s
    | none =>
      let flying := (fl.sent.filter (fun x => x.state == 0)).length
      match fl.nextOut, s.nextPath f fl.rotation with
      | some m, some path =>
        if fl.cwnd ≤ 64 * flying ∨ 384 ≤ psnGap fl.sndNxt fl.sndUna ∨ !s.slotAllows f ∨ !s.paceAllows f then .next s
        else
          let port := fl.pathPort f path
          let e := (s.port port).entry
          let len := min (mssOf e fl.v4) (m.data.length - m.off)
          let last := m.off + len == m.data.length
          let bad := (granulesOf m.off len).any m.poison.contains
          let slot := s.timed && (s.openWindow f).isSome
          let leave := s.leaveLt port
          let paced := max (65536 * s.time.lt) fl.paced + s.paceGap f (frameBytes e fl.v4 len + 20)
          let x : Sent := { psn := fl.sndNxt, msg := m.num, off := m.off, len := len, last := last, poison := bad, slot := slot,
                            path := path, firstLt := leave, lastLt := leave, state := 0 }
          let s := s.setFlow f { fl with
            sent := fl.sent ++ [x], sndNxt := psnNext fl.sndNxt, rotation := (path + 1) % fl.npaths, paced := paced,
            out := fl.out.map (fun y => if y.num = m.num then { y with off := y.off + len } else y) }
          .next (s.sendPacket f path 1 (dataFlags last false slot bad) x.psn 0 0 m.num (m.off / 256) 0 (sliceBytes m.data m.off len))
      | _, _ => .next s

/-- RTO_EXPIRY: the oldest packet in flight for `RTO` is lost; the eighth timeout in a row without progress fails the flow
(R327). -/
def execRtoExpiry (flow : Fin 262144) (now : Nat) (s : State) : Out :=
  let s := s.advance now
  let f := flow.val
  let fl := s.flow f
  if fl.state ≠ 1 ∧ fl.state ≠ 2 then .next s
  else
    match fl.sent.find? (fun x => x.state == 0 && decide (x.lastLt + fl.rto ≤ s.time.lt)) with
    | none => .next s
    | some x =>
      let s := (s.loseSent f x).bump .netRto (flowDie f) 1
      let run := fl.rtoRun + 1
      let s := s.modFlow f (fun y => { y with rtoRun := run, rto := rtoOf (y.rtts != [] || y.srtt != 0) y.srtt run })
      if run = 8 then .next (s.failFlow f) else .next s

/-- PATH_SUSPEND_EXPIRY: the path's 1,000,000 lt have passed and a `PROBE` goes on it (R328). -/
def execPathSuspendExpiry (flow : Fin 262144) (path : Fin 256) (now : Nat) (s : State) : Out :=
  let s := s.advance now
  let f := flow.val
  let fl := s.flow f
  match fl.suspended.find? (fun q => q.1 == path.val) with
  | none => .next s
  | some q =>
    if fl.probing.contains path.val ∨ s.time.lt < q.2 + 1000000 ∨ !s.portUp (fl.pathPort f path) ∨ (fl.state ≠ 1 ∧ fl.state ≠ 2) then
      .next s
    else
      let s := s.setFlow f { fl with probing := fl.probing ++ [path.val], suspended := tset fl.suspended path s.time.lt }
      .next (s.sendProbe f path)

/-- PATH_PROBE_TIMEOUT: no `ACK` has answered within `RTO`, and the suspension repeats (R328). -/
def execPathProbeTimeout (flow : Fin 262144) (path : Fin 256) (now : Nat) (s : State) : Out :=
  let s := s.advance now
  let fl := s.flow flow
  match fl.suspended.find? (fun q => q.1 == path.val) with
  | none => .next s
  | some q =>
    if !fl.probing.contains path.val ∨ s.time.lt < q.2 + fl.rto then .next s
    else .next ((s.setFlow flow { fl with probing := fl.probing.filter (fun p => p != path.val),
                                          suspended := tset fl.suspended path s.time.lt }).bump .pathSuspend (flowDie flow) 1)

/-- Paths of a flow that leave through a port. -/
def Flow.pathsOn (fl : Flow) (f port : Nat) : List Nat := (List.range fl.npaths).filter (fun p => fl.pathPort f p == port)

/-- Packets of a flow still queued for a port, whose paths are given, are declared lost (R328). -/
def Flow.loseQueued (fl : Flow) (paths : List Nat) (lt : Nat) : List Sent :=
  fl.sent.map (fun (x : Sent) => if paths.contains x.path ∧ x.state = 0 ∧ lt < x.lastLt then { x with state := 2 } else x)

/-- Every path through a port is suspended, and what is queued for it is lost (R328). -/
def State.suspendPort (s : State) (port : Nat) : State :=
  ((s.flows.map (fun q => q.1)).foldl (fun s f =>
    let fl := s.flow f
    if flowDie f ≠ portDie port ∨ (fl.state ≠ 1 ∧ fl.state ≠ 2) then s
    else
      let ps := (fl.pathsOn f port).filter (fun p => !fl.suspended.any (fun q => q.1 == p))
      (s.setFlow f { fl with sent := fl.loseQueued (fl.pathsOn f port) s.time.lt,
                             suspended := ps.foldl (fun t p => tset t p s.time.lt) fl.suspended,
                             probing := fl.probing.filter (fun p => !(fl.pathsOn f port).contains p) }).bump .pathSuspend (flowDie f)
        ps.length) s).dropQueued port

/-- A port is down: `LINK_DOWN` names it and its paths are suspended (R328). -/
def State.portDown (s : State) (port : Nat) : State :=
  let s := s.setPort port { s.port port with lock := false }
  let s := s.report { EvtRec.blank with family := 4, code := 0, scope := scopeFlow, loc := place 1 60 + port }
  s.suspendPort port

/-- PORT_LOCK_LOSS: the port has been without PCS lock for 1 ms (R328). -/
def execPortLockLoss (port : Fin 48) (now : Nat) (s : State) : Out :=
  let s := s.advance now
  if (s.port port).lock then .next (s.portDown port) else .next s

/-- PORT_REJOIN: the port has held lock for 100 ms; it rejoins and its paths are probed (R328). -/
def execPortRejoin (port : Fin 48) (now : Nat) (s : State) : Out :=
  let s := s.advance now
  let p := port.val
  if (s.port p).lock ∨ !s.portExists p ∨ !(s.cage (portCage p)).trained then .next s
  else
    let s := s.setPort p { s.port p with lock := true, lockAt := s.time.lt }
    .next ((s.flows.map (fun q => q.1)).foldl (fun s f =>
      let fl := s.flow f
      if flowDie f ≠ portDie p ∨ (fl.state ≠ 1 ∧ fl.state ≠ 2) then s
      else (fl.pathsOn f p).foldl (fun s path =>
        let fl := s.flow f
        if fl.suspended.any (fun q => q.1 == path) then
          (s.setFlow f { fl with probing := fl.probing.filter (fun x => x != path) ++ [path],
                                 suspended := tset fl.suspended path s.time.lt }).sendProbe f path
        else s) s) s)

/-- SLOT_WINDOW_OPEN: window i of the flow's slots in the running section opens, or is ignored for the time state, which counts it once
and for good (R334, R335). -/
def execSlotWindowOpen (flow : Fin 262144) (i : Nat) (now : Nat) (s : State) : Out :=
  let s := s.advance now
  match (s.windows flow).find? (fun w => w.1 == i) with
  | none => .next s
  | some w =>
    let fl := s.flow flow
    if s.time.lt < w.2.1 ∨ w.2.2 ≤ s.time.lt ∨ fl.window = some i ∨ fl.ignored = some w.2.1 then .next s
    else if s.timed then .next (s.setFlow flow { fl with window := some i })
    else .next ((s.setFlow flow { fl with ignored := some w.2.1 }).bump .slotUntimed (flowDie flow) 1)

/-- SLOT_WINDOW_CLOSE: the window's end has come; data still unsent counts an overrun (R334). -/
def execSlotWindowClose (flow : Fin 262144) (i : Nat) (now : Nat) (s : State) : Out :=
  let s := s.advance now
  let fl := s.flow flow
  if fl.window ≠ some i then .next s
  else
    let early := (s.windows flow).any (fun w => w.1 == i && decide (s.time.lt < w.2.2))
    if early then .next s
    else .next ((s.setFlow flow { fl with window := none }).bump .slotOverrun (flowDie flow) (if fl.nextOut.isSome then 1 else 0))

/-- The send key not yet in use that takes over first: the one with the earliest activation time, of two such the older (R323). -/
def Flow.nextKey (fl : Flow) : Option Key :=
  (if fl.txLive then fl.txKeys.drop 1 else fl.txKeys).foldl (fun (b : Option Key) k =>
    match b with | some x => if k.since < x.since then some k else b | none => some k) none

/-- KEY_ACTIVATE: a send key takes over at its activation time, the one in use goes, and `TX_SEQ` restarts (R323). -/
def execKeyActivate (flow : Fin 262144) (now : Nat) (s : State) : Out :=
  let s := s.advance now
  let fl := s.flow flow
  match fl.nextKey with
  | none => .next s
  | some k =>
    let rest := (if fl.txLive then fl.txKeys.drop 1 else fl.txKeys).filter (fun x => x.id != k.id)
    if s.time.lt < k.since then .next s
    else .next (s.setFlow flow { fl with txKeys := k :: rest, txLive := true, keyIdTx := k.id, txSeq := 0 })

/-- KEY_WITHDRAW: the older receive key goes 10 ms after the newer one's activation time, and what was accepted under it is
forgotten: another key may take its `KEY_ID` (R320, R323). -/
def execKeyWithdraw (flow : Fin 262144) (now : Nat) (s : State) : Out :=
  let s := s.advance now
  let fl := s.flow flow
  match fl.rxKeys with
  | old :: k :: rest =>
    if s.time.lt < k.since + 10000000 then .next s
    else .next (s.setFlow flow { fl with rxKeys := k :: rest, seen := fl.seen.filter (fun q => q.1 / 256 != old.id) })
  | _ => .next s

/-- FLOW_DRAIN_TIMEOUT: a `DRAINING` flow closes once every sent `PSN` is acknowledged, or after 100 ms (R322). -/
def execFlowDrainTimeout (flow : Fin 262144) (now : Nat) (s : State) : Out :=
  let s := s.advance now
  let fl := s.flow flow
  if fl.state = 2 ∧ (fl.drainedOut = true ∨ fl.drainFrom + 100000000 ≤ s.time.lt) then .next (s.setFlow flow Flow.init) else .next s

/-- ARP_NDP_REQUEST: a request for a port's own address is answered (R314). -/
def execArpNdpRequest (port : Fin 48) (mac : BitVec 48) (ip : BitVec 128) (s : State) : Out :=
  if s.portUp port && portOwns (s.port port).entry ip.toNat then
    .next (s.sendFrame port (some mac.toNat) (frameSize (s.port port).entry (if isV4 ip.toNat then 28 else 72)) (.arpReply mac.toNat ip.toNat))
  else .next s

/-- ICMP_ECHO_REQUEST: a request to a port's own address, no larger than the MTU, is answered (R313, R314). -/
def execIcmpEchoRequest (port : Fin 48) (src dst : BitVec 128) (data : List Byte) (s : State) : Out :=
  let e := (s.port port).entry
  let v4 := isV4 dst.toNat
  let n := (if v4 then 20 else 40) + 8 + data.length
  if s.portUp port && portOwns e dst.toNat && decide (n ≤ portMtu e) then
    .next (s.sendFrame port ((s.port port).gateway v4) (frameSize e n) (.echoReply dst.toNat src.toNat data))
  else .next s

/-- Is a gateway to be resolved, or again after 30 s (R314)? -/
def resolveDue (lt : Nat) : Option (Nat × Nat) → Bool
  | none => true
  | some q => decide (q.2 + 30000000000 ≤ lt)

/-- GATEWAY_REFRESH: the gateway's MAC address is resolved, again every 30 s; `mac` is the answer (R314). Of the gateways of a port with
both address families the IPv6 one goes first. A request goes to all stations by ARP, or to the gateway's solicited-node group. -/
def execGatewayRefresh (port : Fin 48) (mac : BitVec 48) (now : Nat) (s : State) : Out :=
  let s := s.advance now
  let p := port.val
  let q := s.port p
  if !s.portUp p then .next s
  else if bit q.entry.toNat 111 && resolveDue s.time.lt q.gw6 then
    let gw := portField q.entry 383 256
    let s := s.sendFrame p (some (0x3333FF000000 + gw % 2 ^ 24)) (frameSize q.entry 72) (.resolve gw)
    .next (s.setPort p { s.port p with gw6 := some (mac.toNat, s.time.lt) })
  else if bit q.entry.toNat 110 && resolveDue s.time.lt q.gw4 then
    let s := s.sendFrame p (some (ones 48)) (frameSize q.entry 28) (.resolve (mapped4 (portField q.entry 223 192)))
    .next (s.setPort p { s.port p with gw4 := some (mac.toNat, s.time.lt) })
  else .next s

/-- Ports of a cage that its mode provides. -/
def State.cagePorts (s : State) (cage : Nat) : List Nat :=
  ((List.range 4).map (fun q => cage / 6 * 24 + cage % 6 * 4 + q)).filter (fun p => s.portExists p)

/-- Does the OSFP module of a cage declare more than 18 W, so that it is held in low-power mode (R480)? -/
def Cage.hungry (c : Cage) : Bool := match c.watts with | some w => decide (18 < w) | none => false

/-- CAGE_TRAIN_COMPLETE: the cage's links are trained and carry traffic; `NET_CONFIG` completes with the last cage (R312, R435).
An OSFP module above 18 W does not train (R480). -/
def execCageTrainComplete (cage : Fin 12) (now : Nat) (s : State) : Out :=
  let s := s.advance now
  let c := s.cage cage
  if c.mode.isNone || c.trained || c.hungry then .next s
  else
    let s := s.setCage cage { c with trained := true }
    let s := (s.cagePorts cage).foldl (fun s p => s.setPort p { s.port p with lock := true, lockAt := s.time.lt }) s
    if (List.range 12).all (fun i => (s.cage i).trained) then
      .next (s.endCommands (fun _ x => x.accepted && x.opcode == 0x0B) 0)
    else .next s

/-- OSFP_INSERT: a module that declares more than 18 W stays in low-power mode, and `LINK_DOWN` names each port of its cage
(R480). -/
def execOsfpInsert (cage : Fin 12) (watts : Nat) (now : Nat) (s : State) : Out :=
  let s := s.advance now
  let s := s.setCage cage { s.cage cage with watts := some watts }
  if 18 < watts then
    let s := s.setCage cage { s.cage cage with trained := false }
    .next ((s.cagePorts cage).foldl (fun s p => s.portDown p) s)
  else .next s

/-- OSFP_REMOVE: a removal acts as a loss of PCS lock (R480). -/
def execOsfpRemove (cage : Fin 12) (now : Nat) (s : State) : Out :=
  let s := s.advance now
  let s := s.setCage cage { s.cage cage with watts := none }
  .next ((s.cagePorts cage).foldl (fun s p => if (s.port p).lock then s.portDown p else s) s)

end Sys2Proof.Machine
end

