-- ==== Sys2Proof/Machine/LineTime.lean ====
section
/-! DEFINITION. The discipline of line time (06_timetable_and_line_time.md, R139 to R145): PTP, the reference input, holdover and
the Stations' copies. -/

namespace Sys2Proof.Machine

open Sys2Proof

/-- `TIME_STATE` changes, with its notice (R140, R453); entering LOST raises `TIME_LOST` and counts (R144). -/
def State.enterTime (s : State) (x : TimeState) : State :=
  if s.time.state = x then s
  else
    let s := { s with time := { s.time with state := x, goodRun := 0 } }
    let s := s.notice 8 15 x.code
    if x = .lost then (s.report { EvtRec.blank with family := 5, code := 0, scope := scopeNone }).bump .timeLostEvents 0 1 else s

/-- Is a measured offset, in 1/4 lt, within n lt? -/
def within (offset : Int) (n : Nat) : Bool := decide (-(4 * (n : Int)) ≤ offset) && decide (offset ≤ 4 * (n : Int))

/-- One measurement from the source (R140): the rate correction that follows is a free value within ±100 ppm (R143). -/
def State.measure (s : State) (offset : Int) : State :=
  let s := { s with
    time := { s.time with offset := offset, slewPpm := (Config.freeValue s.freeIx % 201 : Nat) - 100 }, freeIx := s.freeIx + 1 }
  match s.time.state with
  | .free => s
  | .acquiring =>
    if within offset 10 then
      if 16 ≤ s.time.goodRun + 1 then s.enterTime .locked
      else { s with time := { s.time with goodRun := s.time.goodRun + 1 } }
    else { s with time := { s.time with goodRun := 0 } }
  | .locked => if within offset 100 then s else s.enterTime .lost
  | .holdover | .lost => s.enterTime .acquiring

/-- The source is gone (R140). -/
def State.loseSource (s : State) : State :=
  if s.time.state = .locked then { (s.enterTime .holdover) with time := { (s.enterTime .holdover).time with holdoverFrom := s.time.lt } }
  else s

/-- The PTP port in use (R141). -/
def TimeKeeper.port (t : TimeKeeper) : Nat := if t.onSecondary then t.secondary else t.primary

/-- A 16-bit field as a signed number. -/
def signed16 (v : Nat) : Int := if v < 32768 then v else v - 65536

/-- The asymmetry correction of a port, in 1/4 lt (R315). DESIGN CHOICE (notes/assumptions/30.md): it is added to the measured offset. -/
def State.portAsym (s : State) (p : Nat) : Int := signed16 (portField (s.port p).entry 143 128)

/-- The log sync interval of a message; 0 for one that has none. -/
def logInterval : PtpMsg → Int
  | .sync _ i _ => i
  | .followUp _ | .delayResp _ => 0

/-- Is a PTP message accepted (R141, R315)? DESIGN CHOICE (notes/assumptions/30.md): one over another transport than the set one, or with
a log sync interval that is not supported, is not, and is a stranger. -/
def TimeKeeper.accepts (t : TimeKeeper) (port dom transport : Nat) (msg : PtpMsg) : Bool :=
  t.source == 1 && dom == t.domain && transport == t.transport && (port == t.primary || port == t.secondary) &&
  decide (-7 ≤ logInterval msg) && decide (logInterval msg ≤ 0)

/-- The measurement that a message makes on its port, none for a two-step Sync, which its Follow_Up times, and for a Follow_Up that no Sync
waits for (R141). DESIGN CHOICE (notes/assumptions/30.md): each other message is one measurement of R140. -/
def TimeKeeper.measured (t : TimeKeeper) (port : Nat) : PtpMsg → Option Int
  | .sync two _ o => if two then none else some o
  | .followUp o => if t.followDue.contains port then some o else none
  | .delayResp o => some o

/-- The Sync that came last on the port in use, and the ports whose Follow_Up is due (R141). -/
def TimeKeeper.heard (t : TimeKeeper) (port : Nat) : PtpMsg → TimeKeeper
  | .sync two i _ =>
    let due := t.followDue.filter (fun p => p != port)
    let t := { t with followDue := if two then due ++ [port] else due }
    if port = t.port then { t with syncLt := t.lt, syncLog := i } else t
  | .followUp _ => { t with followDue := t.followDue.filter (fun p => p != port) }
  | .delayResp _ => t

/-- PTP_MESSAGE_RECEIVE: a message on the port in use measures the offset; one on the other named port qualifies the secondary; any
other is a stranger (R140, R141, R315, R320). -/
def execPtpMessageReceive (port : Fin 48) (net : PtpNet) (msg : PtpMsg) (now : Nat) (s : State) : Out :=
  let s := s.advance now
  let t := s.time
  if !s.portUp port then .next s
  else if t.accepts port net.domain net.transport msg = false then .next (s.bump .netStrangerAddr (portDie port) 1)
  else
    let s := { s with time := t.heard port msg }
    let s := match msg with | .sync _ _ _ => s.bump .ptpSyncRx 0 1 | _ => s
    match t.measured port msg with
    | none => .next s
    | some o =>
      let o := o + s.portAsym port
      if port.val = t.port then .next (s.measure o)
      else .next { s with time := { s.time with secGood := within o 10 } }

/-- PTP_DELAY_REQ_SEND (R141, R315). -/
def execPtpDelayReqSend (now : Nat) (s : State) : Out :=
  let s := s.advance now
  let p := s.time.port
  if s.time.source = 1 ∧ s.portUp p = true then
    .next (s.sendFrame p none 64 .delayReq)
  else .next s

/-- The sync interval of the port in use, in lt (R141). -/
def TimeKeeper.syncInterval (t : TimeKeeper) : Nat := 10 ^ 9 / 2 ^ (-t.syncLog).toNat

/-- PTP_SYNC_LOSS: Sync has been missing for 3 intervals; a qualified secondary takes over, else LOCKED is left (R140, R141). -/
def execPtpSyncLoss (now : Nat) (s : State) : Out :=
  let s := s.advance now
  let t := s.time
  if t.source ≠ 1 ∨ t.lt < t.syncLt + 3 * t.syncInterval then .next s
  else if !t.onSecondary && t.secondary != 0xFF && t.secGood then
    .next { s with time := { t with onSecondary := true, secGood := false, syncLt := t.lt } }
  else .next s.loseSource

/-- The second boundary of the reference that is nearest to an instant, both in 1/4 lt from line time 0 (R142): the line time of the next
edge is known modulo one second. -/
def TimeKeeper.secondMark (t : TimeKeeper) (at4 : Nat) : Nat :=
  let sec := 4 * 10 ^ 9
  let base := 4 * t.ppsLt % sec
  (at4 + sec / 2 - base) / sec * sec + base

/-- PPS_EDGE: the rising edge of the 1PPS input marks a second boundary; what line time shows there less that boundary is a measurement of
the reference source (R140, R142). -/
def execPpsEdge (sub : Fin 4) (now : Nat) (s : State) : Out :=
  let s := s.advance now
  let t := s.time
  if t.source ≠ 2 then .next s
  else
    let at4 := 4 * t.lt + sub.val
    let mark := t.secondMark at4
    .next ({ s with time := { t with ppsLt := mark / 4 + 10 ^ 9 } }.measure ((at4 : Int) - mark))

/-- REFERENCE_LOSS (R140). -/
def execReferenceLoss (now : Nat) (s : State) : Out :=
  let s := s.advance now
  if s.time.source = 2 then .next s.loseSource else .next s

/-- HOLDOVER_EXPIRE: the holdover limit has passed (R140, R143, R144). -/
def execHoldoverExpire (now : Nat) (s : State) : Out :=
  let s := s.advance now
  if s.time.state = .holdover ∧ s.time.holdoverFrom + 1000000 * s.time.holdoverMs ≤ s.time.lt then .next (s.enterTime .lost)
  else .next s

/-- LINE_TIME_CORRECT: every 1,024 sc a Station compares its copy with the time signal; it works the difference off by at most 1/16 lt
per sc, and its copy never moves backward (R7, R145; `State.copy`). -/
def execLineTimeCorrect (p : Fin 136) (t : CopyTick) (s : State) : Out :=
  if !s.timeRuns || s.flash.retired.contains p.val then .next s
  else
    let s := s.advanceSc p t.sc
    if s.cycle p < (tget { err := 0, since := 0 } s.time.copies p).since + 1024 then .next s
    else .next { s with time := { s.time with copies := tset s.time.copies p { err := -t.err, since := s.cycle p } } }

end Sys2Proof.Machine
end

