-- ==== Sys2Proof/Machine/UpdateEngine.lean ====
section
/-! DEFINITION. The Schedule Engine (R360, R361) and the Update Engine's instructions (R354 to R357), as functions of the data
that a program reads. -/

namespace Sys2Proof.Machine

open Sys2Proof

/-- Schedule record (R360). -/
structure SchedRec where
  baseLr : Nat
  wd     : Nat
  floor  : Nat
  gamma  : Nat
  warmup : Nat
  period : Nat
  pmult  : Nat
  stepEvery : Nat
  decay  : Nat
  cosWarm : Bool
  restart : Bool
deriving DecidableEq, Repr

def SchedRec.ofNat (w : Nat) : SchedRec :=
  { baseLr := field w 255 224, wd := field w 223 192, floor := field w 191 160, gamma := field w 159 128,
    warmup := field w 127 104, period := field w 103 80, pmult := field w 79 72, stepEvery := field w 71 48,
    decay := field w 47 45, cosWarm := bit w 44, restart := bit w 43 }

/-- FP64 arithmetic under RNE (R361). -/
def f64 (x : Val) : Val := fp64Arith.round .rne x
def f64Add (x y : Val) : Val := f64 (Val.add false x y)
def f64Sub (x y : Val) : Val := f64 (Val.add false x y.neg)
def f64Mul (x y : Val) : Val := f64 (Val.mul x y)
def f64Div (x y : Val) : Val := f64 (Val.div 53 x y)

/-- π scaled by 2^320, from Machin's formula with 64 further bits. -/
def atanInv (q : Nat) : Nat → Nat → Nat → Int → Int
  | 0, _, _, acc => acc
  | fuel + 1, k, p, acc => atanInv q fuel (k + 1) (p / (q * q)) (acc + (if k % 2 = 0 then (p / (2 * k + 1) : Int) else -(p / (2 * k + 1) : Int)))

def piScaled : Int :=
  let one := 2 ^ 384
  let a := atanInv 5 170 0 (one / 5) 0
  let b := atanInv 239 60 0 (one / 239) 0
  (16 * a - 4 * b) / 2 ^ 64

/-- π as FP64 (R361). -/
def piF64 : Val := f64 (.fin false piScaled.toNat (-320))

/-- The cosine series at x, with x² scaled by 2^320. -/
def cosSeries (x2 : Nat) : Nat → Nat → Nat → Int → Int
  | 0, _, _, acc => acc
  | fuel + 1, k, t, acc =>
    cosSeries x2 fuel (k + 1) (t * x2 / 2 ^ 320 / ((2 * k + 1) * (2 * k + 2))) (acc + (if k % 2 = 0 then (t : Int) else -(t : Int)))

/-- The cosine of an angle between 0 and a little above π, rounded to FP64 from 320 fraction bits (R361): DEDUCED,
notes/assumptions/17.md. -/
def cosF64 : Val → Val
  | .fin s m e =>
    if m = 0 then .one
    else
      let v := Val.scaled (-330) (.fin s m (max e (-330)))
      let x := v.natAbs / 2 ^ 10
      let c := cosSeries (x * x / 2 ^ 320) 80 0 (2 ^ 320) 0
      f64 (.fin (decide (c < 0)) c.natAbs (-320))
  | _ => .nan

/-- A power of a value, exact; x^0 is 1. -/
def valPow : Val → Nat → Val
  | _, 0 => .one
  | .nan, _ => .nan
  | .inf s, n => .inf (s && n % 2 == 1)
  | .fin s m e, n => .fin (s && n % 2 == 1) (m ^ n) (e * n)

/-- The cycle of a schedule with restarts: u and L once u lies in it (R361). -/
def restartCycle (pmult : Nat) : Nat → Nat → Nat → Nat × Nat
  | 0, u, l => (u, l)
  | fuel + 1, u, l => if l ≤ u then restartCycle pmult fuel (u - l) (l * pmult) else (u, l)

def f64Nat (n : Nat) : Val := f64 (.fin false n 0)

/-- An FP32 field as FP64. -/
def f32Val (code : Nat) : Val := Elem.fp32.decode false code

/-- The multiplier m at t (R361). -/
def SchedRec.mult (r : SchedRec) (t : Nat) : Val :=
  if t < r.warmup then
    let x := f64Div (f64Nat (t + 1)) (f64Nat r.warmup)
    if r.cosWarm then f64Mul valHalf (f64Sub .one (cosF64 (f64Mul piF64 x))) else x
  else
    let u0 := t - r.warmup
    let (u, l) := if r.restart then
        (if r.pmult = 1 then (u0 % r.period, r.period) else restartCycle r.pmult 40 u0 r.period)
      else (u0, r.period)
    let f := f32Val r.floor
    let part := f64Nat (min u l)
    match r.decay with
    | 1 => f64Sub .one (f64Div (f64Mul (f64Sub .one f) part) (f64Nat l))
    | 2 =>
      let c := cosF64 (f64Div (f64Mul piF64 part) (f64Nat l))
      f64Add f (f64Mul (f64Mul (f64Sub .one f) valHalf) (f64Add .one c))
    | 3 => f64 (Val.sqrt 53 (f64Div (f64Nat l) (f64Nat (u + l))))
    | 4 => f64 (valPow (f32Val r.gamma) u)
    | 5 => f64 (valPow (f32Val r.gamma) (u / r.stepEvery))
    | _ => .one

/-- The FP32 code of a value, rounded once under RNE with the flush of R38; NaN is canonical (R37, R354). -/
def ueCode (v : Val) : Nat := (Elem.fp32.conv false .rne 0 v).code

/-- S0 to S3 of a unit of n elements (R361). -/
def SchedRec.scalars (r : SchedRec) (t n : Nat) : List Nat :=
  let m := r.mult t
  [ueCode (f64Mul (f32Val r.baseLr) m), ueCode (f64Mul (f64Mul (f32Val r.wd) (f32Val r.baseLr)) m),
   ueCode (.fin false (t + 1) 0), ueCode (.fin false n 0)]

/-- An Update Engine instruction (R355). -/
structure UeIns where
  op  : Nat
  d   : Nat
  a   : Nat
  b   : Nat
  c   : Nat
  imm : Nat
deriving DecidableEq, Repr

def UeIns.ofNat (w : Nat) : UeIns :=
  { op := field w 63 56, d := field w 55 50, a := field w 49 44, b := field w 43 38, c := field w 37 32, imm := field w 31 0 }

/-- A program as it runs: scalar instructions, and sweeps with their mode. -/
inductive UeItem where
  | scalar (i : UeIns)
  | sweep (mode : Nat) (body : List UeIns)
deriving DecidableEq, Repr

def ueVector (op : Nat) : Bool :=
  decide (1 ≤ op ∧ op ≤ 5) || decide (0x10 ≤ op ∧ op ≤ 0x23)
def ueScalar (op : Nat) : Bool := decide (0x30 ≤ op ∧ op ≤ 0x38)

/-- Are the scalar operands of an instruction below 32 (R355)? -/
def UeIns.scalarOk (i : UeIns) : Bool :=
  if i.op = 0x1D then decide (i.a < 32)
  else if i.op = 0x20 ∨ i.op = 0x21 then decide (i.d < 32)
  else if ueScalar i.op then
    decide (i.d < 32) && (i.op == 0x37 || decide (i.a < 32)) && (!decide (0x30 ≤ i.op ∧ i.op ≤ 0x35) || decide (i.b < 32))
  else true

/-- What a program's rules depend on: the unit's shape, its optimizer objects, and the bytes of each. -/
structure UeShape where
  rows : Nat
  cols : Nat
  nopt : Nat
  /-- Extent in bytes of optimizer object k in either buffer. -/
  extent : Nat → Nat

/-- Indices of a sweep (R355). -/
def UeShape.length (u : UeShape) : Nat → Nat
  | 0 => u.rows * u.cols
  | 1 => u.rows
  | _ => u.cols

/-- Words of scratch (R354). -/
def scratchWords : Nat := 262144

/-- Does a body instruction keep the rules of R356 in a sweep of this mode? -/
def UeIns.bodyOk (i : UeIns) (u : UeShape) (mode : Nat) : Bool :=
  let len := u.length mode
  i.scalarOk && (ueVector i.op || ueScalar i.op) &&
  (!(i.op == 2 || i.op == 3) || (decide (i.imm < u.nopt) && decide (4 * len ≤ u.extent i.imm))) &&
  (!(i.op == 4 || i.op == 5) || decide (i.imm + len ≤ scratchWords)) &&
  (!(i.op == 1 || i.op == 0x1E || i.op == 0x1F || i.op == 0x22 || i.op == 0x23) || mode == 0) &&
  (!(i.op == 0x1E || i.op == 0x22) || decide (i.imm + u.rows ≤ scratchWords)) &&
  (!(i.op == 0x1F || i.op == 0x23) || decide (i.imm + u.cols ≤ scratchWords))

/-- The program that starts a list of instructions; none where it breaks the rules of R356. -/
def ueParse (u : UeShape) : Nat → List UeIns → Option (List UeItem)
  | 0, _ => none
  | _ + 1, [] => none
  | fuel + 1, i :: rest =>
    if i.op = 0x41 then some []
    else if i.op = 0x40 then
      let n := i.imm / 256
      let mode := i.imm % 4
      let body := rest.take n
      if mode = 3 ∨ body.length < n ∨ !body.all (fun x => x.bodyOk u mode) then none
      else (ueParse u fuel (rest.drop n)).map (fun t => .sweep mode body :: t)
    else if ueScalar i.op && i.scalarOk then (ueParse u fuel rest).map (fun t => .scalar i :: t)
    else none

/-- What a program reads: the reduced gradient, and the optimizer objects of the read buffer, by element; t of R361. -/
structure UeEnv where
  shape : UeShape
  grad  : Nat → Nat
  opt   : Nat → Nat → Nat
  t     : Nat

/-- A run: the registers, the words written to the write buffer (object, element, code) in order, and the ACC48 shadows of the
sweep (R356). -/
structure UeRun where
  eng    : UpdateEngine
  writes : List (Nat × Nat × Nat)
  shadow : Table Val
  cycles : Nat

/-- A vector register that the running program has not written: free values (R30, R356; notes/assumptions/6.md). -/
def freeLanes (r : Nat) : List Nat := (List.range 512).map (fun l => (Config.freeVector r l).toNat)

def UpdateEngine.v (e : UpdateEngine) (r : Nat) : List Nat := tget (freeLanes r) e.vregs r
def UpdateEngine.s (e : UpdateEngine) (r : Nat) : Nat := tget 0 e.sregs r
def UpdateEngine.w (e : UpdateEngine) (i : Nat) : Nat := tget 0 e.scratch i
def UpdateEngine.setV (e : UpdateEngine) (r : Nat) (l : List Nat) : UpdateEngine := { e with vregs := tset e.vregs r l }
def UpdateEngine.setS (e : UpdateEngine) (r v : Nat) : UpdateEngine := { e with sregs := tset e.sregs r v }
def UpdateEngine.setW (e : UpdateEngine) (i v : Nat) : UpdateEngine := { e with scratch := tset e.scratch i v }

/-- The active lanes of a register become `l`; the others keep their values (R356). -/
def UpdateEngine.putLanes (e : UpdateEngine) (r : Nat) (l : List Nat) : UpdateEngine := e.setV r (l ++ (e.v r).drop l.length)

/-- The arithmetic of two operands: `VADD` to `VMIN`, and the scalar forms (R355). -/
def ueArith (k : Nat) (x y : Val) : Val :=
  match k with
  | 0 => Val.add false x y
  | 1 => Val.add false x y.neg
  | 2 => Val.mul x y
  | 3 => Val.div 24 x y
  | 4 => Val.max x y
  | _ => Val.min x y

/-- The arithmetic of one operand: `VSQRT`, `VRSQRT`, `VABS`, `VNEG`. -/
def ueUnary (k : Nat) (x : Val) : Val :=
  match k with
  | 0 => Val.sqrt 24 x
  | 1 => Val.rsqrt 24 x
  | 2 => x.abs
  | _ => x.neg

/-- One scalar instruction (R355). -/
def UpdateEngine.scalar (e : UpdateEngine) (t : Nat) (i : UeIns) : UpdateEngine :=
  let a := f32Val (e.s i.a)
  if i.op = 0x37 then e.setS i.d i.imm
  else if i.op = 0x38 then e.setS i.d (ueCode (valPow a (t + 1)))
  else if i.op = 0x36 then e.setS i.d (ueCode (Val.sqrt 24 a))
  else e.setS i.d (ueCode (ueArith (i.op - 0x30) a (f32Val (e.s i.b))))

/-- One instruction of a sweep's body for the strip of `m` indices from `base` (R355, R356). DESIGN CHOICE (notes/assumptions/31.md):
`LDO`, `STO`, `LDX`, `STX`, `VBC` and `VSEL` are no arithmetic and copy bits as they stand, a NaN's payload and a subnormal too
(R37, R38). -/
def UeRun.strip (x : UeRun) (env : UeEnv) (base m : Nat) (i : UeIns) : UeRun :=
  let e := x.eng
  let va := (e.v i.a).take m
  let vb := (e.v i.b).take m
  let vc := (e.v i.c).take m
  let ix := (List.range m).map (fun l => base + l)
  let put := fun (l : List Nat) => { x with eng := e.putLanes i.d l, cycles := x.cycles + 1 }
  let word := fun (n : Nat) => if i.op = 0x1E ∨ i.op = 0x22 then i.imm + n / env.shape.cols else i.imm + n % env.shape.cols
  if ueScalar i.op then { x with eng := e.scalar env.t i, cycles := x.cycles + 4 }
  else if i.op = 1 then put (ix.map env.grad)
  else if i.op = 2 then put (ix.map (env.opt i.imm))
  else if i.op = 3 then
    { x with writes := x.writes ++ (ix.zip va).map (fun q => (i.imm, q.1, q.2)), cycles := x.cycles + 1 }
  else if i.op = 4 then put (ix.map (fun n => e.w (i.imm + n)))
  else if i.op = 5 then { x with eng := (ix.zip va).foldl (fun e q => e.setW (i.imm + q.1) q.2) e, cycles := x.cycles + 1 }
  else if i.op ≤ 0x15 then put ((va.zip vb).map (fun q => ueCode (ueArith (i.op - 0x10) (f32Val q.1) (f32Val q.2))))
  else if i.op = 0x16 then
    put (((va.zip vb).zip vc).map (fun q =>
      ueCode (Val.add false (Val.mul (f32Val q.1.1) (f32Val q.1.2)) (f32Val q.2))))
  else if i.op ≤ 0x1A then put (va.map (fun q => ueCode (ueUnary (i.op - 0x17) (f32Val q))))
  else if i.op = 0x1B then
    put ((va.zip vb).map (fun q =>
      let p := f32Val q.1
      let r := f32Val q.2
      if !p.isNaN && !r.isNaN && Val.lt r p then ueCode .one else 0))
  else if i.op = 0x1C then put (((va.zip vb).zip vc).map (fun q => if (f32Val q.2).isZero then q.1.2 else q.1.1))
  else if i.op = 0x1D then put (List.replicate m (e.s i.a))
  else if i.op = 0x1E ∨ i.op = 0x1F then put (ix.map (fun n => e.w (word n)))
  else if i.op = 0x20 then
    let was := tget (f32Val (e.s i.d)) x.shadow i.d
    match treeFold redAdd 9 (va.map f32Val) with
    | some sum => { x with shadow := tset x.shadow i.d (redAdd was sum), cycles := x.cycles + 1 }
    | none => x
  else if i.op = 0x21 then
    { x with eng := e.setS i.d (ueCode ((va.map f32Val).foldl Val.max (f32Val (e.s i.d)))), cycles := x.cycles + 1 }
  else
    { x with eng := (ix.zip va).foldl (fun e q => e.setW (word q.1)
        (ueCode (Val.add false (f32Val (e.w (word q.1))) (f32Val q.2)))) e, cycles := x.cycles + 1 }

/-- A sweep: its body once for each strip of 512 indices, and the shadows rounded after it (R355, R356). -/
def UeRun.sweep (x : UeRun) (env : UeEnv) (mode : Nat) (body : List UeIns) : UeRun :=
  let len := env.shape.length mode
  let x := (List.range (ceilDiv len 512)).foldl (fun x k =>
    body.foldl (fun x i => x.strip env (512 * k) (min 512 (len - 512 * k)) i) x) x
  { x with eng := x.shadow.foldl (fun e q => e.setS q.1 (ueCode q.2)) x.eng, shadow := [] }

/-- A program from its start: scratch and the scalars are +0 but for S0 to S3, and no vector register has been written (R354). -/
def ueRun (eng : UpdateEngine) (env : UeEnv) (scalars : List Nat) (prog : List UeItem) : UeRun :=
  let e := { eng with scratch := [], sregs := [], vregs := [] }
  let e := (List.range 4).foldl (fun e i => e.setS i (scalars.getD i 0)) e
  prog.foldl (fun x it => match it with
    | .scalar i => { x with eng := x.eng.scalar env.t i, cycles := x.cycles + 4 }
    | .sweep mode body => x.sweep env mode body) { eng := e, writes := [], shadow := [], cycles := 0 }

end Sys2Proof.Machine
end

