-- ==== Sys2Proof/Machine/Collectives.lean ====
section
/-! DEFINITION. Collectives (13_collectives_and_update_engine.md): units and members, contributions and their encodings, stage
closes, gathers, the runs of the Update Engine, and the Right-away. -/

namespace Sys2Proof.Machine

open Sys2Proof

/-- Is a member a holder of a unit (R339)? `g` is the group size. -/
def UnitDesc.heldBy (u : UnitDesc) (g rank : Nat) : Bool := rank % g % u.holdMod == u.owner % g % u.holdMod

/-- The group owner of a unit in the group of a member (R339). -/
def UnitDesc.groupOwner (u : UnitDesc) (g rank : Nat) : Nat := rank / g * g + u.owner % g

/-- Members of a job (R337). -/
def Binding.members (b : Binding) : Nat := b.g * b.k

/-- The group of a member, as ranks in ascending order. -/
def Binding.group (b : Binding) (rank : Nat) : List Nat := (List.range b.g).map (fun r => rank / b.g * b.g + r)

/-- The distance between a rank and its holders (R412). -/
def Binding.stride (b : Binding) : Nat := if b.rho < b.k then b.g else 1

/-- The rank that holds replica i of this member (R412). -/
def Binding.holder (b : Binding) (i : Nat) : Nat := (b.jobRank + i * b.stride) % b.members

/-- The rank whose shard this member holds as its replica i (R412). -/
def Binding.wardOf (b : Binding) (i : Nat) : Nat := (b.jobRank + i * (b.members - b.stride)) % b.members

/-- Replica numbers in use. -/
def Binding.replicaIx (b : Binding) : List Nat := (List.range b.rho).map (fun i => i + 1)

/-- Ranks whose shards this member holds (R412). -/
def Binding.wards (b : Binding) : List Nat := b.replicaIx.map b.wardOf

/-- The context whose collectives `coll` holds and the module runs, with its image and binding. -/
def State.job (s : State) : Option (Nat × Image × Binding) :=
  match s.workSlot with
  | none => none
  | some c => if s.collSlot ≠ some c then none else match (s.slot c).image, (s.slot c).binding with
    | some img, some b => some (c, img, b)
    | _, _ => none

/-- E of the step in progress (R358). -/
def State.stepEpoch (s : State) (c : Nat) : Nat := ((s.slot c).step.committed + 1) % 2 ^ 32

/-- The flow that reaches a job rank (R337). -/
def State.flowTo (s : State) (b : Binding) (rank : Nat) : Option Nat := b.flows.find? (fun f => (s.flow f).peerRank == rank)

/-! ## Elements of unit objects -/

/-- Where element (r, c) of a `TILE` object lies: byte of its record's row, first bit in it, byte of its scale (R46, R47,
R339). -/
def elemPlace (d : ObjDesc) (f : Fmt) (r c : Nat) : Nat × Nat × Nat :=
  let off := (r / 256 * d.cols + c / 256) * f.recordBytes
  (off + r % 256 * f.rowBytes, f.elem.bits * (c % 256), off + 256 * f.rowBytes + r % 256 * f.blocks + c % 256 / f.block)

/-- Codes of element (r, col) of a `TILE` object of context c and of its scale (0 without one), and its poison. -/
def State.tileCode (s : State) (c : Nat) (d : ObjDesc) (f : Fmt) (r col : Nat) : Nat × Nat × Bool :=
  let (row, bit0, sc) := elemPlace d f r col
  let a := row + bit0 / 8
  let n := (bit0 + f.elem.bits - 1) / 8 + 1 - bit0 / 8
  let code := leNat (s.objRead c d.object a n) / 2 ^ (bit0 % 8) % 2 ^ f.elem.bits
  let bad := s.objPoison c d.object a n != []
  if f.isMx then (code, leNat (s.objRead c d.object sc 1), bad || s.objPoison c d.object sc 1 != []) else (code, 0, bad)

/-- Element (r, col) of a `TILE` object of context c, with its poison. -/
def State.tileElem (s : State) (c : Nat) (d : ObjDesc) (f : Fmt) (r col : Nat) : PVal :=
  let q := s.tileCode c d f r col
  (if f.isMx then mxValue f.elem q.2.1 q.1 else f.elem.decode false q.1, q.2.2)

/-- An element of a `TILE` object is written, with its block's scale (R339, R485). -/
def State.tilePut (s : State) (c : Nat) (d : ObjDesc) (f : Fmt) (r col code scale : Nat) (bad : Bool) : State :=
  let (row, bit0, sc) := elemPlace d f r col
  let a := row + bit0 / 8
  let n := (bit0 + f.elem.bits - 1) / 8 + 1 - bit0 / 8
  let old := leNat (s.objRead c d.object a n)
  let sh := bit0 % 8
  let kept := old % 2 ^ sh + old / 2 ^ (sh + f.elem.bits) * 2 ^ (sh + f.elem.bits)
  let s := s.objWrite c d.object a (leBytes n (kept + code * 2 ^ sh)) (fun _ => bad)
  if f.isMx then s.objWrite c d.object sc [BitVec.ofNat 8 scale] (fun _ => bad) else s

/-- The bits of span (first bit, bits) that lie in granule g. -/
def spanIn (g : Nat) (q : Nat × Nat) : Nat := min (q.1 + q.2) (512 * (g + 1)) - max q.1 (512 * g)

/-- After pieces have been written to an object, each granule that they replace in full takes the poison of what they wrote (R485);
`spans`: first bit, bits and poison of each piece. -/
def State.wholeGranules (s : State) (c object : Nat) (spans : List (Nat × Nat × Bool)) : State :=
  (spans.flatMap (fun q => granulesOf (q.1 / 8) (ceilDiv (q.1 % 8 + q.2.1) 8))).eraseDups.foldl (fun s g =>
    let mine := spans.filter (fun q => decide (0 < spanIn g (q.1, q.2.1)))
    let bits := ((mine.map (fun q => (q.1, q.2.1))).eraseDups.map (spanIn g)).sum
    if bits = 512 && !mine.any (fun q => q.2.2) then s.objWrite c object (64 * g) (s.objRead c object (64 * g) 64) (fun _ => false)
    else s) s

/-- Where an element of a `TILE` object and its block's scale lie. -/
def elemSpans (d : ObjDesc) (f : Fmt) (r col : Nat) (bad : Bool) : List (Nat × Nat × Bool) :=
  let (row, bit0, sc) := elemPlace d f r col
  (8 * row + bit0, f.elem.bits, bad) :: (if f.isMx then [(8 * sc, 8, bad)] else [])

/-- The pages of an object's bytes receive an `EPOCH` (R266, R358, R359). -/
def State.stampPages (s : State) (c object a n epoch : Nat) : State :=
  match s.mapBase c object with
  | none => s
  | some base => (chunksOf a n).foldl (fun s q =>
      s.setEntry (base + q.1) { s.mapEntry (base + q.1) with epoch := epoch }) s

/-- A converted element: index, code, scale code of its block, poison. -/
structure OutElem where
  ix    : Nat
  code  : Nat
  scale : Nat
  bad   : Bool

/-- Elements of a matrix of `cols` columns are written to a `TILE` object (R339, R485). -/
def State.tilePutAll (s : State) (c : Nat) (d : ObjDesc) (f : Fmt) (cols : Nat) (es : List OutElem) : State :=
  (es.foldl (fun s e => s.tilePut c d f (e.ix / cols) (e.ix % cols) e.code e.scale e.bad) s).wholeGranules c d.object
    (es.flatMap (fun e => elemSpans d f (e.ix / cols) (e.ix % cols) e.bad))

/-- The conversion of a matrix into a format, blocks of MX along its rows (R55, R57): elements, and events for R56. DESIGN CHOICE
(notes/assumptions/31.md): a collective has no `ISAT` bit, and an integer `WORK_FMT` wraps (R42, R338). -/
def convMatrix (f : Fmt) (mode : Round) (rnd : Nat → Nat) (rows cols : Nat) (val : Nat → PVal) : List OutElem × Nat × Nat :=
  let width := if f.isMx then f.block else 256
  let parts := (List.range rows).flatMap (fun r => (List.range (ceilDiv cols width)).map (fun b =>
    let ixs := (List.range (min width (cols - width * b))).map (fun j => r * cols + width * b + j)
    let xs := ixs.map val
    let rs := ixs.map (fun i => if mode = .rsr then rnd i else 0)
    if f.isMx then
      let q := convBlock f.elem mode rs (xs.map (fun x => x.1))
      let bad := xs.any (fun x => x.2)
      ((ixs.zip q.2).map (fun p => ({ ix := p.1, code := p.2.code, scale := q.1, bad := bad } : OutElem)), q.2)
    else
      let cs := (xs.zip rs).map (fun q => f.elem.conv false mode q.2 q.1.1)
      (((ixs.zip cs).zip xs).map (fun p =>
        ({ ix := p.1.1, code := p.1.2.code, scale := 0, bad := p.2.2 } : OutElem)), cs)))
  let cs := parts.flatMap (fun p => p.2)
  (parts.flatMap (fun p => p.1), (cs.filter (fun x => x.sat)).length, (cs.filter (fun x => x.nan)).length)

/-- Word i of a `LINEAR` FP32 object, with its poison. -/
def State.wordElem (s : State) (c object i : Nat) : Nat × Bool :=
  (leNat (s.objRead c object (4 * i) 4), s.objPoison c object (4 * i) 4 != [])

/-- FP32 words written to a `LINEAR` object from byte `a`; `bad` tells of the words. -/
def State.wordsWrite (s : State) (c object a : Nat) (codes : List Nat) (bad : List Nat) : State :=
  s.objWrite c object a (codes.flatMap (leBytes 4)) ((bad.map (fun i => (a + 4 * i) / 64)).contains)

/-! ## Chunk encodings -/

/-- The element format of `WIRE_FMT` (R340). -/
def wireElem (wire : Nat) : Elem := if wire = 1 then .bf16 else .fp32

/-- A value in `WIRE_FMT` under RNE (R345). -/
def wireCode (wire : Nat) (v : Val) : Nat := ((wireElem wire).conv false .rne 0 v).code

def wireVal (wire code : Nat) : Val := (wireElem wire).decode false code

/-- Bytes padded with zeros to a multiple of 64 (R349). -/
def padGran (bs : List Byte) : List Byte := bs ++ List.replicate (roundUp bs.length 64 - bs.length) 0

/-- Does value i rank above value j for `TOPK` (R350)? -/
def topAbove (es : List Val) (i j : Nat) : Bool :=
  let a := (es.getD i .zero).abs
  let b := (es.getD j .zero).abs
  if a.isNaN || b.isNaN then a.isNaN && (!b.isNaN || decide (i < j))
  else Val.lt b a || (!Val.lt a b && decide (i < j))

/-- The indices that `TOPK` lists (R350). -/
def topIndices (k : Nat) (es : List Val) : List Nat :=
  (List.range es.length).filter (fun i =>
    decide (((List.range es.length).filter (fun j => j != i && topAbove es j i)).length < k))

/-- The scale of `SIGN` (R350). -/
def signScale (es : List Val) : Nat :=
  match es.map (fun e => acc48Arith.round .rne e.abs) with
  | [] => 0
  | a :: t => ueCode (Val.div 24 (t.foldl redAdd a) (.fin false es.length 0))

/-- Is the sign bit sent for a value (R350)? -/
def signBit (e : Val) : Bool := !e.isNaN && !e.isZero && e.sign

/-- A chunk's body (R349, R350). -/
def encodeChunk (wire comp k : Nat) (es : List Val) : List Byte :=
  let w := (wireElem wire).bits / 8
  match comp with
  | 1 =>
    let ix := topIndices k es
    padGran (ix.flatMap (leBytes 2) ++ ix.flatMap (fun i => leBytes w (wireCode wire (es.getD i .zero))))
  | 2 => padGran (leBytes 512 (packCodes 1 (es.map (fun e => if signBit e then 1 else 0))) ++ leBytes 4 (signScale es))
  | _ => padGran (es.flatMap (fun e => leBytes w (wireCode wire e)))

/-- Bytes of the body of a chunk of m elements. -/
def chunkBytes (wire comp k m : Nat) : Nat :=
  let w := (wireElem wire).bits / 8
  match comp with
  | 1 => roundUp (min k m * (2 + w)) 64
  | 2 => 576
  | _ => roundUp (m * w) 64

/-- The values that a body of m elements decodes to (R349). -/
def decodeChunk (wire comp k m : Nat) (bs : List Byte) : List Val :=
  let w := (wireElem wire).bits / 8
  match comp with
  | 1 =>
    let n := min k m
    (List.range m).map (fun i =>
      match (List.range n).find? (fun j => leAt bs (2 * j) 2 == i) with
      | some j => wireVal wire (leAt bs (2 * n + w * j) w)
      | none => .zero)
  | 2 =>
    let scale := f32Val (leAt bs 512 4)
    (List.range m).map (fun i => if bit (leAt bs (i / 8) 1) (i % 8) then scale.neg else scale)
  | _ => (List.range m).map (fun i => wireVal wire (leAt bs (w * i) w))

/-- Poisoned elements of a body, by its poisoned granules. In a compressed chunk, poison reaches every element, since each may
depend on it. -/
def chunkPoison (wire comp m : Nat) (bad : List Nat) : List Nat :=
  if bad = [] then []
  else if comp = 0 then (List.range m).filter (fun i => bad.contains ((wireElem wire).bits / 8 * i / 64))
  else List.range m

/-! ## Messages -/

/-- The collective header (R347). -/
structure CollHdr where
  epoch  : Nat
  coll   : Nat
  sect   : Nat
  unit   : Nat
  chunk  : Nat
  nchunk : Nat
  sender : Nat
  stage  : Nat
  comp   : Nat
  wire   : Nat
  late   : Nat
deriving DecidableEq, Repr

def CollHdr.word (h : CollHdr) : Nat :=
  place h.epoch 480 + place h.coll 464 + place h.sect 448 + place h.unit 428 + place (h.chunk % 2 ^ 24) 404 +
  place (h.nchunk - 1) 396 + place h.sender 380 + place h.stage 377 + place h.comp 375 + place h.wire 367 +
  place (stick (ones 24) h.late) 343 + place (h.chunk / 2 ^ 24) 327

def CollHdr.ofNat (w : Nat) : CollHdr :=
  { epoch := field w 511 480, coll := field w 479 464, sect := field w 463 448, unit := field w 447 428,
    chunk := field w 427 404 + 2 ^ 24 * field w 342 327, nchunk := field w 403 396 + 1, sender := field w 395 380,
    stage := field w 379 377, comp := field w 376 375, wire := field w 374 367, late := field w 366 343 }

/-- A collective message is handed to the flow of a peer (R324, R347); answers flow and message number. -/
def State.sendColl (s : State) (b : Binding) (rank : Nat) (h : CollHdr) (body : List Byte) (poison : List Nat) (sect : Nat) :
    State × Option (Nat × Nat) :=
  match s.flowTo b rank with
  | none => (s, none)
  | some f =>
    let r := s.sendMessage f (leBytes 64 h.word ++ body) (poison.map (fun g => g + 1)) sect
    (r.1.bump .collMsgTx (flowDie f) 1, some (f, r.2))

/-- The runs of at most 256 chunks in which a unit travels (R347). -/
def UnitDesc.spans (u : UnitDesc) : List (Nat × Nat) :=
  (List.range (ceilDiv u.chunks 256)).map (fun i => (256 * i, min 256 (u.chunks - 256 * i)))

/-- The poisoned granules of a body: those that hold bytes of poisoned elements, or all of a compressed chunk. -/
def bodyPoison (wire comp : Nat) (bytes : Nat) (bad : List Bool) : List Nat :=
  if !bad.any id then []
  else if comp = 0 then
    ((List.range bad.length).filter (fun i => bad.getD i false)).map (fun i => (wireElem wire).bits / 8 * i / 64)
  else List.range (bytes / 64)

/-- Has the message that h heads gone to a peer, and has its flow kept it (R409)? -/
def State.sentTo (s : State) (b : Binding) (rank : Nat) (h : CollHdr) : Bool :=
  match s.flowTo b rank with
  | some f => s.coll.sending.any (fun x =>
      x.coll == h.coll && x.unit == h.unit && x.stage == h.stage && x.chunk == h.chunk && x.flow == f)
  | none => false

/-- A message with chunks of a unit goes to a peer, unless it has gone already (R345, R409). -/
def State.sendSpan (s : State) (b : Binding) (rank : Nat) (h : CollHdr) (body : List Byte) (poison : List Nat) (sect : Nat) : State :=
  if s.sentTo b rank h then s
  else
    let r := s.sendColl b rank h body poison sect
    match r.2 with
    | some m => r.1.setColl { r.1.coll with sending := r.1.coll.sending ++
        [{ coll := h.coll, unit := h.unit, stage := h.stage, chunk := h.chunk, flow := m.1, msg := m.2 }] }
    | none => r.1

/-- A unit's values are sent to a peer, chunk by chunk encoded; `vals` gives element i. What has gone already is not sent again
(R409). -/
def State.sendUnit (s : State) (b : Binding) (rank : Nat) (h : CollHdr) (u : UnitDesc) (k sect : Nat) (vals : Nat → PVal) : State :=
  (u.spans.filter (fun sp => !s.sentTo b rank { h with chunk := sp.1 })).foldl (fun s sp =>
    let parts := (List.range sp.2).map (fun i =>
      let es := (List.range (u.chunkLen (sp.1 + i))).map (fun j => vals (4096 * (sp.1 + i) + j))
      let bs := encodeChunk h.wire h.comp k (es.map (fun e => e.1))
      (bs, bodyPoison h.wire h.comp bs.length (es.map (fun e => e.2))))
    let laid := parts.foldl (fun (a : List Byte × List Nat) p => (a.1 ++ p.1, a.2 ++ p.2.map (fun g => g + a.1.length / 64))) ([], [])
    s.sendSpan b rank { h with chunk := sp.1, nchunk := sp.2 } laid.1 laid.2.eraseDups sect) s

/-- Is a message in the books of its flow (R330)? -/
def Flow.holds (fl : Flow) (msg : Nat) : Bool := fl.out.any (fun m => m.num == msg) || fl.sent.any (fun x => x.msg == msg)

/-- Has a message left the books of its flow, acknowledged (R330); or is the flow failed (R417)? -/
def State.acked (s : State) (f msg : Nat) : Bool := (s.flow f).state == 3 || !(s.flow f).holds msg

/-! ## Contributions -/

/-- The values of this member's contribution to a unit, as FP32 (R345). -/
def State.contribVals (s : State) (c : Nat) (img : Image) (d : CollDesc) (u : UnitDesc) (i : Nat) : PVal :=
  match img.obj u.grad with
  | none => (.zero, false)
  | some o => match Fmt.ofDesc o.desc with
    | none => (.zero, false)
    | some f =>
      let e := s.tileElem c o f (i / u.cols) (i % u.cols)
      (wireVal d.wire (wireCode d.wire e.1), e.2)

/-- e of R348: the contribution with the residual of the buffer that the step reads. -/
def State.residVals (s : State) (c : Nat) (u : UnitDesc) (vals : Nat → PVal) (i : Nat) : PVal :=
  let w := s.wordElem c (u.resid + (s.stepEpoch c + 1) % 2) i
  (Val.add false (vals i).1 (f32Val w.1), (vals i).2 || w.2)

/-- The new residual of a unit is written (R348). -/
def State.writeResid (s : State) (c : Nat) (d : CollDesc) (u : UnitDesc) (es : Nat → PVal) : State :=
  let object := u.resid + s.stepEpoch c % 2
  (List.range u.chunks).foldl (fun s k =>
    let m := u.chunkLen k
    let e := (List.range m).map (fun j => es (4096 * k + j))
    let hat := decodeChunk d.wire d.comp d.topk m (encodeChunk d.wire d.comp d.topk (e.map (fun x => x.1)))
    let bad := if e.any (fun x => x.2) then List.range m else []
    s.wordsWrite c object (4 * 4096 * k) ((e.zip hat).map (fun q => ueCode (Val.add false q.1.1 q.2.neg))) bad) s

/-- Is this the contribution of the same member to the same sum? -/
def Contrib.same (x : Contrib) (epoch coll unit stage sender : Nat) : Bool :=
  x.epoch == epoch && x.coll == coll && x.unit == unit && x.stage == stage && x.sender == sender

def Contrib.init (epoch coll unit stage sender : Nat) : Contrib :=
  { epoch := epoch, coll := coll, unit := unit, stage := stage, sender := sender, got := [], vals := [], poison := [], late := 0,
    passed := false }

/-- Chunks with their values join a contribution. -/
def Contrib.join (x : Contrib) (chunks : List Nat) (vals : List (Nat × Nat)) (poison : List Nat) (late : Nat) : Contrib :=
  { x with got := chunks.foldl numInsert x.got, vals := vals.foldl (fun t q => tset t q.1 q.2) x.vals,
           poison := poison.foldl numInsert x.poison, late := late }

/-- Element i of a contribution. -/
def Contrib.val (x : Contrib) (i : Nat) : Val := f32Val (tget 0 x.vals i)

/-- A late contribution is held for `FOLD` (R353). -/
def State.holdLate (s : State) (die : Nat) (x : Contrib) : State :=
  (s.setColl { s.coll with folds := s.coll.folds ++ [x] }).stragWrite die (stragRecord x 0 x.late)

/-- A late contribution has arrived whole: the late-contributions policy decides (R353). One that comes after a close of the next
step waits for that step's Right-away. -/
def State.lateArrived (s : State) (die : Nat) (x : Contrib) : State :=
  if x.passed then s
  else
    let s := s.setColl { s.coll with late := s.coll.late.filter (fun y => y != x) }
    if s.policies.drop then s.dropLate die x 1 x.late else s.holdLate die x

/-! ## Closes and logs -/

/-- Byte offsets of the fold sum and of the chunk bitmap in a log, and the bitmap's bytes (R342). -/
def UnitDesc.foldAt (u : UnitDesc) : Nat := roundUp (4 * u.size) 64
def UnitDesc.bitmapAt (u : UnitDesc) : Nat := 2 * u.foldAt

/-- A sum in ACC48 arithmetic, from the first value on (R346). -/
def accSum : List Val → Option Val
  | [] => none
  | x :: t => some (t.foldl redAdd (acc48Arith.round .rne x))

/-- The job for the Update Engine enters its queue: the order of completion, and ascending unit number within one instant
(R354). -/
def ueInsert : List UeJob → UeJob → List UeJob
  | [], j => [j]
  | x :: t, j => if j.lt < x.lt ∨ (j.lt = x.lt ∧ j.unit < x.unit) then j :: x :: t else x :: ueInsert t j

def State.engine (s : State) (die : Nat) : UpdateEngine := tget UpdateEngine.init s.coll.engines die

def State.setEngine (s : State) (die : Nat) (e : UpdateEngine) : State :=
  s.setColl { s.coll with engines := tset s.coll.engines die e }

def State.queueUnit (s : State) (die unit : Nat) (rank : Option Nat) : State :=
  let e := s.engine die
  s.setEngine die { e with queue := ueInsert e.queue { lt := s.time.lt, unit := unit, rank := rank } }

/-- This member's header for a collective in the step in progress. -/
def State.collHdr (s : State) (c : Nat) (b : Binding) (d : CollDesc) (id unit stage : Nat) : CollHdr :=
  let w := match s.coll.runs.find? (fun r => r.id == id) with | some r => r.w | none => 0
  { epoch := s.stepEpoch c, coll := id, sect := d.sect, unit := unit, chunk := 0, nchunk := 1, sender := b.jobRank, stage := stage,
    comp := 0, wire := d.wire, late := w }

/-- Reduced values are rounded to FP32 and written to the log, whose chunk bitmap fills; the log is then complete (R346, R341):
a `REDUCE_SCATTER` writes its sum into `GRAD_OBJ`, an `EXCHANGE` mirrors the log (R367) and queues the unit (R354). -/
def State.completeLog (s : State) (c : Nat) (img : Image) (b : Binding) (id unit : Nat) (sum : Nat → PVal) : State :=
  let d := img.coll id
  let u := img.unit unit
  let n := u.size
  let vals := (List.range n).map sum
  let codes := vals.map (fun v => ueCode v.1)
  let bad := (List.range n).filter (fun i => (vals.getD i (.zero, false)).2)
  let s := s.wordsWrite c u.log 0 codes bad
  let s := s.objWrite c u.log u.bitmapAt (leBytes (roundUp (ceilDiv u.chunks 8) 64) (2 ^ u.chunks - 1)) (fun _ => false)
  let s := s.setColl { s.coll with logged := numInsert s.coll.logged unit }
  if d.kind = 0 then
    match img.obj u.grad with
    | none => s
    | some o => match Fmt.ofDesc o.desc with
      | none => s
      | some f =>
        let r := convMatrix f .rne (fun _ => 0) u.rows u.cols (fun i => (f32Val (codes.getD i 0), bad.contains i))
        let s := s.tilePutAll c o f u.cols r.1
        (s.bump .ueConvertSat u.die r.2.1).bump .ueConvertNan u.die r.2.2
  else
    let h := { s.collHdr c b d id unit 5 with wire := 0 }
    let s := b.replicaIx.foldl (fun s i =>
      s.sendUnit b (b.holder i) h u 0 noSect (fun e => (f32Val (codes.getD e 0), bad.contains e))) s
    s.queueUnit u.die unit none

/-- Epoch of a collective's section (R351): as its `COLL` found it, as the running section has it, or as planned. -/
def State.collEpoch (s : State) (c : Nat) (img : Image) (id : Nat) : Option Nat :=
  match s.coll.runs.find? (fun r => r.id == id), (s.slot c).run with
  | some r, _ => some r.epochLt
  | none, some run =>
    let x := (img.coll id).sect
    if run.sect = x then some run.sectEpoch else some (run.epoch + (img.sect x).epochPlan)
  | none, none => none

/-- Where an element goes in a list that rises by a key, after those of its own key. -/
def insertBy {α : Type} (key : α → Nat) : List α → α → List α
  | [], x => [x]
  | y :: t, x => if key x < key y then x :: y :: t else y :: insertBy key t x

/-- A list in rising order of a key. -/
def sortBy {α : Type} (key : α → Nat) (l : List α) : List α := l.foldl (insertBy key) []

/-- At a close of a unit's stage, what was held for `FOLD` is taken, or dropped under `DROP`, and contributions still missing from
earlier steps pass their last close (R353). Answers the contributions to fold, in ascending sender rank. -/
def State.takeFolds (s : State) (die unit stage : Nat) : State × List Contrib :=
  let mine := fun (x : Contrib) => x.unit == unit && x.stage == stage
  let held := s.coll.folds.filter mine
  let s := s.setColl { s.coll with
    folds := s.coll.folds.filter (fun x => !mine x)
    late := s.coll.late.map (fun x => if mine x then { x with passed := true } else x) }
  if s.policies.drop then (held.foldl (fun s x => s.dropLate die x 2 x.late) s, [])
  else
    let s := s.setColl { s.coll with used := s.coll.used ++ held, folded := s.coll.folded + held.length }
    (s.bump .collFolded die held.length, sortBy (fun x => x.sender) held)

/-- The members of a unit's stage that are missing at its close become late (R351, R353). -/
def State.markLate (s : State) (e id unit stage : Nat) (u : UnitDesc) (senders : List Nat) : State :=
  senders.foldl (fun s r =>
    match s.coll.arrivals.find? (fun x => x.same e id unit stage r) with
    | some x => if x.full u then s else s.setColl { s.coll with late := s.coll.late ++ [x] }
    | none => s.setColl { s.coll with late := s.coll.late ++ [Contrib.init e id unit stage r] }) s

/-- The on-time values of element i in ascending rank, a missing contribution standing as zero (R346, R352). -/
def onTimeVals (cs : List (Option Contrib)) (i : Nat) : List Val :=
  cs.map (fun x => match x with | some y => y.val i | none => .zero)

/-- A closed sum: the on-time sum, and the fold sum after it where one exists (R346, R353). -/
def closedSum (base folds : List Val) : Val :=
  match accSum base, accSum folds with
  | some a, some f => redAdd a f
  | some a, none => a
  | none, some f => f
  | none, none => .zero

/-- The fold sum of a unit, in FP32 at its place in the log (R342). -/
def State.writeFoldSum (s : State) (c : Nat) (u : UnitDesc) (folds : List Contrib) : State :=
  if folds = [] then s
  else s.wordsWrite c u.log u.foldAt
    ((List.range u.size).map (fun i => ueCode ((accSum (folds.map (fun x => x.val i))).getD .zero)))
    ((List.range u.size).filter (fun i => folds.any (fun x => x.poison.contains i)))

/-- A stage may close at this member (R351): its role, and the instant. -/
def State.mayClose (s : State) (c : Nat) (img : Image) (b : Binding) (id unit : Nat) (stage : Fin 2) : Bool :=
  let d := img.coll id
  let u := img.unit unit
  decide (id < img.collCount) && d.kind != 1 && decide (d.unitBase ≤ unit ∧ unit < d.unitBase + d.unitCount) &&
  !s.coll.cut.contains d.sect &&
  (match s.collEpoch c img id with
   | some e => decide (e + (if stage = 0 then d.due1 else d.due2) + d.straggle ≤ s.time.lt)
   | none => false) &&
  (if stage = 0 then u.groupOwner b.g b.jobRank == b.jobRank && !s.coll.groupSums.any (fun q => q.1 == unit)
   else d.hier && decide (1 < b.k) && u.owner == b.jobRank && !s.coll.logged.contains unit &&
     s.coll.groupSums.any (fun q => q.1 == unit))

/-- Does the group owner of a unit on this member send its group sum to the final owner (R345)? -/
def CollDesc.sendsSum (d : CollDesc) (b : Binding) (u : UnitDesc) : Bool := d.hier && decide (1 < b.k) && u.owner != b.jobRank

/-- The group sum of a unit whose stage 1 has closed goes to the final owner, as far as it has not gone (R345, R409). -/
def State.sendGroupSum (s : State) (c : Nat) (img : Image) (b : Binding) (id unit : Nat) : State :=
  let d := img.coll id
  let u := img.unit unit
  match s.coll.groupSums.find? (fun q => q.1 == unit) with
  | some q =>
    if d.sendsSum b u then
      s.sendUnit b u.owner (s.collHdr c b d id unit 1) u 0 d.sect (fun i =>
        (Elem.acc48.decode false (q.2.codes.getD i 0), q.2.poison.contains i))
    else s
  | none => s

/-- The close of stage 1 at a group owner (R345, R346, R351). -/
def State.closeStage1 (s : State) (c : Nat) (img : Image) (b : Binding) (id unit : Nat) : State :=
  let d := img.coll id
  let u := img.unit unit
  let e := s.stepEpoch c
  let senders := (b.group b.jobRank).filter (u.heldBy b.g)
  let cs := senders.map (fun r => s.coll.arrivals.find? (fun x => x.same e id unit 0 r && x.full u))
  let r := s.takeFolds u.die unit 0
  let s := (r.1.markLate e id unit 0 u senders).writeFoldSum c u r.2
  let vals := (List.range u.size).map (fun i => closedSum (onTimeVals cs i) (r.2.map (fun x => x.val i)))
  let bad := (List.range u.size).filter (fun i =>
    cs.any (fun x => match x with | some y => y.poison.contains i | none => false) || r.2.any (fun x => x.poison.contains i))
  let g : GroupSum := { codes := vals.map (accCode .acc48), poison := bad }
  let s := s.setColl { s.coll with groupSums := tset s.coll.groupSums unit g }
  if d.hier && decide (1 < b.k) then s.sendGroupSum c img b id unit
  else s.completeLog c img b id unit (fun i => (vals.getD i .zero, bad.contains i))

/-- The close of stage 2 at the final owner (R345, R346, R351). -/
def State.closeStage2 (s : State) (c : Nat) (img : Image) (b : Binding) (id unit : Nat) : State :=
  let u := img.unit unit
  let e := s.stepEpoch c
  let owners := (List.range b.k).map (fun g => g * b.g + u.owner % b.g)
  let own := tget { codes := [], poison := [] } s.coll.groupSums unit
  let cs := owners.map (fun r => (r, s.coll.arrivals.find? (fun x => x.same e id unit 1 r && x.full u)))
  let r := s.takeFolds u.die unit 1
  let s := (r.1.markLate e id unit 1 u (owners.filter (fun x => x != b.jobRank))).writeFoldSum c u r.2
  let at' := fun (i : Nat) (q : Nat × Option Contrib) =>
    if q.1 = b.jobRank then Elem.acc48.decode false (own.codes.getD i 0)
    else match q.2 with | some x => x.val i | none => .zero
  s.completeLog c img b id unit (fun i =>
    (closedSum (cs.map (at' i)) (r.2.map (fun x => x.val i)),
     own.poison.contains i || cs.any (fun q => match q.2 with | some x => x.poison.contains i | none => false) ||
       r.2.any (fun x => x.poison.contains i)))

/-! ## Right-away: votes, results, completion -/

/-- The commit record (R363). -/
def VoteRec.word (v : VoteRec) (epoch : Nat) : Nat :=
  place v.firstBad 160 + place (stick (ones 32) v.badCount) 128 + place (stick (ones 32) v.dropped) 96 +
  place (stick (ones 32) v.folded) 64 + place epoch 32 + v.result

def VoteRec.ofNat (rank w : Nat) : VoteRec :=
  { rank := rank, result := field w 31 0, firstBad := field w 175 160, badCount := field w 159 128, dropped := field w 127 96,
    folded := field w 95 64 }

/-- Two records combined (R364). -/
def VoteRec.combine (a b : VoteRec) : VoteRec :=
  { rank := a.rank, result := max a.result b.result, firstBad := min a.firstBad b.firstBad,
    badCount := stick (ones 32) (a.badCount + b.badCount), dropped := stick (ones 32) (a.dropped + b.dropped),
    folded := stick (ones 32) (a.folded + b.folded) }

/-- A vote or a result is sent to a member; the fields of the header that do not apply are 0 (notes/assumptions/18.md). -/
def State.sendVote (s : State) (b : Binding) (rank stage epoch : Nat) (v : VoteRec) : State :=
  (s.sendColl b rank { epoch := epoch, coll := 0, sect := 0, unit := 0, chunk := 0, nchunk := 1, sender := b.jobRank,
                       stage := stage, comp := 0, wire := 0, late := 0 } (leBytes 64 (v.word epoch)) [] noSect).1

/-- Members to which this one passes a result on: a group leader its group, the job leader also the other leaders (R364). -/
def Binding.resultTo (b : Binding) : List Nat :=
  (if b.jobRank % b.g = 0 then (b.group b.jobRank).filter (fun r => r != b.jobRank) else []) ++
  (if b.jobRank = 0 then (List.range (b.k - 1)).map (fun g => (g + 1) * b.g) else [])

/-- The result of the step is known here, and goes on (R364). -/
def State.takeResult (s : State) (c : Nat) (b : Binding) (v : VoteRec) : State :=
  let e := s.stepEpoch c
  let s := s.setColl { s.coll with result := some v, last := some (e, v) }
  b.resultTo.foldl (fun s r => s.sendVote b r 4 e v) s

/-- A vote reaches a leader: once every vote it awaits is there, they are combined and sent on, or decided (R364). -/
def State.takeVote (s : State) (c : Nat) (b : Binding) (v : VoteRec) : State :=
  if s.coll.votes.any (fun x => x.rank == v.rank) then s
  else
    let s := s.setColl { s.coll with votes := s.coll.votes ++ [v] }
    let need := if b.jobRank = 0 then b.g + b.k - 1 else b.g
    if s.coll.votes.length < need then s
    else
      match s.coll.votes with
      | [] => s
      | x :: t =>
        let all := { t.foldl VoteRec.combine x with rank := b.jobRank }
        if b.jobRank = 0 then s.takeResult c b all else s.sendVote b 0 3 (s.stepEpoch c) all

/-- This member's vote (R364, R369). -/
def State.ownVote (s : State) (c : Nat) (b : Binding) : VoteRec :=
  let r := if s.coll.incomplete then 2 else if (s.slot c).step.bad then 1 else 0
  { rank := b.jobRank, result := r, firstBad := if r = 0 then 0xFFFF else b.jobRank, badCount := if r = 0 then 0 else 1,
    dropped := s.coll.dropped, folded := s.coll.folded }

/-- The vote is cast: to the group leader, who may be this member. -/
def State.castVote (s : State) (c : Nat) (b : Binding) : State :=
  let v := s.ownVote c b
  let s := s.modSlot c (fun x => { x with step := { x.step with voted := true } })
  if b.jobRank % b.g = 0 then s.takeVote c b v else s.sendVote b (b.jobRank / b.g * b.g) 3 (s.stepEpoch c) v

/-- Has every Class P page of the step been acknowledged by each holder that is `CURRENT` (R414)? -/
def State.depotAcked (s : State) : Bool :=
  s.coll.depotPending.all (fun q => tget .absent s.coll.replicas q.1 != .current || s.acked q.2.1 q.2.2)

/-! ## Completion of a collective -/

/-- A reservation for a rank. -/
def State.shard (s : State) (rank : Nat) : DepotShard := tget DepotShard.init s.coll.shards rank
def State.setShard (s : State) (rank : Nat) (d : DepotShard) : State :=
  s.setColl { s.coll with shards := tset s.coll.shards rank d }

/-- Pages of a unit's log (R342, R413). -/
def UnitDesc.logPages (u : UnitDesc) : Nat := ceilDiv (u.bitmapAt + roundUp (ceilDiv u.chunks 8) 64) pageBytes

/-- Pages that a reservation holds: Class P pages are counted in both copies (R413). -/
def DepotShard.used (d : DepotShard) (img : Image) : Nat :=
  d.pages.length + d.staged.length + (d.logs.map (fun l => (img.unit l.unit).logPages)).sum

/-- The replica number of a rank whose shard this member holds, and the shard's declared size (R412, R413). -/
def Binding.ward (b : Binding) (rank : Nat) : Option (Nat × Nat) :=
  (b.replicaIx.find? (fun i => b.wardOf i == rank)).map (fun i => (i, if i = 1 then b.shard1 else b.shard2))

/-- A reservation takes a new content, unless that exceeds the declared size: the message is then discarded and the replica is lost
(R413). -/
def State.fillShard (s : State) (img : Image) (b : Binding) (rank : Nat) (d : DepotShard) : State :=
  match b.ward rank with
  | none => s
  | some (i, size) =>
    if d.used img ≤ size then s.setShard rank d
    else ((s.setShard rank { DepotShard.init with lost := true }).bump .depotReplicaLost 0 1).notice 9 (s.workSlot.getD 15) i

/-- Is a mirrored log complete (R367)? -/
def DepotShard.logFull (d : DepotShard) (u : UnitDesc) (unit : Nat) : Bool :=
  d.logs.any (fun l => l.unit == unit && l.got.length == u.chunks)

/-- A unit's part of a reducing collective on this member: is it done (R344)? -/
def State.unitDone (s : State) (img : Image) (b : Binding) (d : CollDesc) (unit : Nat) : Bool :=
  let u := img.unit unit
  (u.groupOwner b.g b.jobRank != b.jobRank || u.owner == b.jobRank || !d.hier || decide (b.k ≤ 1) ||
    s.coll.groupSums.any (fun q => q.1 == unit)) &&
  (u.owner != b.jobRank || (s.coll.logged.contains unit && (d.kind != 2 || s.coll.updated.contains unit))) &&
  (d.kind != 2 || b.wards.all (fun r => r != u.owner ||
    (let sh := s.shard r
     sh.lost || sh.updated.contains unit || (s.coll.lostPeers.contains r && !sh.logFull u unit))))

/-- Units of a collective. -/
def CollDesc.units (d : CollDesc) : List Nat := (List.range d.unitCount).map (fun i => d.unitBase + i)

/-- Key of a unit's gather. -/
def gatherKey (id unit : Nat) : Nat := 2 ^ 20 * id + unit

/-- Is a collective done on this member (R344)? -/
def State.collDone (s : State) (img : Image) (b : Binding) (id : Nat) : Bool :=
  let d := img.coll id
  if d.kind = 1 then
    d.units.all (fun n => let u := img.unit n
      !u.heldBy b.g b.jobRank || (tget [] s.coll.gathered (gatherKey id n)).length == u.chunks)
  else
    s.coll.sending.all (fun x => x.coll != id || 1 < x.stage || s.acked x.flow x.msg) && d.units.all (s.unitDone img b d)

/-- A holder's update is taken as done for want of its log (R417): the member will vote 2. -/
def State.missesLog (s : State) (img : Image) (b : Binding) (d : CollDesc) : Bool :=
  d.kind == 2 && d.units.any (fun n =>
    let u := img.unit n
    b.wards.contains u.owner && s.coll.lostPeers.contains u.owner && !(s.shard u.owner).lost &&
    !(s.shard u.owner).updated.contains n && !(s.shard u.owner).logFull u n)

/-- A `COLL` completes: its departure signals and `SIG_TOKEN` (R344). -/
def State.collComplete (s : State) (img : Image) (b : Binding) (r : CollRun) : State :=
  let d := img.coll r.id
  let s := s.setColl { s.coll with
    runs := s.coll.runs.filter (fun x => x.id != r.id), incomplete := s.coll.incomplete || s.missesLog img b d }
  let sc := match s.phys 0 with | some p => s.cycle p | none => 0
  let s := match (s.station 0).prog r.dep with
    | some p => (s.modProg 0 r.dep (fun x => { x with doneSc := some sc, fired := true })).fireSignals 0 p
    | none => s
  s.engineSignal d.sigStation (0xE0 + d.sigToken)

/-- Whatever the collective engine can finish now: collectives, and the vote (R344, R364, R414); of an adoption, the vote once every
unit that can be rolled forward is (R419). -/
def State.collProgress (s : State) : State :=
  match s.job with
  | none => s
  | some (c, img, b) =>
    let s := s.coll.runs.foldl (fun s r => if s.collDone img b r.id then s.collComplete img b r else s) s
    let st := (s.slot c).step
    if st.raIssued.isSome && !st.voted && s.coll.result.isNone && s.depotAcked &&
        s.coll.runs.all (fun r => (img.coll r.id).kind == 1) then
      s.castVote c b
    else if s.coll.adopt == some .roll && s.coll.engines.all (fun q => q.2.queue.all (fun j => j.rank.isSome)) then
      let s := s.setColl { s.coll with adopt := some .vote }
      if s.coll.result.isNone then s.castVote c b else s
    else s

/-! ## COLL -/

/-- A stage whose close has come by now closes before anything that comes later is looked at (R351); stage 2 after stage 1. -/
def State.closeDue (s : State) (c : Nat) (img : Image) (b : Binding) (id unit : Nat) (second : Bool) : State :=
  let s := if s.mayClose c img b id unit 0 then s.closeStage1 c img b id unit else s
  if second && s.mayClose c img b id unit 1 then s.closeStage2 c img b id unit else s

/-- The own contribution of a group owner (R345, R351): on time while the stage is open. -/
def State.ownContrib (s : State) (c : Nat) (b : Binding) (id unit : Nat) (u : UnitDesc) (vals : Nat → PVal) (w : Nat) : State :=
  let e := s.stepEpoch c
  let xs := (List.range u.size).map (fun i => (i, vals i))
  let fill := fun (x : Contrib) => x.join (List.range u.chunks) (xs.map (fun q => (q.1, ueCode q.2.1)))
    ((xs.filter (fun q => q.2.2)).map (fun q => q.1)) w
  match s.coll.late.find? (fun x => x.same e id unit 0 b.jobRank) with
  | some x =>
    let y := fill x
    (s.setColl { s.coll with late := s.coll.late.map (fun z => if z = x then y else z) }).lateArrived u.die y
  | none =>
    if s.coll.groupSums.any (fun q => q.1 == unit) || s.coll.arrivals.any (fun x => x.same e id unit 0 b.jobRank) then s
    else s.setColl { s.coll with arrivals := s.coll.arrivals ++ [fill (Contrib.init e id unit 0 b.jobRank)] }

/-- One unit of a reducing `COLL` (R344, R345, R348); in a replay it sends what was dropped (R409). -/
def State.reduceUnit (s : State) (c : Nat) (img : Image) (b : Binding) (id unit w : Nat) : State :=
  let d := img.coll id
  let u := img.unit unit
  let vals := s.contribVals c img d u
  let owner := u.groupOwner b.g b.jobRank
  if !u.heldBy b.g b.jobRank then s
  else if owner = b.jobRank then
    (((s.closeDue c img b id unit false).ownContrib c b id unit u vals w).sendGroupSum c img b id unit).runBad
      ((List.range u.size).any (fun i => (vals i).2))
  else
    let h := { s.collHdr c b d id unit 0 with comp := d.comp, late := w }
    if u.spans.all (fun sp => s.sentTo b owner { h with chunk := sp.1 }) then s
    else if d.comp = 0 then s.sendUnit b owner h u d.topk d.sect vals
    else
      let es := s.residVals c u vals
      (s.sendUnit b owner h u d.topk d.sect es).writeResid c d u es

/-- Elements of a unit's working weights are written on this member, and the pages stamped (R359). -/
def State.gatherWrite (s : State) (c : Nat) (img : Image) (u : UnitDesc) (epoch : Nat) (es : List OutElem) : State :=
  match img.obj u.work, Fmt.ofDesc u.workFmt with
  | some o, some f =>
    es.foldl (fun s e => s.stampPages c o.object (elemPlace o f (e.ix / u.cols) (e.ix % u.cols)).1 1 epoch) (s.tilePutAll c o f u.cols es)
  | _, _ => s

/-- Chunks of a unit's working weights are marked as written. -/
def State.gatherMark (s : State) (id unit : Nat) (chunks : List Nat) : State :=
  let l := chunks.foldl numInsert (tget [] s.coll.gathered (gatherKey id unit))
  s.setColl { s.coll with gathered := tset s.coll.gathered (gatherKey id unit) l }

/-- The body of a gather message: the chunk's codes, then, in an MX format, the scale code of each element
(notes/assumptions/18.md). -/
def gatherBody (f : Fmt) (es : List OutElem) : List Byte :=
  let codes := leBytes (ceilDiv (f.elem.bits * es.length) 8) (packCodes f.elem.bits (es.map (fun e => e.code)))
  padGran (codes ++ (if f.isMx then es.map (fun e => BitVec.ofNat 8 e.scale) else []))

/-- Its bytes for m elements. -/
def gatherBytes (f : Fmt) (m : Nat) : Nat := roundUp (ceilDiv (f.elem.bits * m) 8 + (if f.isMx then m else 0)) 64

/-- Peers to which this member sends the gather of a unit (R345): the final owner to the other group owners, each group owner to
the other holders of its group. -/
def gatherPeers (u : UnitDesc) (b : Binding) : List Nat :=
  (if u.owner = b.jobRank then
    ((List.range b.k).map (fun g => g * b.g + u.owner % b.g)).filter (fun r => r != b.jobRank)
   else []) ++
  (if u.groupOwner b.g b.jobRank = b.jobRank then
    (b.group b.jobRank).filter (fun r => u.heldBy b.g r && r != b.jobRank)
   else [])

/-- Chunks of a unit's working weights, `es` by index, go to the peers, as far as they have not gone (R345, R409); `has` tells which
messages' chunks are here. -/
def State.gatherSend (s : State) (b : Binding) (h : CollHdr) (u : UnitDesc) (f : Fmt) (sect : Nat) (es : List OutElem)
    (has : Nat × Nat → Bool) : State :=
  (gatherPeers u b).foldl (fun s rank => (u.spans.filter has).foldl (fun s sp =>
    let bodies := (List.range sp.2).map (fun i => gatherBody f ((es.drop (4096 * (sp.1 + i))).take (u.chunkLen (sp.1 + i))))
    let bad := (es.drop (4096 * sp.1)).take (4096 * sp.2) |>.any (fun e => e.bad)
    let body := bodies.flatten
    s.sendSpan b rank { h with chunk := sp.1, nchunk := sp.2 } body (if bad then List.range (body.length / 64) else []) sect) s) s

/-- One unit of an `ALL_GATHER` that a group owner issues again after a replay has dropped what it was passing on (R345, R409): the
chunks that it has written go on from its `WORK_OBJ`. -/
def State.regather (s : State) (c : Nat) (img : Image) (b : Binding) (id unit w : Nat) : State :=
  let d := img.coll id
  let u := img.unit unit
  match img.obj u.work, Fmt.ofDesc u.workFmt with
  | some o, some f =>
    let got := tget [] s.coll.gathered (gatherKey id unit)
    if got = [] ∨ gatherPeers u b = [] then s
    else
      let es := (List.range u.size).map (fun i =>
        let q := s.tileCode c o f (i / u.cols) (i % u.cols)
        ({ ix := i, code := q.1, scale := q.2.1, bad := q.2.2 } : OutElem))
      s.gatherSend b { s.collHdr c b d id unit 2 with wire := u.workFmt, late := w } u f d.sect es
        (fun sp => (List.range sp.2).all (fun i => got.contains (sp.1 + i)))
  | _, _ => s

/-- One unit of an `ALL_GATHER` (R359). DESIGN CHOICE (notes/assumptions/31.md): the linear index that stochastic
rounding takes (R54) is the unit's, r × `COLS` + c (R338), and not a place in the object's grid. -/
def State.gatherUnit (s : State) (c : Nat) (img : Image) (b : Binding) (id unit w : Nat) : State :=
  let d := img.coll id
  let u := img.unit unit
  if u.owner ≠ b.jobRank then s.regather c img b id unit w
  else
    match Fmt.ofDesc u.workFmt, Round.ofCode u.workRound with
    | some f, some mode =>
      let cc := (s.slot c).step.committed
      let master := u.opt + cc % 2 * u.nopt
      let r := convMatrix f mode (fun i => srBits img.srSeed cc u.work i) u.rows u.cols (fun i =>
        let q := s.wordElem c master i
        (f32Val q.1, q.2))
      let es := sortBy (fun x => x.ix) r.1
      let s := if (tget [] s.coll.gathered (gatherKey id unit)).length = u.chunks then s
        else (((s.bump .ueConvertSat u.die r.2.1).bump .ueConvertNan u.die r.2.2).gatherWrite c img u cc es).gatherMark id unit
          (List.range u.chunks)
      s.gatherSend b { s.collHdr c b d id unit 2 with wire := u.workFmt, late := w } u f d.sect es (fun _ => true)
    | _, _ => s

/-- Errors that reads of objects find outside the Pilot (R281, R282, R401). -/
def State.objErrors (s : State) (c : Nat) (errs : List ObjError) : State :=
  errs.foldl (fun s x =>
    match s.mapBase c x.object with
    | none => s
    | some base =>
      let e := base + x.gran / pageGran
      let m := s.mapEntry e
      if !m.held || m.zero then s
      else if x.corrected then s.corrected m.tier m.frame
      else s.tierError e (frameKey m.tier m.frame) (x.gran % pageGran)) s

/-- `COLL` at issue (R344, R345). -/
def collEffect (errs : List ObjError) (s : State) (_k : Nat) (h : Head) (pr : Prog) : State :=
  let s := s.objErrors h.c errs
  let id := collId h.word
  match (s.slot h.c).image, (s.slot h.c).binding, (s.slot h.c).run with
  | some img, some b, some run =>
    let d := img.coll id
    let w := pr.issueLt - pr.planned
    let s := s.modSlot h.c (fun x => { x with step := { x.step with collIssued := x.step.collIssued ++ [id] } })
    let s := s.setColl { s.coll with runs := s.coll.runs.filter (fun r => r.id != id) ++
      [{ id := id, dep := pr.id, sect := h.sect, epochLt := run.sectEpoch, w := w }] }
    let s := d.units.foldl (fun s n =>
      if d.kind = 1 then s.gatherUnit h.c img b id n w else s.reduceUnit h.c img b id n w) s
    s.collProgress
  | _, _, _ => s

def collRule (errs : List ObjError) : DepRule :=
  { op := opColl, form := fun k h => collForm h.img h.sect k h.word,
    check := fun s _ _ h => reasonsOf [((s.slot h.c).step.collIssued.contains (collId h.word), 0x0B)],
    effect := collEffect errs }

/-- `COLL` (R343, R344). -/
def execColl (k : Fin 128) (j : Fin 4) (t : CollTick) (s : State) : Out := .next (issue (collRule t.errs) k j t.tick s)

/-! ## RIGHT_AWAY -/

/-- The Class P pages of the step go to the holders (R414). -/
def State.pushPages (s : State) (c : Nat) (b : Binding) : State :=
  let pages := (s.slot c).step.dirty
  let s := b.replicaIx.foldl (fun s i =>
    let st := tget .absent s.coll.replicas i
    if st = .current ∨ st = .seeding then
      match s.flowTo b (b.holder i) with
      | none => s
      | some f => pages.foldl (fun s q =>
          let a := q.2 * pageBytes
          let r := s.sendMessage f (s.objRead c q.1 a pageBytes) ((s.objPoison c q.1 a pageBytes).map (fun g => g - a / 64)) noSect
          (r.1.bump .depotPushGran 0 (pageBytes / 256)).setColl
            { r.1.coll with depotPending := r.1.coll.depotPending ++ [(i, f, r.2)] }) s
    else s) s
  s.modSlot c (fun x => { x with step := { x.step with pushed := x.step.pushed ++ pages, dirty := [] } })

/-- `RIGHT_AWAY` at issue (R362, R364, R414). -/
def rightAwayEffect (s : State) (_k : Nat) (h : Head) (pr : Prog) : State :=
  match (s.slot h.c).binding with
  | none => s
  | some b =>
    let s := s.modSlot h.c (fun x => { x with step := { x.step with raIssued := some (pr.id.line, pr.id.index, pr.id.uid) } })
    (s.pushPages h.c b).collProgress

def rightAwayRule : DepRule :=
  { op := opRightAway, form := fun k h => rightAwayForm k h.word,
    check := fun s _ _ h => reasonsOf [((s.slot h.c).step.raIssued.isSome, 0x0B)],
    effect := rightAwayEffect }

/-- `RIGHT_AWAY` (R362). -/
def execRightAway (k : Fin 128) (j : Fin 4) (t : IssueTick) (s : State) : Out := .next (issue rightAwayRule k j t s)

/-- The commit record is written and the `RIGHT_AWAY` completes (R363, R365, R366). -/
def State.writeCommit (s : State) (c epoch : Nat) (v : VoteRec) : State :=
  match (s.slot c).step.raIssued with
  | none => s
  | some (j, i, u) =>
    let id : DepId := { line := j, index := i, uid := u }
    match (s.station 0).prog id with
    | none => s
    | some p =>
      let s := s.modStation 0 (fun st => st.storeWrite (64 * rightAwayAddr p.word) (leBytes 64 (v.word epoch)) (fun _ => false))
      let sc := match s.phys 0 with | some q => s.cycle q | none => 0
      (s.modProg 0 id (fun x => { x with doneSc := some sc, fired := true })).fireSignals 0 p

/-- What belongs to the step that ends goes, whatever its result (R365, R366). -/
def State.stepOver (s : State) (c : Nat) : State :=
  let s := s.modSlot c (fun x => { x with step := { x.step with bad := false, collIssued := [], raIssued := none, voted := false } })
  let s := s.setColl { s.coll with
    arrivals := [], used := [], groupSums := [], logged := [], updated := [], gathered := [], sending := [], votes := [],
    result := none, cut := [], incomplete := false, lateColls := [], dropped := 0, folded := 0, depotPending := [],
    engines := s.coll.engines.map (fun q => (q.1, { q.2 with queue := [] })),
    shards := s.coll.shards.map (fun q => (q.1, { q.2 with logs := [], updated := [], staged := [] })) }
  { s.newStep with
    policies := match s.policies.dropNext with
      | some d => { s.policies with drop := d, dropNext := none }
      | none => s.policies }

/-- Late contributions that a close of the decided step has passed by (R353): after a commit they are dropped. -/
def State.settleLate (s : State) (img : Image) (commit : Bool) : State :=
  let gone := s.coll.late.filter (fun x => x.passed)
  let full := fun (x : Contrib) => x.full (img.unit x.unit)
  if commit then
    let s := s.setColl { s.coll with late := s.coll.late.filter (fun x => !x.passed) }
    gone.foldl (fun s x => s.dropLate (img.unit x.unit).die x 1 (if full x then x.late else ones 24)) s
  else
    let kept := (s.coll.late.filter (fun x => !(x.passed && full x))).map (fun x => { x with passed := false })
    let s := s.setColl { s.coll with late := kept }
    (gone.filter full).foldl (fun s x =>
      if s.policies.drop then s.dropLate (img.unit x.unit).die x 1 x.late else s.holdLate (img.unit x.unit).die x) s

/-- The Depot copies of a step that commits: staged pages are installed in one operation (R414). -/
def DepotShard.install (d : DepotShard) : DepotShard :=
  { d with pages := d.staged ++ d.pages.filter (fun p => !d.staged.any (fun q => q.object == p.object && q.page == p.page)) }

/-- May the result be applied (R181, R365)? Only in a context that runs, or that adopts. -/
def State.resultReady (s : State) : Option (Nat × Image × Binding × VoteRec) :=
  match s.job, s.coll.result with
  | some (c, img, b), some v =>
    if s.runSlot = some c ∧ ((s.slot c).step.raIssued.isSome ∨ s.coll.adopt.isSome) then some (c, img, b, v) else none
  | _, _ => none

/-- RIGHT_AWAY_COMMIT (R365). Of the two dies' counters (R373) that of die 0 counts the module's one commit (DESIGN CHOICE,
notes/assumptions/31.md). -/
def execRightAwayCommit (now : Nat) (s : State) : Out := s.clocked fun s =>
  let s := s.advance now
  match s.resultReady with
  | none => .next s
  | some (c, img, _, v) =>
    if v.result ≠ 0 then .next s
    else
      let e := s.stepEpoch c
      let s := s.writeCommit c e v
      let s := s.setColl { s.coll with shards := s.coll.shards.map (fun q => (q.1, q.2.install)) }
      let s := (s.stepOver c).settleLate img true
      let s := s.modSlot c (fun x => { x with step := { x.step with committed := e, pushed := [] } })
      let s := s.setColl { s.coll with adopt := s.coll.adopt.map (fun _ => .known) }
      .next (s.bump .raCommits 0 1)

/-- RIGHT_AWAY_REJECT (R366), counted as a commit is (notes/assumptions/31.md). -/
def execRightAwayReject (now : Nat) (s : State) : Out :=
  let s := s.advance now
  match s.resultReady with
  | none => .next s
  | some (c, img, _, v) =>
    if v.result = 0 then .next s
    else
      let e := s.stepEpoch c
      let s := s.writeCommit c e v
      let s := s.setColl { s.coll with folds := s.coll.folds ++ s.coll.used }
      let s := (s.stepOver c).settleLate img false
      let s := s.modSlot c (fun x => { x with step := { x.step with dirty := x.step.pushed ++ x.step.dirty, pushed := [] } })
      let s := s.setColl { s.coll with adopt := s.coll.adopt.map (fun _ => .known) }
      .next ((s.bump .raRejects 0 1).notice 7 c e)

/-! ## Messages received -/

/-- A message of a flow is taken off its delivered list. -/
def State.takeDelivered (s : State) (f : Nat) : State := s.modFlow f (fun fl => { fl with delivered := fl.delivered.drop 1 })

/-- The message is discarded (R347, R371). -/
def State.discardColl (s : State) (f : Nat) : State := s.bump .collDiscard (flowDie f) 1

/-- Do the bits that the header reserves read as 0, and is its stage assigned (R347)? -/
def hdrForm (w : Nat) : Bool := field w 326 0 == 0 && decide (field w 379 377 ≤ 5)

/-- Length of the body of `n` chunks from chunk k on, with the offset of each chunk. -/
def bodySpans (bytes : Nat → Nat) (k n : Nat) : List (Nat × Nat × Nat) :=
  ((List.range n).foldl (fun (a : List (Nat × Nat × Nat) × Nat) i =>
    (a.1 ++ [(k + i, a.2, bytes (k + i))], a.2 + bytes (k + i))) ([], 0)).1

/-- A contribution, or a log mirror, as the header and its body give it: chunk numbers, element values and poisoned elements. -/
def decodeBody (u : UnitDesc) (h : CollHdr) (k : Nat) (body : List Byte) (bad : List Nat) :
    List Nat × List (Nat × Nat) × List Nat :=
  let parts := bodySpans (fun q => chunkBytes h.wire h.comp k (u.chunkLen q)) h.chunk h.nchunk
  (parts.map (fun p => p.1),
   parts.flatMap (fun p =>
     let vs := decodeChunk h.wire h.comp k (u.chunkLen p.1) (sliceBytes body p.2.1 p.2.2)
     ((List.range vs.length).map (fun j => 4096 * p.1 + j)).zip (vs.map ueCode)),
   parts.flatMap (fun p =>
     let g := (bad.filter (fun x => decide (p.2.1 / 64 ≤ x ∧ x < (p.2.1 + p.2.2) / 64))).map (fun x => x - p.2.1 / 64)
     (chunkPoison h.wire h.comp (u.chunkLen p.1) g).map (fun j => 4096 * p.1 + j)))

/-- Does the header of a unit's message agree with the collective table (R347), for a body of `len` bytes? -/
def CollHdr.fits (h : CollHdr) (img : Image) (bytes : Nat → Nat) (len : Nat) : Bool :=
  let d := img.coll h.coll
  let u := img.unit h.unit
  decide (h.coll < img.collCount) && h.sect == d.sect &&
  decide (d.unitBase ≤ h.unit ∧ h.unit < d.unitBase + d.unitCount) && decide (h.chunk + h.nchunk ≤ u.chunks) &&
  len == ((List.range h.nchunk).map (fun i => bytes (h.chunk + i))).sum

/-- A contribution to a stage that is open joins what has come of it; one that comes at or after the close is late, and its first part
joins what is missing (R351, R353). `q`: chunks, values and poisoned elements. -/
def State.takeOnTime (s : State) (c : Nat) (u : UnitDesc) (h : CollHdr) (q : List Nat × List (Nat × Nat) × List Nat) : Option State :=
  let mine := fun (x : Contrib) => x.same h.epoch h.coll h.unit h.stage h.sender
  match s.coll.late.find? mine with
  | some x =>
    if q.1.any x.got.contains then none
    else
      let y := x.join q.1 q.2.1 q.2.2 h.late
      let s := s.setColl { s.coll with late := s.coll.late.map (fun z => if z = x then y else z) }
      some (if y.full u then s.lateArrived u.die y else s)
  | none =>
    let closed := if h.stage = 0 then s.coll.groupSums.any (fun z => z.1 == h.unit) else s.coll.logged.contains h.unit
    if h.epoch ≠ s.stepEpoch c ∨ closed then none
    else
      match s.coll.arrivals.find? mine with
      | some x =>
        if q.1.any x.got.contains then none
        else
          let y := x.join q.1 q.2.1 q.2.2 h.late
          some (s.setColl { s.coll with arrivals := s.coll.arrivals.map (fun z => if z = x then y else z) })
      | none =>
        let y := (Contrib.init h.epoch h.coll h.unit h.stage h.sender).join q.1 q.2.1 q.2.2 h.late
        some (s.setColl { s.coll with arrivals := s.coll.arrivals ++ [y] })

/-- A contribution to stage 1 or 2 (R345, R351, R353, R409); none where it is discarded. -/
def State.takeContrib (s : State) (c : Nat) (img : Image) (b : Binding) (h : CollHdr) (body : List Byte) (bad : List Nat) :
    Option State :=
  let d := img.coll h.coll
  let u := img.unit h.unit
  let k := d.topk
  let role := if h.stage = 0 then
      h.comp == d.comp && u.groupOwner b.g b.jobRank == b.jobRank && h.sender / b.g == b.jobRank / b.g &&
        u.heldBy b.g h.sender && h.sender != b.jobRank
    else h.comp == 0 && d.hier && u.owner == b.jobRank && h.sender % b.g == u.owner % b.g && h.sender != b.jobRank
  if !h.fits img (fun q => chunkBytes h.wire h.comp k (u.chunkLen q)) body.length || d.kind == 1 || h.wire != d.wire || !role ||
      s.coll.cut.contains d.sect then none
  else
    (s.closeDue c img b h.coll h.unit (h.stage == 1)).takeOnTime c u h (decodeBody u h k body bad)

/-- A gather message (R345, R359): written, and sent on by a group owner. -/
def State.takeGather (s : State) (c : Nat) (img : Image) (b : Binding) (h : CollHdr) (body : List Byte) (bad : List Nat) :
    Option State :=
  let d := img.coll h.coll
  let u := img.unit h.unit
  match Fmt.ofDesc u.workFmt with
  | none => none
  | some f =>
    let owner := u.groupOwner b.g b.jobRank
    let source := if owner = b.jobRank then u.owner else owner
    if !h.fits img (fun q => gatherBytes f (u.chunkLen q)) body.length || d.kind != 1 || h.wire != u.workFmt || h.comp != 0 ||
        !u.heldBy b.g b.jobRank || h.sender != source || u.owner == b.jobRank || s.coll.cut.contains d.sect ||
        h.epoch != s.stepEpoch c then none
    else
      let parts := bodySpans (fun q => gatherBytes f (u.chunkLen q)) h.chunk h.nchunk
      let es := parts.flatMap (fun p =>
        let m := u.chunkLen p.1
        let bs := sliceBytes body p.2.1 p.2.2
        let num := leNat bs
        let codesLen := ceilDiv (f.elem.bits * m) 8
        let g := fun (byte : Nat) => bad.contains ((p.2.1 + byte) / 64)
        (List.range m).map (fun j =>
          ({ ix := 4096 * p.1 + j, code := num / 2 ^ (f.elem.bits * j) % 2 ^ f.elem.bits,
             scale := if f.isMx then leAt bs (codesLen + j) 1 else 0,
             bad := g (f.elem.bits * j / 8) || g ((f.elem.bits * j + f.elem.bits - 1) / 8) || (f.isMx && g (codesLen + j)) } : OutElem)))
      let s := (s.gatherWrite c img u (s.slot c).step.committed es).gatherMark h.coll h.unit (parts.map (fun p => p.1))
      let h' := { h with sender := b.jobRank, late := (s.collHdr c b d h.coll h.unit 2).late }
      some ((gatherPeers u b).foldl (fun s r => s.sendSpan b r h' body bad d.sect) s)

/-- A log mirror (R367): once it is whole, the replica's program is queued. -/
def State.takeMirror (s : State) (c : Nat) (img : Image) (b : Binding) (h : CollHdr) (body : List Byte) (bad : List Nat) :
    Option State :=
  let d := img.coll h.coll
  let u := img.unit h.unit
  if !h.fits img (fun q => chunkBytes 0 0 0 (u.chunkLen q)) body.length || d.kind != 2 || h.wire != 0 || h.comp != 0 ||
      u.owner != h.sender || !b.wards.contains h.sender || (s.shard h.sender).lost || s.coll.cut.contains d.sect ||
      h.epoch != s.stepEpoch c then none
  else
    let q := decodeBody u h 0 body bad
    let sh := s.shard h.sender
    let old := (sh.logs.find? (fun l => l.unit == h.unit)).getD { unit := h.unit, got := [], vals := [], poison := [] }
    if q.1.any old.got.contains then none
    else
      let new : MirrorLog := { old with got := q.1.foldl numInsert old.got,
                                        vals := q.2.1.foldl (fun t x => tset t x.1 x.2) old.vals,
                                        poison := q.2.2.foldl numInsert old.poison }
      let s := s.fillShard img b h.sender { sh with logs := sh.logs.filter (fun l => l.unit != h.unit) ++ [new] }
      some (if new.got.length = u.chunks && !(s.shard h.sender).lost then s.queueUnit u.die h.unit (some h.sender) else s)

/-- A vote at a leader, or a result (R364). -/
def State.takeBallot (s : State) (c : Nat) (b : Binding) (h : CollHdr) (body : List Byte) : Option State :=
  if body.length ≠ 64 ∨ h.epoch ≠ s.stepEpoch c then none
  else
    let v := VoteRec.ofNat h.sender (leNat body)
    if h.stage = 3 then
      if b.jobRank % b.g = 0 && (h.sender / b.g == b.jobRank / b.g || (b.jobRank == 0 && h.sender % b.g == 0)) &&
          !s.coll.votes.any (fun x => x.rank == h.sender) then
        some (s.takeVote c b v)
      else none
    else if (h.sender = 0 ∨ h.sender = b.jobRank / b.g * b.g) ∧ s.coll.result.isNone then some (s.takeResult c b v)
    else none

/-- A header with an issue delay is noted (R347, R396). -/
def State.noteLate (s : State) (h : CollHdr) : State :=
  if h.late = 0 then s
  else
    let s := s.setColl { s.coll with lateColls := numInsert s.coll.lateColls h.coll }
    { s with ctrs := ctrSet s.ctrs .collPeerLateMax 0 { (s.ctr .collPeerLateMax 0) with
        value := max (s.ctr .collPeerLateMax 0).value h.late } }

/-- The front delivered message of a flow as a collective message: header word, body and poisoned granules of the body. -/
def Flow.collFront (fl : Flow) : Option (Nat × List Byte × List Nat) :=
  match fl.delivered with
  | [] => none
  | m :: _ => some (leAt m.data 0 64, m.data.drop 64, (m.poison.filter (fun g => g != 0)).map (fun g => g - 1))

/-- A collective message that has been delivered is checked and accepted, or discarded (R347, R371). -/
def State.deliverColl (s : State) (f : Nat) : State :=
  let fl := s.flow f
  match fl.collFront with
  | none => s
  | some (w, body, bad) =>
    let s := s.takeDelivered f
    match s.job with
    | none => s.discardColl f
    | some (c, img, b) =>
      let h := CollHdr.ofNat w
      let short := match fl.delivered with | m :: _ => decide (m.data.length < 64) | [] => true
      if short || !hdrForm w || h.sender != fl.peerRank || !b.flows.contains f then s.discardColl f
      else
        let r := match h.stage with
          | 0 | 1 => s.takeContrib c img b h body bad
          | 2 => s.takeGather c img b h body bad
          | 5 => s.takeMirror c img b h body bad
          | _ => s.takeBallot c b h body
        match r with
        | none => s.discardColl f
        | some s => ((s.bump .collMsgRx (flowDie f) 1).noteLate h).collProgress

/-- COLL_MESSAGE_DELIVER (R347). -/
def execCollMessageDeliver (flow : Fin 262144) (now : Nat) (s : State) : Out := .next ((s.advance now).deliverColl flow)

/-- STAGE_CLOSE (R351 to R353). -/
def execStageClose (coll unit : Nat) (stage : Fin 2) (now : Nat) (s : State) : Out :=
  let s := s.advance now
  match s.job with
  | none => .next s
  | some (c, img, b) =>
    if !s.mayClose c img b coll unit stage then .next s
    else if stage = 0 then .next (s.closeStage1 c img b coll unit).collProgress
    else .next (s.closeStage2 c img b coll unit).collProgress

/-! ## Update Engine runs -/

/-- The program of a unit as the Update Engine reads it (R355): instructions from `PROG_OFF` to the object's end. -/
def State.unitProgram (s : State) (c : Nat) (img : Image) (u : UnitDesc) : List UeIns :=
  match img.obj u.prog with
  | none => []
  | some o => (List.range (o.bytes / 8 - u.progOff)).map (fun i =>
      UeIns.ofNat (leNat (s.objRead c o.object (8 * (u.progOff + i)) 8)))

/-- The object number of a page in a Depot reservation (R413). -/
def depotObject (unit buffer k : Nat) : Nat := 2 ^ 21 + 8 * unit + 4 * buffer + k

/-- Word i of an optimizer object held for a peer. -/
def DepotShard.word (d : DepotShard) (object i : Nat) : Nat :=
  match d.pages.find? (fun p => p.object == object && p.page == 4 * i / pageBytes) with
  | some p => leAt p.data (4 * i % pageBytes) 4
  | none => 0

/-- A word written to it, and its page's `EPOCH` (R367). -/
def DepotShard.putWord (d : DepotShard) (object i code epoch : Nat) : DepotShard :=
  let n := 4 * i / pageBytes
  let old := (d.pages.find? (fun p => p.object == object && p.page == n)).getD
    { object := object, page := n, epoch := 0, data := [], poison := [] }
  { d with pages := d.pages.filter (fun p => !(p.object == object && p.page == n)) ++
      [{ old with epoch := epoch, data := layBytes old.data (4 * i % pageBytes) (leBytes 4 code) }] }

/-- The Update Engine of a die runs a program for a unit: the registers and counters after it (R354, R373). -/
def State.ueCharge (s : State) (die : Nat) (r : UeRun) : State :=
  let e := s.engine die
  let s := s.setEngine die { r.eng with queue := e.queue, freeLt := s.time.lt }
  (s.bump .ueUnits die 1).bump .ueCycles die r.cycles

/-! ### The time of a run -/

/-- Bytes a lt that a tier moves (R255). -/
def tierRate : Nat → Nat
  | 0 => 48000
  | 1 => 20480
  | 2 => 1380
  | _ => 224

/-- The first n bytes of an object by the tiers that hold them. -/
def State.objTiers (s : State) (c object n : Nat) : List (Nat × Nat) :=
  match s.mapBase c object with
  | none => []
  | some base => (chunksOf 0 n).map (fun q => ((s.mapEntry (base + q.1)).tier, q.2.2))

/-- Least time of a run in lt (R357): a scalar instruction takes 4 cycles of 1.5 GHz, and a sweep a cycle for each strip and instruction of
its body, and no less than its bytes take at the rates of the tiers that hold them. `places`: tier and bytes of what an instruction moves. -/
def ueLeast (shape : UeShape) (places : UeIns → Nat → List (Nat × Nat)) (items : List UeItem) : Nat :=
  ceilDiv ((items.map (fun it => match it with
    | .scalar _ => 8
    | .sweep mode body =>
      let len := shape.length mode
      let moved := body.flatMap (fun i => if 1 ≤ i.op ∧ i.op ≤ 3 then places i (4 * len) else [])
      let slowest := ((List.range 4).map (fun t => ceilDiv ((moved.filter (fun q => q.1 == t)).map (fun q => q.2)).sum (tierRate t))).foldl max 0
      max (2 * ceilDiv len 512 * (body.map (fun i => if ueScalar i.op then 4 else 1)).sum) (3 * slowest))).sum) 3

/-- Sizes of a unit of this member (R358). -/
def State.ownShape (s : State) (c : Nat) (img : Image) (u : UnitDesc) : UeShape :=
  let size := fun (b k : Nat) => match img.obj (u.opt + b * u.nopt + k) with | some d => d.bytes | none => 0
  let e := s.stepEpoch c
  { rows := u.rows, cols := u.cols, nopt := u.nopt, extent := fun k => min (size ((e + 1) % 2) k) (size (e % 2) k) }

/-- Sizes of a unit of a peer, whose buffers lie in the reservation (R367, R413). -/
def replicaShape (u : UnitDesc) : UeShape := { rows := u.rows, cols := u.cols, nopt := u.nopt, extent := fun _ => 4 * u.size }

/-- The shape of a job's unit. -/
def State.jobShape (s : State) (c : Nat) (img : Image) (j : UeJob) : UeShape :=
  match j.rank with
  | none => s.ownShape c img (img.unit j.unit)
  | some _ => replicaShape (img.unit j.unit)

/-- Where the bytes lie that an instruction of a job moves: a replica's in Tier 2 (R357, R367). -/
def State.jobPlaces (s : State) (c : Nat) (img : Image) (j : UeJob) (i : UeIns) (n : Nat) : List (Nat × Nat) :=
  let u := img.unit j.unit
  match j.rank with
  | some _ => [(2, n)]
  | none => s.objTiers c (if i.op = 1 then u.log else u.opt + (if i.op = 2 then s.stepEpoch c + 1 else s.stepEpoch c) % 2 * u.nopt + i.imm) n

/-- The program of a job, none where it breaks the rules (R356). -/
def State.jobProgram (s : State) (c : Nat) (img : Image) (j : UeJob) : Option (List UeItem) :=
  let prog := s.unitProgram c img (img.unit j.unit)
  ueParse (s.jobShape c img j) (prog.length + 1) prog

/-- Has the time of a job's run passed since its log was complete and the run before it ended (R354, R357)? -/
def State.jobOver (s : State) (die c : Nat) (img : Image) (j : UeJob) (items : List UeItem) : Bool :=
  decide (max j.lt (s.engine die).freeLt + ueLeast (s.jobShape c img j) (s.jobPlaces c img j) items ≤ s.time.lt)

/-- A unit of this member is updated from its log (R354, R358, R370). -/
def State.runOwnUnit (s : State) (c : Nat) (img : Image) (unit : Nat) (items : List UeItem) : State :=
  let u := img.unit unit
  let e := s.stepEpoch c
  let t := (s.slot c).step.committed
  let obj := fun (buf k : Nat) => u.opt + buf * u.nopt + k
  let rd := (e + 1) % 2
  let wr := e % 2
  let shape := s.ownShape c img u
  let env : UeEnv := { shape := shape, grad := fun i => (s.wordElem c u.log i).1,
                       opt := fun k i => (s.wordElem c (obj rd k) i).1, t := t }
  let r := ueRun (s.engine u.die) env ((SchedRec.ofNat (img.schedRec u.sched)).scalars t u.size) items
  let reads := items.any (fun it => match it with
    | .sweep mode body => body.any (fun i => (i.op == 1 && s.objPoison c u.log 0 (4 * u.size) != []) ||
        (i.op == 2 && s.objPoison c (obj rd i.imm) 0 (4 * shape.length mode) != []))
    | .scalar _ => false)
  let s := (s.ueCharge u.die r).runBad reads
  let s := r.writes.foldl (fun s q =>
    (s.wordsWrite c (obj wr q.1) (4 * q.2.1) [q.2.2] []).stampPages c (obj wr q.1) (4 * q.2.1) 4 e) s
  let s := (List.range u.nopt).foldl (fun s k =>
    s.wholeGranules c (obj wr k) ((r.writes.filter (fun q => q.1 == k)).map (fun q => (32 * q.2.1, 32, false)))) s
  s.setColl { s.coll with updated := numInsert s.coll.updated unit }

/-- A replica's unit is updated from the mirrored log (R367). -/
def State.runReplica (s : State) (c : Nat) (img : Image) (rank unit : Nat) (items : List UeItem) : State :=
  let u := img.unit unit
  let e := s.stepEpoch c
  let t := (s.slot c).step.committed
  let sh := s.shard rank
  match sh.logs.find? (fun l => l.unit == unit) with
  | some log =>
    let env : UeEnv := { shape := replicaShape u, grad := fun i => tget 0 log.vals i,
                         opt := fun k i => sh.word (depotObject unit ((e + 1) % 2) k) i, t := t }
    let r := ueRun (s.engine u.die) env ((SchedRec.ofNat (img.schedRec u.sched)).scalars t u.size) items
    let s := s.ueCharge u.die r
    let sh := r.writes.foldl (fun d q => d.putWord (depotObject unit (e % 2) q.1) q.2.1 q.2.2 e) sh
    s.setShard rank { sh with updated := numInsert sh.updated unit }
  | none => s

/-- `MALFORMED`, reason 0x0B, of a unit's program (R356): the report names the `COLL`; the record has no field for the unit. -/
def State.badProgram (s : State) (c : Nat) (img : Image) (unit : Nat) : State :=
  if s.runSlot ≠ some c then s
  else
    match s.coll.runs.find? (fun r => (img.coll r.id).kind == 2 && (img.coll r.id).units.contains unit) with
    | some r => s.malformed c 0 r.dep.line r.sect r.dep.index 0x0B
    | none => s.malformed c 0 3 0xFFFF (ones 24) 0x0B

/-- UE_UNIT_RUN: the next unit of a die, in the order in which the logs completed, once its time has passed (R354 to R358, R367). A
context that an error in its reads stops is not updated. After an uncorrected error in scratch or registers the step is bad (R401;
DESIGN CHOICE, notes/assumptions/31.md). -/
def execUeUnitRun (die : Fin 2) (t : UnitTick) (s : State) : Out :=
  let s := s.advance t.lt
  if s.power.dieStopped.contains die.val then .next s
  else match s.job, (s.engine die).queue with
  | some (c, img, _), j :: rest =>
    match s.jobProgram c img j with
    | none => .next ((s.setEngine die { s.engine die with queue := rest }).badProgram c img j.unit)
    | some items =>
      if !s.jobOver die c img j items then .next s
      else
        let s := (s.setEngine die { s.engine die with queue := rest }).objErrors c t.errs
        if (s.slot c).state = .stopped then .next s
        else
          let s := match j.rank with | none => s.runOwnUnit c img j.unit items | some r => s.runReplica c img r j.unit items
          .next (s.runBad t.upset).collProgress
  | _, _ => .next s

/-- BILILJO_ACK_RECEIVE (R327 to R330); what waited for the acknowledgement goes on (R344, R364, R414), and a holder that answers
again moves its replica from `LOST` to `SEEDING` (R415, R416). -/
def execBililjoAckReceive (flow : Fin 262144) (now : Nat) (s : State) : Out :=
  let s := (s.advance now).ackReceive flow
  let c := (s.flow flow).slot
  match (s.slot c).binding with
  | none => .next s
  | some b =>
    let rank := (s.flow flow).peerRank
    .next (s.inSlot c (fun s =>
      (b.replicaIx.foldl (fun s i =>
        if b.holder i = rank ∧ b.flows.contains flow.val ∧ tget .absent s.coll.replicas i = .lost ∧
            !s.coll.lostPeers.contains rank then
          s.setColl { s.coll with replicas := tset s.coll.replicas i .seeding, seeded := terase s.coll.seeded i }
        else s) s).collProgress))

end Sys2Proof.Machine
end

