-- ==== Sys2Proof/Machine/Contexts.lean ====
section
/-! DEFINITION. Contexts as they start, stop and switch (R136, R306, R408, R415, R441, R442): the operations that the commands and
the recovery share, and ACC_SAVE. -/

namespace Sys2Proof.Machine

open Sys2Proof

/-- Tokens of Station k from `TOKEN_INIT`, engine Tokens at 0 (R162, R441); a count of 0 is not listed. -/
def Image.tokens (i : Image) (k : Nat) : Table Nat :=
  (List.range 192).filterMap (fun t => if i.tokenInit k t = 0 then none else some (t, i.tokenInit k t))

/-- A Station as `START` leaves it (R441): store zero, accumulators clear, planes and Sidings empty, Tokens set. Only a reset makes an
invalid row last 1 sc again (R73). -/
def Station.fresh (st : Station) (tokens : Table Nat) : Station := { Station.init with tokens := tokens, prodTime := st.prodTime }

/-- Every Station as `START` leaves it (R441); nothing is on the Loop or at a Turntable. -/
def State.freshStations (s : State) (img : Image) : State :=
  { s with
    stations := (List.range 128).filterMap (fun k =>
      if img.tokens k = [] ∧ (s.station k).prodTime = 1 then none else some (k, (s.station k).fresh (img.tokens k)))
    turns := [] }.clearLoop.drained

/-- The collective engine with nothing of any step (R441); rings, replicas and the copies held for peers stay. -/
def Collective.fresh (l : Collective) : Collective :=
  { l with
    runs := [], arrivals := [], late := [], folds := [], used := [], groupSums := [], logged := [], updated := [], gathered := [],
    sending := [], votes := [], result := none, cut := [], incomplete := false, lateColls := [], dropped := 0, folded := 0,
    engines := l.engines.map (fun q => (q.1, { q.2 with queue := [] })),
    shards := l.shards.map (fun q => (q.1, { q.2 with staged := [], logs := [], updated := [] })), asked := none, adopt := none }

/-- The collective engine is left with nothing of any step; late contributions that it still had are dropped (R353, R441). -/
def State.freshColl (s : State) : State := s.settleRun.setColl s.settleRun.coll.fresh

/-- A step begins again: what its issues left goes; the count of Right-aways stays (R54, R358). -/
def StepState.again (x : StepState) : StepState :=
  { x with bad := false, collIssued := [], raIssued := none, voted := false, dirty := x.pushed ++ x.dirty, pushed := [], signalled := [],
           ended := [] }

/-- The stepping policy that waited for a `START`, `RESUME` or `ADOPT` is in force (R439). -/
def State.takeStepping (s : State) : State :=
  match s.policies.paddedNext with
  | some p => { s with policies := { s.policies with padded := p, paddedNext := none } }
  | none => s

/-- Context c runs from section x on (R441, R443): `waiting` until its run epoch. -/
def State.beginRun (s : State) (c runEpoch x epoch : Nat) (floatPast waiting : Bool) : State :=
  let run : Run :=
    { epoch := runEpoch, sect := x, sectEpoch := epoch, began := s.time.lt, cancelled := none, halting := false, switching := false,
      points := none, follow := [], preemptAt := none, floatPast := floatPast, epochSeen := false, waiting := waiting }
  let s := s.modSlot c (fun y => { y with state := .running, run := some run })
  s.enterSection c x epoch floatPast []

/-- Depot seeding begins for replicas that are not kept yet (R415); `also` says whether those already kept are copied again. -/
def State.startSeeding (s : State) (b : Binding) (also : Bool) : State :=
  b.replicaIx.foldl (fun s i =>
    let st := tget .absent s.coll.replicas i
    if st = .absent ∨ (also ∧ st ≠ .lost) then
      s.setColl { s.coll with replicas := tset s.coll.replicas i .seeding, seeded := terase s.coll.seeded i }
    else s) s

/-- Waits are no longer suspended for lost peers (R417). -/
def State.peersForgotten (s : State) : State :=
  s.setColl { s.coll with
    lostPeers := [], suspends := s.coll.suspends.map (fun q => (q.1, some (q.2.getD s.time.lt))) }

/-! ## The end of a run -/

/-- Is nothing of a Station's work in flight (R306)? `ras`: a `RIGHT_AWAY` that waits for its result does not count. -/
def Station.halted (st : Station) : Bool :=
  st.still && !st.flying && st.pilot.isEmpty &&
  st.progs.all (fun p => p.doneSc.isSome || Dep.opcode p.word == opRightAway || Dep.opcode p.word == opTurn) &&
  !st.progs.any (fun p => Dep.opcode p.word == opTurn && p.doneSc.isNone)

/-- May a `HALT` complete (R306)? -/
def State.haltReady (s : State) : Bool := s.stations.all (fun q => q.2.halted) && !s.onLoop

/-- Context c is out of its run and `BOUND` (R306, R435). -/
def State.haltDone (s : State) (c : Nat) : State :=
  if (s.slot c).state = .preempted then
    let s := s.modSlot c (fun x => { x with state := .bound, run := none, step := x.step.again, savedNow := false, saved := [] })
    (s.inSlot c (fun s => s.freshColl.peersForgotten)).plan
  else
  let s := s.mapStations (fun st => { st with progs := [], sidings := st.sidings.map (fun q => (q.1, q.2.settleReturns)) })
  let s := s.modSlot c (fun x => { x with state := .bound, run := none, step := x.step.again, savedNow := false, saved := [] })
  let s := s.freshColl
  ({ s with replay := false }.peersForgotten).plan

/-- Commands that `HALT`, `PREEMPT` and a context `RESET` end (R436): `START`, `RESUME`, `DEPOT_SNAPSHOT`, `ADOPT`. -/
def abortable (op : Nat) : Bool := op == 0x13 || op == 0x16 || op == 0x18 || op == 0x19

/-- The outstanding ones of context c end with `ABORTED` (R436). -/
def State.abortRunning (s : State) (c : Nat) : State :=
  s.endCommands (fun _ x => x.accepted && abortable x.opcode && x.context == c) 0x2005

/-! ## Switching out and in -/

/-- Tokens with those of R305 at 0. -/
def Station.zeroedTokens (st : Station) : Table Nat := st.zeroAt.foldl (fun t i => tset t i 0) st.tokens

/-- The save record of a Station (R136, R137, R306); the Tokens that its next boundary would set to 0 are saved so (R305). -/
def Station.save (st : Station) : StationSave :=
  { acc := st.acc, accPoison := st.accPoison, rows := st.rows, groups := st.groups, tokens := st.zeroedTokens,
    sidings := st.sidings.map (fun q => (q.1, { q.2 with slots := [], fillAt := 0, claimed := q.2.next })) }

/-- Bytes of a Station's save record, and the granules of one (R137). -/
def saveBytes : Nat := 3219712
def saveGran : Nat := 50308

/-- The save record (R137): entries, poison bits, `ROW_STATUS` words and group state records, laid out from byte 0. -/
def Station.saveRecord (st : Station) : List Host.Cell :=
  let entries := st.acc.foldl (fun m q => if q.1 < 2048 then memWriteBytes m (1536 * q.1) (leBytes 1536 (packCodes 48 q.2)) else m) []
  let bits := (st.accPoison.map (fun e => e / 256)).eraseDups.foldl (fun m r =>
    memWriteBytes m (3145728 + 32 * r) (leBytes 32 ((st.accPoison.filter (fun e => e / 256 == r)).map (fun e => 2 ^ (e % 256))).sum)) entries
  let status := memWriteBytes bits 3211264 ((List.range 2048).flatMap (fun r => leBytes 4 (st.row r).word))
  memWriteBytes status 3219456 ((List.range 8).flatMap (fun g => leBytes 32 { st.group g with inFlight := 0 }.word))

/-- A Station restored from its save: Sidings are empty and keep ring and line (R136, R306). Its store stays as it stands. -/
def Station.restore (st : Station) (v : StationSave) : Station :=
  { Station.init with
    prodTime := st.prodTime, store := st.store, storePoison := st.storePoison, acc := v.acc, accPoison := v.accPoison, rows := v.rows, groups := v.groups,
    tokens := v.tokens, sidings := v.sidings }

/-- Has the last Station been saved, and is nothing of the context in flight (R306, R442)? -/
def State.switchReady (s : State) : Bool :=
  (List.range 128).all (fun k => (s.phys k).isNone || (s.station k).saved) && s.haltReady

/-- Context c is switched out (R306, R434, R442): its `PREEMPT` completes. -/
def State.switchOut (s : State) (c : Nat) : State :=
  let s := s.mapStations (fun st => { st with progs := [], saved := false,
                                              sidings := st.sidings.map (fun q => (q.1, q.2.settleReturns)) })
  let s := s.modSlot c (fun x => { x with
    state := .preempted, successor := match x.run with | some r => r.sect | none => 0xFFFF })
  (s.endCommands (fun _ x => x.accepted && x.opcode == 0x15 && x.context == c) 0).plan

/-- The open group that a tile row belongs to, if any. -/
def Station.groupAt (st : Station) (r : Nat) : Option Group :=
  ((List.range 8).map st.group).find? (fun g => g.isOpen && decide (g.base ≤ r ∧ r < g.base + g.count))

/-- An error that the save of a tile row finds (R123); the row's format is that of its open group, ACC48 outside one. -/
def State.saveError (s : State) (k : Nat) (e : AccError) : State :=
  match s.phys k, (s.station k).groupAt e.row with
  | some p, some g => s.accErrors k p g.kind [if g.kind = 2 then e.row - (e.row - g.base) % 2 else e.row] [e]
  | some p, none => s.accErrors k p 0 [e.row] [e]
  | none, _ => s

/-- The cycle at which the last term of a Station's groups has been written and its departures of the drain path have run to completion
(R136, R219). -/
def Station.workEnds (st : Station) : Nat :=
  let drains := st.progs.filter (fun p => decide (opDrain ≤ Dep.opcode p.word ∧ Dep.opcode p.word ≤ opVstats))
  (((List.range 8).map (fun g => (st.group g).lastWrite)) ++ drains.filterMap (fun p => p.doneSc)).foldl max 0

/-- Cycles of a Station's save, and of its restore (R136). -/
def saveSc : Nat := 2056

/-- ACC_SAVE: a Station of a context that is being switched out has saved its accumulator state into the context's save area, 2,056 sc
after no group has rows in flight and no departure of the drain path is at work (R136, R137). -/
def execAccSave (k : Fin 128) (t : Tick) (acc : List AccError) (s : State) : Out :=
  let s := s.advance t.lt
  match s.runSlot, s.phys k with
  | some c, some p =>
    let s := s.advanceSc p t.sc
    let st := s.station k
    let switching := match (s.slot c).run with | some r => r.switching | none => false
    if !switching || st.saved || !st.still || !st.quiet (List.range 8) || decide (s.cycle p < st.workEnds + saveSc) then .next s
    else
      let s := acc.foldl (fun s e => s.saveError k e) s
      let st := s.station k
      let s := s.modSlot c (fun x => { x with saved := tset x.saved k st.save })
      let s := s.itemCells c 2 (k * saveBytes) saveBytes st.saveRecord
      let s := s.modStation k (fun st => { st with saved := true })
      .next (if s.switchReady then s.switchOut c else s)
  | _, _ => .next s

/-- The entries that poisoned granules of a Station's save record reach: tile row and column (R136). -/
def savedEntries (gs : List Nat) : List AccError :=
  ((gs.filter (fun g => decide (g < 49152))).flatMap (fun g =>
    (List.range ((64 * g + 63) / 6 + 1 - 64 * g / 6)).map (fun i => 64 * g / 6 + i))).eraseDups.map
      (fun e => { row := e / 256, col := e % 256, corrected := false })

/-- The uncorrected faults found as the save area of context c is read back: each poisons the entries it reaches (R123, R136). `bad`:
granules of the area in which the read itself finds an error. -/
def State.restoreErrors (s : State) (c : Nat) (bad : List Nat) : State :=
  (List.range 128).foldl (fun s k =>
    let gs := (s.objPoison c (systemItem 2) (k * saveBytes) saveBytes ++ bad).filter (fun g => decide (k * saveGran ≤ g ∧ g < (k + 1) * saveGran))
    (savedEntries (gs.map (fun g => g - k * saveGran))).foldl (fun s e => s.saveError k e) s) s

/-- An error that a read of the save area finds is kept as poison in its page, whose frame is to retire (R282). -/
def State.areaErrors (s : State) (c : Nat) (bad : List Nat) : State :=
  match s.mapBase c (systemItem 2) with
  | none => s
  | some base => bad.foldl (fun s g =>
      let m := s.mapEntry (base + g / pageGran)
      if m.held then
        { s with tiers := { s.tiers with poison := numInsert s.tiers.poison (frameKey m.tier m.frame * pageGran + g % pageGran) } }.evacuate
          (base + g / pageGran)
      else s) s

/-! ## Replay -/

/-- A Station with its work abandoned and its contents kept (R408 steps 1 to 3). -/
def Station.abandon (st : Station) : Station :=
  { Station.init with
    prodTime := st.prodTime, store := st.store, storePoison := st.storePoison, tokens := st.tokens, acc := st.acc, accPoison := st.accPoison, rows := st.rows,
    groups := st.groups.map (fun q => (q.1, { q.2 with inFlight := 0 })), active := st.active, issued := st.issued,
    lastIssue := st.lastIssue,
    sidings := st.sidings.map (fun q => (q.1, { q.2 with slots := [], claimed := q.2.next })) }

/-- The work of the interrupted step is abandoned and the Loop reconfigured (R408 steps 1 to 3, R110). Collective messages that have
started go on (R332). -/
def State.abandon (s : State) (c : Nat) : State :=
  let sect := match (s.slot c).run with | some r => r.sect | none => 0xFFFF
  let s := (s.mapStations Station.abandon).cancelMessages c (fun x => x == sect)
  let s := s.setColl { s.coll with runs := [] }
  { s with turns := [] }.clearLoop.drained

/-- R408 steps 5 and 6: Stations are clear, and the context runs again from `STEP_FIRST_SECTION` with the same E. -/
def State.replayRun (s : State) (c : Nat) : State :=
  match (s.slot c).image, (s.slot c).run with
  | some img, some run =>
    let s := s.freshStations img
    let s := s.modSlot c (fun x => { x with step := { x.step with collIssued := [], raIssued := none } })
    let s := s.setColl { s.coll with asked := none, cut := [] }
    let x := img.stepFirst
    let e := epochOf (img.sect x) run.epoch s.time.lt true
    let s := { s with replay := false }.beginRun c run.epoch x e.1 e.2 false
    (s.bump .depReplays 0 1).recovered c
  | _, _ => s

/-- Class P pages written since the last Right-away (R408). -/
def State.dirtyPages (s : State) (c : Nat) : List (Nat × Nat) :=
  (s.slot c).step.pushed ++ (s.slot c).step.dirty

/-- The first replica from i on that is `CURRENT` (R408). -/
def State.currentFrom (s : State) (b : Binding) (i : Nat) : Option Nat :=
  b.replicaIx.find? (fun r => decide (i ≤ r) && tget .absent s.coll.replicas r == .current)

/-- A holder is asked for this member's shard, or for Class P pages (R408, R419): the request is a message whose bytes the spec does
not give (notes/assumptions/19.md). -/
def State.askHolder (s : State) (b : Binding) (purpose i : Nat) : State :=
  let s := match s.flowTo b (b.holder i) with
    | some f => (s.sendMessage f s.noticeBody [] noSect).1
    | none => s
  s.setColl { s.coll with asked := some { purpose := purpose, holder := i, since := s.time.lt } }

end Sys2Proof.Machine
end

