-- ==== Sys2Proof/Machine/Depot.lean ====
section
/-! DEFINITION. Retirement, replay, the Depot, lost peers and adoption (15_dependability_and_recovery.md). -/

namespace Sys2Proof.Machine

open Sys2Proof

/-- A bound context with its image and binding. -/
def State.jobOf (s : State) (c : Nat) : Option (Nat × Image × Binding) :=
  if (s.slot c).state.boundOrLater then
    match (s.slot c).image, (s.slot c).binding with
    | some img, some b => some (c, img, b)
    | _, _ => none
  else none

/-- The bound context that a Depot event concerns: the running one where `p` holds of it and its collective engine, or else the first
that it holds of. -/
def State.depotJob (s : State) (p : Nat → Binding → Collective → Bool) : Option (Nat × Image × Binding) :=
  ((s.runSlot.toList ++ List.range 8).filterMap s.jobOf).find? (fun x => p x.1 x.2.2 (s.withSlot x.1).coll)

/-- A replica is lost (R415): one event and one notice. -/
def State.loseReplica (s : State) (c i : Nat) : State :=
  let st := tget .absent s.coll.replicas i
  if st = .lost ∨ st = .absent then s
  else
    let s := s.setColl { s.coll with replicas := tset s.coll.replicas i .lost }
    (s.bump .depotReplicaLost 0 1).notice 9 c i

/-- Optimizer pages of this member's shard: object as the Depot numbers it, own object, pages (R411). -/
def ownOptimizer (img : Image) (b : Binding) : List (Nat × Nat × Nat) :=
  (List.range img.unitCount).flatMap (fun n =>
    let u := img.unit n
    if u.owner ≠ b.jobRank ∨ u.opt = noObject then []
    else (List.range 2).flatMap (fun buf => (List.range u.nopt).map (fun k =>
      let o := u.opt + buf * u.nopt + k
      (depotObject n buf k, o, match img.obj o with | some d => d.pages | none => 0))))

/-- Every page of this member's shard but the logs: Depot object and page (R411). -/
def shardPages (img : Image) (b : Binding) : List (Nat × Nat) :=
  (ownOptimizer img b).flatMap (fun q => (List.range q.2.2).map (fun p => (q.1, p))) ++
  (List.range img.objectCount).flatMap (fun o =>
    if img.classP o then (List.range (match img.obj o with | some d => d.pages | none => 0)).map (fun p => (o, p)) else [])

/-- The own object that a Depot object number names. -/
def ownObject (img : Image) (o : Nat) : Nat :=
  if o < 2 ^ 21 then o
  else
    let n := o - 2 ^ 21
    let u := img.unit (n / 8)
    u.opt + n / 4 % 2 * u.nopt + n % 4

/-- DEPOT_SEED: one more page of the shard goes to a replica that is `SEEDING`, or, once every page has been sent and acknowledged,
the replica is `CURRENT` (R415). -/
def execDepotSeed (replica : Fin 2) (page : Option (Nat × Nat)) (now : Nat) (s : State) : Out :=
  let s := s.advance now
  let i := replica.val + 1
  match s.depotJob (fun _ _ l => tget .absent l.replicas i == .seeding) with
  | none => .next s
  | some (c, img, b) => s.inSlotOut c fun s =>
    let sent := tget [] s.coll.seeded i
    match tget .absent s.coll.replicas i, s.flowTo b (b.holder i), decide (i ≤ b.rho) with
    | .seeding, some f, true =>
      match page with
      | some q =>
        if sent.contains q || !(shardPages img b).contains q then .next s
        else
          let a := q.2 * pageBytes
          let o := ownObject img q.1
          let r := s.sendMessage f (s.objRead c o a pageBytes) ((s.objPoison c o a pageBytes).map (fun g => g - a / 64)) noSect
          let s := r.1.bump .depotPushGran 0 (pageBytes / 256)
          .next (s.setColl { s.coll with seeded := tset s.coll.seeded i (sent ++ [q]),
                                         depotPending := s.coll.depotPending ++ [(i, f, r.2)] })
      | none =>
        if (shardPages img b).all sent.contains &&
            s.coll.depotPending.all (fun q => q.1 != i || s.acked q.2.1 q.2.2) then
          let r := s.sendMessage f s.noticeBody [] noSect
          let s := r.1.setColl { r.1.coll with replicas := tset r.1.coll.replicas i .current, seeded := terase r.1.coll.seeded i }
          let done := b.replicaIx.all (fun n => tget .absent s.coll.replicas n == .current)
          .next ((if done then s.endCommands (fun _ x => x.accepted && x.opcode == 0x18 && x.context == c) 0 else s).collProgress)
        else .next s
    | _, _, _ => .next s

/-- Restores bytes that a holder sent back. -/
def State.putBack (s : State) (c object page : Nat) (data : List Byte) (poison : List Nat) : State :=
  s.objWrite c object (page * pageBytes) data (fun g => poison.contains (g - page * pageGran))

/-- Units of the step's exchanges that this member owns (R368). -/
def ownedUnits (img : Image) (b : Binding) : List Nat :=
  (List.range img.collCount).flatMap (fun id =>
    if (img.coll id).kind = 2 then (img.coll id).units.filter (fun n => (img.unit n).owner == b.jobRank) else [])

/-- Does every page of a unit's write buffer carry `EPOCH` e (R368)? -/
def State.unitInstalled (s : State) (c e : Nat) (u : UnitDesc) : Bool :=
  (List.range u.nopt).all (fun k =>
    (s.objEntries c (u.opt + e % 2 * u.nopt + k)).all (fun m => (s.mapEntry m).epoch == e))

/-- The shard has come back to an adopting member: every owned unit is resumed by R368. -/
def State.resumeUnits (s : State) (c : Nat) (img : Image) (b : Binding) : State :=
  let e := s.stepEpoch c
  let own := s.shard b.jobRank
  let s := (ownedUnits img b).foldl (fun s n =>
    let u := img.unit n
    if !own.logFull u n then s.setColl { s.coll with incomplete := true }
    else
      let s := s.setColl { s.coll with logged := numInsert s.coll.logged n }
      if s.unitInstalled c e u then s.setColl { s.coll with updated := numInsert s.coll.updated n }
      else (s.queueUnit u.die n none).bump .ueRollForward u.die 1) s
  let s := s.setColl { s.coll with shards := terase s.coll.shards b.jobRank, adopt := some .roll, asked := none }
  s.collProgress

/-- `ADOPT` or `RESUME` ends without a holder's answer: the status goes to the command, and the context does not run (R420, R442). -/
def State.noAnswer (s : State) (c purpose : Nat) : State :=
  let s := s.setColl { s.coll with asked := none, adopt := none }
  if purpose = 1 then
    let s := s.modSlot c (fun x => { x with state := .bound, run := none })
    s.endCommands (fun _ x => x.accepted && x.opcode == 0x19 && x.context == c) 0x2040
  else if 2 ≤ purpose then s.endCommands (fun _ x => x.accepted && x.opcode == 0x16 && x.context == c) 0x2033
  else if (s.slot c).state ≠ .recovering then s
  else
    let s := s.report { EvtRec.blank with family := 2, code := 7, scope := scopeContext, context := c }
    s.stopContext c

/-- A holder has sent everything back (R408 step 4, R419 step 1, R442). A context that has stopped or been halted meanwhile does not
run again, and a `RESUME` finds no other context running (R434). -/
def State.answered (s : State) (c : Nat) (img : Image) (b : Binding) (a : Ask) (committed : Nat) : State :=
  let st := (s.slot c).state
  if 2 ≤ a.purpose ∧ s.runSlot.isSome = true then
    (s.setColl { s.coll with asked := none }).endCommands (fun _ x => x.accepted && x.opcode == 0x16 && x.context == c) 0x2003
  else if (a.purpose = 0 ∧ st ≠ .recovering) ∨ (a.purpose = 1 ∧ (st ≠ .running ∨ s.coll.adopt ≠ some .fetch)) ∨
      (2 ≤ a.purpose ∧ st ≠ .preempted) then
    s.setColl { s.coll with asked := none }
  else if a.purpose = 1 then
    let s := s.modSlot c (fun x => { x with step := { x.step with committed := committed, dirty := [], pushed := [] } })
    s.resumeUnits c img b
  else
    let s := s.modSlot c (fun x => { x with step := { x.step with dirty := [], pushed := [] } })
    let s := s.replayRun c
    if 2 ≤ a.purpose then s.endCommands (fun _ x => x.accepted && x.opcode == 0x16 && x.context == c) 0 else s

/-- DEPOT_MESSAGE_RECEIVE: a message of the Depot from a rank (R413, R414, R367), or a holder's answer (R408, R419). The operand says
what the delivered message spells, since the spec gives no format for it (notes/assumptions/19.md). -/
def execDepotMessageReceive (rank : Nat) (msg : DepotMsg) (now : Nat) (s : State) : Out :=
  let s := s.advance now
  match s.depotJob (fun _ b _ => b.flows.any (fun f => (s.flow f).peerRank == rank && (s.flow f).delivered != [])) with
  | none => .next s
  | some (c, img, b) => s.inSlotOut c fun s =>
    match b.flows.find? (fun f => (s.flow f).peerRank == rank && (s.flow f).delivered != []) with
    | none => .next s
    | some f =>
      let bad := match (s.flow f).delivered with | m :: _ => m.poison | [] => []
      let own := (List.range b.rho).any (fun i => b.holder (i + 1) == rank)
      let asked := match s.coll.asked with
        | some a => if b.holder a.holder = rank ∧ own then some a else none
        | none => none
      let sh := s.shard rank
      let ward := (b.ward rank).isSome && !sh.lost
      let drop := fun (l : List HeldPage) (o p : Nat) => l.filter (fun x => !(x.object == o && x.page == p))
      match msg with
      | .mirror => .next (s.deliverColl f)
      | .classP o p data =>
        let s := s.takeDelivered f
        if ward then .next (s.fillShard img b rank { sh with staged := drop sh.staged o p ++
          [{ object := o, page := p, epoch := 0, data := data, poison := bad }] })
        else .next s
      | .shard o p e data =>
        let s := s.takeDelivered f
        if ward then .next (s.fillShard img b rank { sh with pages := drop sh.pages o p ++
          [{ object := o, page := p, epoch := e, data := data, poison := bad }] })
        else .next s
      | .seedEnd =>
        let s := s.takeDelivered f
        if ward then .next (s.setShard rank { sh with ready := true }) else .next s
      | .ask whole pages =>
        let s := s.takeDelivered f
        if ward && sh.ready then
          let s := (sh.pages.filter (fun x => whole || pages.contains (x.object, x.page))).foldl (fun s x =>
            (s.sendMessage f x.data x.poison noSect).1) s
          let s := if whole then sh.logs.foldl (fun s l =>
              let bad := (List.range l.vals.length).filter (fun n => l.poison.contains (l.vals.getD n (0, 0)).1)
              (s.sendMessage f ((l.vals.map (fun q => q.2)).flatMap (leBytes 4)) (bad.map (fun n => n / 16)).eraseDups noSect).1) s else s
          .next (s.sendMessage f s.noticeBody [] noSect).1
        else .next s
      | .backClassP o p data =>
        let s := s.takeDelivered f
        .next (if asked.isSome then s.putBack c o p data bad else s)
      | .backShard o p e data =>
        let s := s.takeDelivered f
        if asked.isSome then
          let o := ownObject img o
          .next ((s.putBack c o p data bad).stampPages c o (p * pageBytes) 1 e)
        else .next s
      | .backLog n k data =>
        let s := s.takeDelivered f
        if asked.isSome && decide (n < img.unitCount) then
          let u := img.unit n
          let own := s.shard b.jobRank
          let old := (own.logs.find? (fun l => l.unit == n)).getD { unit := n, got := [], vals := [], poison := [] }
          let s := s.objWrite c u.log (4 * 4096 * k) (data.take (4 * u.chunkLen k)) (fun _ => bad != [])
          .next (s.setShard b.jobRank { own with
            logs := own.logs.filter (fun l => l.unit != n) ++ [{ old with got := numInsert old.got k }] })
        else .next s
      | .backEnd committed =>
        let s := s.takeDelivered f
        match asked with
        | some a => .next (s.answered c img b a committed)
        | none => .next s

/-- Time without an answer after which a peer or a holder is given up (R413, R417). -/
def Binding.peerLt (b : Binding) : Nat := 1000000 * b.peerTimeoutMs

/-- HOLDER_ANSWER_TIMEOUT: the request goes to holder 2, or ends (R408, R419, R420). -/
def execHolderAnswerTimeout (now : Nat) (s : State) : Out :=
  let s := s.advance now
  match s.depotJob (fun _ _ l => l.asked.isSome) with
  | none => .next s
  | some (c, _, b) => s.inSlotOut c fun s =>
    match s.coll.asked with
    | none => .next s
    | some a =>
      if s.time.lt < a.since + b.peerLt then .next s
      else
        let again := if a.purpose = 1 then (if a.holder < b.rho then some (a.holder + 1) else none) else s.currentFrom b (a.holder + 1)
        match again with
        | some i => .next (s.askHolder b a.purpose i)
        | none => .next (s.noAnswer c a.purpose)

/-- Ranks that a member probes (R417). -/
def Binding.probed (b : Binding) : List Nat :=
  b.replicaIx.map b.holder ++ b.wards ++ (if b.jobRank % b.g = 0 then [] else [b.jobRank / b.g * b.g])

/-- PEER_PROBE: a `PROBE` with `ACK_NOW` on one flow to a holder, a shard owner or the group leader (R417). -/
def execPeerProbe (rank : Nat) (now : Nat) (s : State) : Out :=
  let s := s.advance now
  match s.depotJob (fun _ b _ => b.probed.contains rank &&
      (match s.flowTo b rank with | some f => (s.flow f).state == 1 | none => false)) with
  | none => .next s
  | some (c, _, b) => s.inSlotOut c fun s =>
    match s.flowTo b rank with
    | none => .next s
    | some f =>
        let s := if s.coll.probedAt.any (fun q => q.1 == rank) then s
          else s.setColl { s.coll with probedAt := tset s.coll.probedAt rank s.time.lt }
        match s.nextPath f (s.flow f).rotation with
        | some p => .next (s.sendProbe f p)
        | none => .next s

/-- Flows of a context to a rank. -/
def State.flowsTo (s : State) (b : Binding) (rank : Nat) : List Nat := b.flows.filter (fun f => (s.flow f).peerRank == rank)

/-- Has a peer been lost (R417)? -/
def State.peerGone (s : State) (b : Binding) (l : Collective) (rank : Nat) : Bool :=
  let fs := s.flowsTo b rank
  fs.any (fun f => (s.flow f).state == 3) ||
  (b.probed.contains rank && fs != [] &&
    (match l.probedAt.find? (fun q => q.1 == rank) with
     | some q => fs.all (fun f => decide (max q.2 (s.flow f).heard + b.peerLt ≤ s.time.lt))
     | none => false))

/-- PEER_LOST: a peer is declared lost and reported, and what depends on it is resolved (R415, R417). -/
def execPeerLost (rank : Nat) (now : Nat) (s : State) : Out :=
  let s := s.advance now
  match s.depotJob (fun _ b l => !l.lostPeers.contains rank && s.peerGone b l rank) with
  | none => .next s
  | some (c, _, b) => s.inSlotOut c fun s =>
      let first := s.coll.lostPeers = []
      let s := s.setColl { s.coll with lostPeers := s.coll.lostPeers ++ [rank], probedAt := terase s.coll.probedAt rank }
      let s := if first then s.setColl { s.coll with suspends := s.coll.suspends ++ [(s.time.lt, none)] } else s
      let s := (s.bump .peerLost 0 1).notice 6 c rank
      let s := b.replicaIx.foldl (fun s i => if b.holder i = rank then s.loseReplica c i else s) s
      .next s.collProgress

/-- A flow to a lost peer is `OPEN` again (R417, R418): once every flow to it is, the peer is back, and a leader of the job sends
it again a result that it may have missed (R368). -/
def State.peerBack (s : State) (c : Nat) (b : Binding) (rank : Nat) : State :=
  if !s.coll.lostPeers.contains rank || !(s.flowsTo b rank).all (fun f => (s.flow f).state == 1) then s
  else
    let left := s.coll.lostPeers.filter (fun r => r != rank)
    let s := s.setColl { s.coll with
      lostPeers := left
      suspends := if left = [] then s.coll.suspends.map (fun q => (q.1, some (q.2.getD s.time.lt))) else s.coll.suspends }
    match s.coll.last with
    | some (e, v) => if b.resultTo.contains rank && (s.slot c).binding.isSome then s.sendVote b rank 4 e v else s
    | none => s

/-- STATION_RETIRE: a Station that a `STATION_CHECK` named is retired; the Sector is remapped and the Loop reconfigured, or, with no
spare left, every context stops (R106 to R110, R406, R407). It waits for an armed Census that the fault has triggered (R457). -/
def execStationRetire (p : Fin 136) (now : Nat) (s : State) : Out := s.clocked fun s =>
  let s := s.advance now
  let waits := match s.census with | .triggered .. => true | _ => false
  if !s.retireQ.contains p.val || waits || s.flash.retired.contains p.val then .next s
  else
    let carries := (s.logical p).isSome
    let spare := hasSpare s.flash.retired (p / 17)
    let s := { s with retireQ := s.retireQ.filter (fun q => q != p.val) }
    let s := s.setFlash { s.flash with retired := s.flash.retired ++ [p.val] }
    let s := (s.bump .depRetired 0 1).clearLoop
    if !carries || spare then .next s
    else
      let s := s.report { EvtRec.blank with family := 2, code := 6, scope := scopeModule, pstation := p.val }
      let s := (List.range 8).foldl (fun s c =>
        let st := (s.slot c).state
        if st = .running ∨ st = .recovering ∨ st = .preempted then s.stopContext c else s) s
      .next { s with modState := if s.modState = .ready then .noSpare else s.modState, replay := false,
                     startup := { s.startup with needNoSpare := true } }

/-- STEP_REPLAY: after a retirement the step is replayed: at once where no Class P page has been written since the last Right-away,
after a holder's answer where one is `CURRENT`, and else not at all (R408). -/
def execStepReplay (now : Nat) (s : State) : Out :=
  let s := s.advance now
  let waits := match s.census with | .triggered .. => true | _ => false
  match s.runSlot with
  | none => .next s
  | some c =>
    if !s.replay || s.retireQ != [] || waits || s.coll.asked.isSome || (s.slot c).state != .recovering then .next s
    else
      let s := s.abandon c
      if s.dirtyPages c = [] then .next (s.replayRun c)
      else
        match (s.slot c).binding with
        | none => .next s
        | some b => match s.currentFrom b 1 with
          | some i => .next ({ s with replay := false }.askHolder b 0 i)
          | none => .next (s.noAnswer c 0)

end Sys2Proof.Machine
end

