-- ==== Sys2Proof/Machine/Power.lean ====
section
/-! DEFINITION. Clocks, power and temperature (14_power_clocks_thermal.md): stretches, trims, the three limit loops, the ramp meter,
the governor, Warning Boards, and the stops of R398 and R399. -/

namespace Sys2Proof.Machine

open Sys2Proof

/-! ## Ceilings, books and the power state -/

/-- The lowest of the four ceilings (R378). -/
def Power.lowest (p : Power) : Nat := min (min p.fMax p.fastCeil) (min p.capCeil p.thermCeil)

/-- A ceiling n steps lower, down to 800 MHz; one that does not limit stands at `F_MAX` (R385 to R387; DEDUCED,
notes/assumptions/20.md). -/
def Power.lower (p : Power) (ceil n : Nat) : Nat := max 800 (min ceil p.fMax - 50 * n)

/-- A ceiling one step higher, until it no longer limits (R385 to R387). -/
def Power.higher (p : Power) (ceil : Nat) : Nat := if p.fMax ≤ ceil + 50 then max ceil 2000 else ceil + 50

/-- Q of R389. -/
def Power.quanta (p : Power) : Nat := p.capW / 8

/-- Q_NET of R389. -/
def qNet : Nat := 35

/-- Q_FREE of R389. -/
def Power.qFree (p : Power) : Int := (p.quanta : Int) - (qNet + p.qBase + p.qComp : Nat)

/-- Does any condition of R390 hold? -/
def Power.strained (p : Power) : Bool :=
  decide (32 * p.qFree < (p.quanta : Int)) || decide (p.fastCeil < p.fMax) || decide (p.capCeil < p.fMax) ||
  decide (p.thermCeil < p.fMax)

/-- The power state follows its conditions (R390). -/
def State.settlePower (s : State) : State :=
  let p := s.power
  if p.strained then s.setPower { p with tight := true, calmSince := none }
  else if p.tight ∧ p.calmSince = none then s.setPower { p with calmSince := some s.time.lt }
  else s

/-- The voltage of a Sector's sub-grid, in mV: as calibrated for the operating point in force, with its temporary and lifetime trims and
a Warning Board's pre-trim (R377, R381, R382, R394). -/
def State.sectorMv (s : State) (sector : Nat) : Nat :=
  Config.calibratedMv sector s.power.voltMhz +
  5 * ((tget [] s.power.tempTrims sector).filter (fun t => decide (s.time.lt < t))).length + 5 * tget 0 s.flash.lifeTrim sector +
  (if s.power.boards.any (fun b => decide (s.time.lt < b.endLt)) then 10 else 0)

/-- The fast ceiling falls n steps and f_set follows at once, unmetered, and the voltage after it (R377, R378, R379, R385). -/
def State.dropFast (s : State) (n : Nat) : State :=
  let p := s.power
  let c := p.lower p.fastCeil n
  let s := s.setPower { p with fastCeil := c, fSet := min p.fSet c, voltMhz := if c < p.voltMhz then min p.fSet c else p.voltMhz }
  (s.bump .freqSteps 0 ((p.fSet - min p.fSet c) / 50)).settlePower

/-- Does a window of n lt end at this instant (R383)? -/
def State.windowEnds (s : State) (n : Nat) : Bool := s.timeRuns && s.time.lt % n == 0

/-! ## Stretch, margin and age -/

/-- The temporary trims of a Sector once one more is given: at most 4 stack, and a fifth renews the one that would lapse first
(R381). -/
def addTrim (trims : List Nat) (lapse : Nat) : List Nat := (if trims.length < 4 then trims else trims.drop 1) ++ [lapse]

/-- A temporary trim of +5 mV for a Sector, for 10 ms (R381). -/
def State.trim (s : State) (sector : Nat) : State :=
  s.setPower { s.power with tempTrims := tset s.power.tempTrims sector (addTrim (tget [] s.power.tempTrims sector) (s.time.lt + 10000000)) }

/-- CLOCK_STRETCH_REQUEST: the region's stretch unit grants a stretch of the next period when at most one was granted in the 15
periods before, and else refuses it, which drops the fast ceiling by a step (R379). -/
def execClockStretchRequest (region : Fin 152) (margin0 : Bool) (period now : Nat) (s : State) : Out := s.clocked fun s =>
  let s := s.advance now
  if !s.timeRuns || s.flash.retired.contains region.val then .next s
  else
    let s := if margin0 && decide (region.val < 136) then s.trim (region.val / 17) else s
    let recent := (tget [] s.power.stretches region).filter (fun q => decide (period < q + 16))
    if recent.length ≤ 1 then
      let s := s.setPower { s.power with stretches := tset s.power.stretches region (recent ++ [period]) }
      .next (s.bump .clkStretch region 1)
    else .next ((s.bump .clkStretchDenied region 1).dropFast 1)

/-- MARGIN_WARN: a replica has reported a code of 2 or less for 1,024 sc (R381). -/
def execMarginWarn (p : Fin 136) (now : Nat) (s : State) : Out := s.clocked fun s =>
  let s := s.advance now
  if !s.timeRuns || s.flash.retired.contains p.val then .next s
  else .next ((s.bump .marginWarn p 1).trim (p / 17))

/-- TRIM_LAPSE: the temporary trims of a Sector whose 10 ms have passed lapse (R381). -/
def execTrimLapse (sector : Fin 8) (now : Nat) (s : State) : Out :=
  let s := s.advance now
  .next (s.setPower { s.power with
    tempTrims := tset s.power.tempTrims sector ((tget [] s.power.tempTrims sector).filter (fun t => decide (s.time.lt < t))) })

/-- AGEING_MEASURE: each further 0.5 % of slowdown earns a lifetime trim step, up to 16, and then lowers the top operating point
(R382). -/
def execAgeingMeasure (sector : Fin 8) (steps : Nat) (now : Nat) (s : State) : Out :=
  let s := s.advance now
  let f := s.flash
  let held := tget 0 f.lifeTrim sector
  let fresh := steps - tget 0 f.slowdown sector
  let trims := min fresh (16 - held)
  let top := max 800 (f.topOpMhz - 50 * (fresh - trims))
  let s := s.setFlash { f with
    slowdown := tset f.slowdown sector (max steps (tget 0 f.slowdown sector)), lifeTrim := tset f.lifeTrim sector (held + trims),
    topOpMhz := top }
  let s := s.bump .marginExhausted 0 ((f.topOpMhz - top) / 50)
  .next (s.setPower { s.power with fMax := min s.power.fMax top }).settlePower

/-! ## The limit loops -/

/-- FAST_LIMIT_WINDOW: the end of a 2 µs window (R384, R385). -/
def execFastLimitWindow (avg : Nat) (surge : Bool) (now : Nat) (s : State) : Out := s.clocked fun s =>
  let s := s.advance now
  if !s.windowEnds 2000 then .next s
  else
  let s := s.setPower { s.power with avgFast := avg }
  if decide (1100 * s.power.capW < avg) || surge then
    let s := s.bump .fastLimit 0 (if s.power.fastOn then 0 else 1)
    .next ((s.setPower { s.power with fastOn := true }).dropFast 4)
  else .next (s.setPower { s.power with fastOn := false })

/-- FAST_CEILING_RISE: 10 µs after its last rise, with the average of the last whole 2 µs window at or below `CAP_W`, the fast ceiling
rises a step (R383, R385). -/
def execFastCeilingRise (avg now : Nat) (s : State) : Out := s.clocked fun s =>
  let s := s.advance now
  let s := if s.windowEnds 2000 then s.setPower { s.power with avgFast := avg } else s
  let p := s.power
  if !s.timeRuns || decide (1000 * p.capW < p.avgFast) || decide (p.fMax ≤ p.fastCeil) || decide (s.time.lt < p.fastRose + 10000) then .next s
  else .next (s.setPower { p with fastCeil := p.higher p.fastCeil, fastRose := s.time.lt }).settlePower

/-- The cap loop's answer to the average power of its window, in mW (R386). -/
def Power.capLoop (p : Power) (avg : Nat) : Power :=
  let cap := 1000 * p.capW
  if cap < avg then
    let steps := ceilDiv (avg - cap) 110000
    let ceil := p.lower p.capCeil steps
    let excess := (avg - cap) - 110000 * ((min p.capCeil p.fMax - ceil) / 50)
    { p with capCeil := ceil, admTarget := max 8 (p.admTarget - ceilDiv excess 20000) }
  else if 100 * avg < 95 * cap then
    if p.admTarget < 16 then { p with admTarget := p.admTarget + 1 }
    else if p.energyPrev + 2500 * p.capW < p.energyWin ∨ p.fMax ≤ p.capCeil then p
    else { p with capCeil := p.higher p.capCeil }
  else p

/-- CAP_WINDOW: the end of a 50 µs window: the cap loop, the books and the energy counter (R383, R386, R389). -/
def execCapWindow (avg rail island comp joules : Nat) (now : Nat) (s : State) : Out :=
  let s := s.advance now
  if !s.windowEnds 50000 then .next s
  else
    let s := s.bump .pwrInputJ 0 joules
    let s := s.bump .capWindowsOver 0 (if 1000 * s.power.capW < avg then 1 else 0)
    let p := s.power.capLoop avg
    let p := { p with qBase := ceilDiv (avg - rail - island) 8000, qComp := ceilDiv comp 8000, lastAvg := avg, sumMs := p.sumMs + avg,
                      energyPrev := p.energyWin, energyWin := 0 }
    let bad := decide (p.qFree < 0) && p.fSet == 800 && p.admission == 8
    .next (s.setPower { p with booksBad := if bad then p.booksBad + 1 else 0 }).settlePower

/-- What the thermal loop takes for a point over its window: the hottest reading, or, for a failed point of a Station, the hottest
remaining one of that Station plus 3 °C (R387, R397). -/
def Power.pointPeak (p : Power) (i : Nat) : Option Int :=
  let x := tget Point.init p.points i
  if !x.failed then some x.peak
  else if i < 1088 then
    let rest := ((List.range 8).map (fun n => tget Point.init p.points (i / 8 * 8 + n))).filter (fun y => !y.failed)
    (rest.map (fun y => y.peak)).max?.map (fun t => t + 24)
  else none

/-- The hottest of the points that the state lists; a point that it does not list reads as at reset. -/
def Power.hottest (p : Power) : Int :=
  (p.points.filterMap (fun q => p.pointPeak q.1)).foldl max Point.init.peak

/-- The thermal ceiling after a window whose hottest point was `t`, in 1/8 °C (R387). -/
def Power.thermLoop (p : Power) (t : Int) : Nat :=
  if 824 ≤ t then p.lower p.thermCeil 4
  else if 800 ≤ t then p.lower p.thermCeil 1
  else if 776 < t then p.thermCeil
  else if p.fMax ≤ p.thermCeil then p.thermCeil
  else p.higher p.thermCeil

/-- THERMAL_WINDOW: the end of a 1 ms window (R387). -/
def execThermalWindow (now : Nat) (s : State) : Out :=
  let s := s.advance now
  if !s.windowEnds 1000000 then .next s
  else
    let p := s.power
    let s := s.bump .throttleMs 0 (if p.thermCeil < p.fMax then 1 else 0)
    .next (s.setPower { p with thermCeil := p.thermLoop p.hottest, avgMs := p.sumMs / 20, sumMs := 0
                               points := p.points.map (fun q => (q.1, { q.2 with peak := q.2.reading })) }).settlePower

/-! ## The ramp meter and the governor -/

/-- Position of a logical Station in the floor list, of which entry m is Station 16 (m mod 8) + m div 8 (R393). -/
def floorPos (k : Nat) : Nat := 8 * (k % 16) + k / 16

/-- A Station change waits at the meter: in order of request, and at one instant in floor-list order (R391). -/
def meterInsert : List MeterReq → MeterReq → List MeterReq
  | [], r => [r]
  | q :: t, r =>
    if r.since < q.since ∨ (r.since = q.since ∧ floorPos r.k < floorPos q.k) then r :: q :: t else q :: meterInsert t r

def Power.ask (p : Power) (since k : Nat) (rise : Bool) : Power :=
  { p with meterQ := meterInsert p.meterQ { since := since, k := k, rise := rise } }

/-- May a change in this direction be granted now (R391)? -/
def Power.meterFree (p : Power) (rise : Bool) (lt : Nat) : Bool := decide ((if rise then p.meterUp else p.meterDown) ≤ lt)

/-- A change of cost c makes the next in its direction wait (R391). -/
def Power.charge (p : Power) (rise : Bool) (lt c : Nat) : Power :=
  if rise then { p with meterUp := lt + p.meterWait c } else { p with meterDown := lt + p.meterWait c }

/-- RAMP_METER_GRANT: the first waiting change whose schedule is free: an operating-point step, an admission step, a Station change
(R378, R391). In a step down the frequency falls and the voltage follows. In a step up the voltage rises, and 1 µs later the frequency
follows, unless a ceiling has come down meanwhile (R377). -/
def execRampMeterGrant (now : Nat) (s : State) : Out := s.clocked fun s =>
  let s := s.advance now
  let p := s.power
  let lt := s.time.lt
  if s.startup.phase ≠ .up then .next s
  else if p.fSet < p.voltMhz ∧ p.lowest < p.voltMhz then .next (s.setPower { p with voltMhz := p.fSet })
  else if p.fSet < p.voltMhz ∧ p.voltAt + 1000 ≤ lt then
    .next ((s.setPower { p with fSet := p.voltMhz }).bump .freqSteps 0 1)
  else if p.lowest < p.fSet ∧ p.meterFree false lt = true then
    .next ((s.setPower ({ p with fSet := p.fSet - 50, voltMhz := p.fSet - 50 }.charge false lt 110)).bump .freqSteps 0 1)
  else if p.voltMhz ≤ p.fSet ∧ p.fSet < p.lowest ∧ p.meterFree true lt = true then
    .next (s.setPower ({ p with voltMhz := p.fSet + 50, voltAt := lt }.charge true lt 110))
  else if p.admTarget < p.admission ∧ p.meterFree false lt = true then
    .next (s.setPower ({ p with admission := p.admission - 1 }.charge false lt 20))
  else if p.admission < p.admTarget ∧ p.meterFree true lt = true then
    .next (s.setPower ({ p with admission := p.admission + 1 }.charge true lt 20))
  else
    match p.meterQ.find? (fun r => p.meterFree r.rise lt) with
    | none => .next s
    | some r =>
      let p := { p with meterQ := p.meterQ.filter (fun q => q != r)
                        active := if r.rise then numInsert p.active r.k else numErase p.active r.k }
      .next (s.setPower (p.charge r.rise lt 20))

/-- Is Station k held active by the floor, or as pre-ramped (R393, R394)? -/
def State.heldActive (s : State) (k : Nat) : Bool :=
  decide (floorPos k < s.power.floor) || s.power.boards.any (fun b => b.raised.contains k && decide (s.time.lt < b.endLt))

/-- Contributions of stage 1 that are missing at a group owner (R351, R396). -/
def State.stageMissing (s : State) (c : Nat) (img : Image) (b : Binding) (id unit : Nat) : Bool :=
  let u := img.unit unit
  let e := s.stepEpoch c
  u.groupOwner b.g b.jobRank == b.jobRank && !s.coll.groupSums.any (fun q => q.1 == unit) &&
  !((b.group b.jobRank).filter (u.heldBy b.g)).all (fun r => s.coll.arrivals.any (fun x => x.same e id unit 0 r && x.full u))

/-- Are Stations held active through a straggler wait (R396)? -/
def State.straggleHeld (s : State) : Bool :=
  s.power.straggleHold &&
  (match s.job with
   | none => false
   | some (c, img, b) =>
     (List.range img.collCount).any (fun id =>
       let d := img.coll id
       let begun := s.coll.runs.any (fun r => r.id == id) || (match (s.slot c).run with | some r => r.sect == d.sect | none => false)
       let due := match s.collEpoch c img id with | some e => begun && decide (e + d.due1 ≤ s.time.lt) | none => false
       d.kind != 1 && !s.coll.cut.contains d.sect && (due || s.coll.lateColls.contains id) &&
       d.units.any (fun u => s.stageMissing c img b id u)))

/-- Does a change of Station k wait at the meter? -/
def Power.asked (p : Power) (k : Nat) : Bool := p.meterQ.any (fun r => r.k == k)

/-- STATION_FALL_REQUEST: an active Station that nothing holds has entered no valid row for 2,048 sc (R393, R396). -/
def execStationFallRequest (k : Fin 128) (t : Tick) (s : State) : Out := s.clocked fun s =>
  let s := s.advance t.lt
  match s.phys k with
  | none => .next s
  | some p =>
    let s := s.advanceSc p t.sc
    let w := s.power
    if !w.active.contains k.val || w.asked k || s.heldActive k || s.straggleHeld ||
        decide (s.cycle p < tget 0 w.validSc k + 2048) then .next s
    else .next (s.setPower (w.ask s.time.lt k false))

/-- Is Station k the next that a Warning Board raises: the first quiet one in floor-list order that does not wait, with the target
not reached (R394)? -/
def State.preRamps (s : State) (k : Nat) (b : Board) : Bool :=
  let w := s.power
  decide (b.rampLt ≤ s.time.lt ∧ s.time.lt < b.endLt) &&
  decide (w.active.length + (w.meterQ.filter (fun r => r.rise)).length < b.want) &&
  (List.range 128).all (fun i => w.active.contains i || w.asked i || (s.phys i).isNone || decide (floorPos k ≤ floorPos i))

/-- STATION_RISE_REQUEST: a quiet Station has a row ready, is held by the floor, or is next in a pre-ramp (R393, R394). -/
def execStationRiseRequest (k : Fin 128) (now : Nat) (s : State) : Out := s.clocked fun s =>
  let s := s.advance now
  let w := s.power
  match s.phys k with
  | none => .next s
  | some p =>
    let ready := (s.nextRow k p (s.cycle p)).some || (ballastAt (s.station k)).isSome
    let ramp := w.boards.any (s.preRamps k)
    if w.active.contains k.val || w.asked k || !s.timeRuns || !(ready || decide (floorPos k < w.floor) || ramp) then .next s
    else
      let boards := w.boards.map (fun b => if s.preRamps k b then { b with raised := b.raised ++ [k.val] } else b)
      .next (s.setPower ({ w with boards := boards }.ask s.time.lt k true))

/-- POWER_STATE_RELAX: 200 µs after its last condition ended, the power state is no longer tight (R390), and the counts of R164 start
again. -/
def execPowerStateRelax (now : Nat) (s : State) : Out :=
  let s := s.advance now
  match s.power.calmSince with
  | some t =>
    if t + 200000 ≤ s.time.lt then
      .next ((s.setPower { s.power with tight := false, calmSince := none }).mapStations (fun st =>
        { st with lines := st.lines.map (fun q => (q.1, { q.2 with passedFrom := none })) }))
    else .next s
  | none => .next s

/-- PRE_RAMP_HOLD_END: at S + `DURATION` a Warning Board is over: its pre-trim lapses and its Stations follow R393 again (R394). -/
def execPreRampHoldEnd (now : Nat) (s : State) : Out :=
  let s := s.advance now
  .next (s.setPower { s.power with boards := s.power.boards.filter (fun b => decide (s.time.lt < b.endLt)) })

/-! ## Temperature and the stops -/

/-- A point fails (R397): it counts, and with all 8 of a physical Station failed the Station is retired. -/
def State.failPoint (s : State) (i : Nat) : State :=
  let x := tget Point.init s.power.points i
  let s := s.setPower { s.power with points := tset s.power.points i { x with failed := true } }
  let s := s.bump .tempSensorFail 0 1
  let p := i / 8
  if i < 1088 ∧ (List.range 8).all (fun n => (tget Point.init s.power.points (8 * p + n)).failed) = true ∧
      s.flash.retired.contains p = false then
    s.stationCheck p 3 { EvtRec.blank with lstation := (s.logical p).getD 255 }
  else s

/-- TEMP_CONVERSION: a point is converted; outside −40 °C to 150 °C, or without an update for 3 conversions, it fails (R397). -/
def execTempConversion (point : Fin 1280) (reading : Option Int) (now : Nat) (s : State) : Out :=
  let s := s.advance now
  let x := tget Point.init s.power.points point
  if !s.timeRuns || x.failed then .next s
  else
    match reading with
    | none =>
      let s := s.setPower { s.power with points := tset s.power.points point { x with missed := x.missed + 1 } }
      .next (if 3 ≤ x.missed + 1 then s.failPoint point else s)
    | some r =>
      if r < -320 ∨ 1200 < r then .next (s.failPoint point)
      else .next (s.setPower { s.power with
        points := tset s.power.points point { x with reading := r, missed := 0, peak := max x.peak r } })

/-- The Interchange die on which a point lies (R21). -/
def pointDie (i : Nat) : Option Nat := if 1184 ≤ i ∧ i < 1232 then some ((i - 1184) / 24) else none

/-- The compute die's clocks stop, with Interchange dies `dies`, and every running context stops (R398, R399). -/
def State.powerDown (s : State) (dies : List Nat) (fault : Bool) : State :=
  let s := (List.range 8).foldl (fun s c =>
    let st := (s.slot c).state
    if st = .running ∨ st = .recovering then s.stopContext c else s) s
  { s.setPower { s.power with compStopped := true, dieStopped := dies.foldl numInsert s.power.dieStopped,
                              powerStop := s.power.powerStop || fault } with
    modState := .stopped }

/-- THERMAL_TRIP: a point that has not failed is at or above 105 °C (R398). -/
def execThermalTrip (point : Fin 1280) (now : Nat) (s : State) : Out :=
  let s := s.advance now
  if !s.timeRuns || (tget Point.init s.power.points point).failed then .next s
  else
    let s := s.report { EvtRec.blank with family := 6, code := 0, scope := scopeModule, loc := point.val }
    .next (s.powerDown (pointDie point).toList false)

/-- POWER_FAULT: the input is out of range, a regulator reports a fault, or the books have failed (R389, R399, R474). -/
def execPowerFault (reason : Fin 4) (mv : Nat) (now : Nat) (s : State) : Out :=
  let s := s.advance now
  let s := if reason = 1 then s.setStartup { s.startup with inputMv := mv } else s
  let holds := (reason = 1 ∧ (mv < 48000 ∨ 58000 < mv)) ∨ reason = 2 ∨ (reason = 3 ∧ 2 ≤ s.power.booksBad)
  if s.timeRuns = true ∧ holds then
    let s := s.report { EvtRec.blank with family := 7, code := 0, scope := scopeModule, loc := reason.val }
    .next (s.powerDown [0, 1] true)
  else .next s

end Sys2Proof.Machine
end

