-- ==== Sys2Proof/Machine/Startup.lean ====
section
/-! DEFINITION. Start-up, resets, the PCIe links and the control pins (17_startup_reset_identity.md, 18_connectors_ratings.md,
R284). -/

namespace Sys2Proof.Machine

open Sys2Proof

/-! ## Resets -/

/-- Temperature points after a warm or cold reset: failed ones are read again (R397). -/
def Power.freshPoints (p : Power) : Table Point := p.points.map (fun q => (q.1, { q.2 with failed := false, missed := 0 }))

/-- A link whose function has been reset with the rails going down: it waits for them (R466). -/
def Pcie.dark (l : Pcie) : Pcie := { l with readyFrom := none, up := false, configured := false }

/-- The machine with everything that a cold reset clears at its value after a cold start, in the power-up phase `ph` (R467,
R468); the reset is counted in the identity block (R469). -/
def State.coldTo (s : State) (ph : Phase) (cause : Nat) : State :=
  { State.reset with
    pending := s.pending, part := s.part
    startup := { s.startup with phase := ph, selfTest := false, tierDone := [], needNoSpare := false }
    flash := { s.flash with lastReset := 2, resetCause := cause, framesAtStart := 0, stationsAtStart := 0 }
    power := { Power.init with fMax := min 1800 s.flash.topOpMhz, points := s.power.freshPoints }
    pcie := s.pcie.map (fun q => (q.1, q.2.dark))
    hostMem := s.hostMem, txFrames := s.txFrames, msixSent := s.msixSent, mctpSent := s.mctpSent, freeIx := s.freeIx }

/-- The machine after a warm reset, in self-test (R467, R468): contexts, flows and Depot copies are gone, every frame is free, queue
blocks, the event ring's registers, the MSI-X table and the Census are cleared; the rest stays. -/
def State.warmReset (s : State) (cause : Nat) : State :=
  let s := s.retireWaiting
  { s with
    modState := .training
    startup := { s.startup with phase := .training, selfTest := false, tierDone := [0, 1, 2], needNoSpare := false }
    flash := { s.flash with lastReset := 1, resetCause := cause, framesAtStart := 0, stationsAtStart := 0 }
    power := { s.power with meterQ := [], boards := [], active := [], validSc := [], compStopped := false, dieStopped := [],
                            powerStop := false, points := s.power.freshPoints, booksBad := 0 }
    queues := [], fetchSeq := 0, pass := 0, mctpData := []
    evt := { EventRing.init with buffer := s.evt.buffer, seq := s.evt.seq, faultLost := s.evt.faultLost }
    vectors := [], census := .idle, slots := [], stations := [], hops := [], turns := [], turnOut := [], flows := []
    tiers := { s.tiers with map := [], homes := [], t3Retired := [], draining := [] }
    shunter := State.reset.shunter
    coll := { Collective.init with strag := s.coll.strag, stragAt := s.coll.stragAt, stragLost := s.coll.stragLost }
    collSlot := none, parked := []
    retireQ := [], replay := false }

/-- The module after a `RESET` with `KIND` 2 (R467). -/
def State.coldReset (s : State) (cause : Nat) : State := s.retireWaiting.coldTo .mainRails cause

/-- Does any point that has not failed read above 90 °C (R398, R438)? -/
def State.hot (s : State) : Bool := s.power.points.any (fun q => !q.2.failed && decide (720 < q.2.reading))

/-- May a warm (or, with `cold`, a cold) reset leave the state the module is in (R398, R438, R467)? -/
def State.resetLeaves (s : State) (cold : Bool) : Bool :=
  s.modState != .stopped || (if s.power.powerStop then cold else !s.hot)

/-- Is the module past its power-up (R467)? -/
def ModState.settled : ModState → Bool
  | .resetting | .training => false
  | _ => true

/-! ## Power-up -/

/-- An input within 48 V to 58 V (R474). -/
def inRange (mv : Nat) : Bool := decide (48000 ≤ mv ∧ mv ≤ 58000)

/-- POWER_UP_BEGIN: with the rails off, the input in range and MOD_RESET# released (R459, R474). -/
def execPowerUpBegin (mv : Nat) (s : State) : Out :=
  if s.startup.phase = .off ∧ inRange mv = true ∧ s.startup.modResetLow = false then
    .next { s with startup := { s.startup with phase := .inrush, inputMv := mv } }
  else .next s

/-- INRUSH_COMPLETE: the input capacitance is charged, and the standby phase begins (R475). -/
def execInrushComplete (s : State) : Out :=
  if s.startup.phase = .inrush then .next { s with startup := { s.startup with phase := .standby } } else .next s

/-- STANDBY_COMPLETE: flash is read, and the main rails are sequenced; MOD_RESET# low holds the module in standby (R459, R461). -/
def execStandbyComplete (s : State) : Out :=
  if s.startup.phase = .standby ∧ s.startup.modResetLow = false then
    .next { s with startup := { s.startup with phase := .mainRails } }
  else .next s

/-- MAIN_RAILS_COMPLETE: `STATE` is `TRAINING`, line time starts at 0, FREE, and links whose PERST# is deasserted may train (R459,
R460, R466). -/
def execMainRailsComplete (s : State) : Out :=
  if s.startup.phase = .mainRails then
    .next { s with
      startup := { s.startup with phase := .training }, modState := .training, time := TimeKeeper.init
      pcie := [0, 1].foldl (fun t i =>
        let l := tget Pcie.init t i
        if l.perstLow then t else tset t i { l with readyFrom := some 0 }) s.pcie }
  else .next s

/-- With every phase done the module is `READY`, or `NO_SPARE` where a logical number has no physical Station (R407, R459,
R462). -/
def State.checkReady (s : State) : State :=
  if s.startup.phase = .training ∧ s.startup.selfTest = true ∧ [0, 1, 2].all s.startup.tierDone.contains = true then
    let short := s.startup.needNoSpare || (List.range 128).any (fun k => (s.phys k).isNone)
    { s with startup := { s.startup with phase := .up }, modState := if short then .noSpare else .ready }
  else s

/-- A Station that fails its self-test is retired (R406, R407, R462). -/
def State.retireAtStart (s : State) (p reason : Nat) : State :=
  if s.flash.retired.contains p then s
  else
    let lost := (s.logical p).isSome && !hasSpare s.flash.retired (p / 17)
    let s := s.report { EvtRec.blank with
      family := 2, code := reason, scope := scopeStation, pstation := p, lstation := (s.logical p).getD 255 }
    let s := s.setFlash { s.flash with retired := s.flash.retired ++ [p], stationsAtStart := s.flash.stationsAtStart + 1 }
    let s := s.bump .depRetired 0 1
    if lost then
      let s := s.report { EvtRec.blank with family := 2, code := 6, scope := scopeModule, pstation := p }
      s.setStartup { s.startup with needNoSpare := true }
    else s

/-- SELFTEST_COMPLETE: Stations that failed a test, or of which a point read out of range, are retired, the others are ready; such a
point has failed (R397, R462). -/
def execSelftestComplete (fails : List (Fin 136 × Fin 8)) (hot : List (Fin 1280)) (now : Nat) (s : State) : Out :=
  let s := s.advance now
  if s.startup.phase ≠ .training ∨ s.startup.selfTest = true then .next s
  else
    let s := hot.foldl (fun s i =>
      (s.setPower { s.power with points := tmodify Point.init s.power.points i (fun x => { x with failed := true }) }).bump
        .tempSensorFail 0 1) s
    let s := fails.foldl (fun s q => if 1 ≤ q.2.val ∧ q.2.val ≤ 4 then s.retireAtStart q.1 q.2 else s) s
    let s := hot.foldl (fun s i => if i.val < 1088 then s.retireAtStart (i / 8) 3 else s) s
    .next (s.setStartup { s.startup with selfTest := true }).checkReady

/-- TIER_TRAINING_COMPLETE: a tier is trained and zeroed; frames in error are retired (R282, R459, R463). -/
def execTierTrainingComplete (tier : Fin 3) (bad : List Nat) (now : Nat) (s : State) : Out :=
  let s := s.advance now
  if s.startup.phase ≠ .training ∨ s.startup.tierDone.contains tier.val = true then .next s
  else if bad.any (fun f => decide (s.tierFrames tier ≤ f)) then .fault .noFrame
  else
    let before := s.flash.retiredFrames.length
    let s := bad.foldl (fun s f => s.retireFrame tier f) s
    let s := s.setFlash { s.flash with framesAtStart := s.flash.framesAtStart + (s.flash.retiredFrames.length - before) }
    .next (s.setStartup { s.startup with tierDone := numInsert s.startup.tierDone tier }).checkReady

/-- INPUT_SHUTDOWN: below 46 V or above 60 V every rail is shut down (R461, R474). -/
def execInputShutdown (mv : Nat) (s : State) : Out :=
  if s.startup.phase ≠ .off ∧ (mv < 46000 ∨ 60000 < mv) then
    let s := s.coldTo .off 0
    .next { s with startup := { s.startup with inputMv := mv, i3cDyn := none } }
  else .next s

/-- MOD_RESET: MOD_RESET# has been low for `ns`: 10 µs or more is a cold reset, and the module stays in standby while the pin stays
low (R461, R478). -/
def execModReset (ns : Nat) (held : Bool) (s : State) : Out :=
  if ns < 10000 then .next s
  else
    let s := if s.startup.phase = .off ∨ s.startup.phase = .inrush then s else s.coldTo .standby 1
    .next { s with startup := { s.startup with modResetLow := held } }

/-! ## PCIe links -/

/-- A function has been reset, by PERST#, Hot Reset or FLR: a reset of the link makes it train again, and with
both links down `LINK_DOWN` is raised (R284, R466, R467). -/
def State.resetLink (s : State) (i : Nat) (cause : Fin 3) : State :=
  let l := s.link i
  let ready := if s.timeRuns then some s.time.lt else none
  let was := s.tier3Up
  let s := match cause with
    | 0 => s.setLink i { perstLow := true, readyFrom := none, up := false, configured := false }
    | 1 => s.setLink i { l with readyFrom := ready, up := false, configured := false }
    | 2 => s.setLink i { l with configured := false }
  if was && !s.tier3Up then s.report { EvtRec.blank with family := 4, code := 0, scope := scopeNone, loc := i } else s

/-- PERST_DEASSERT: with the rails up the link leaves Detect (R466). -/
def execPerstDeassert (link : Fin 2) (now : Nat) (s : State) : Out :=
  let s := s.advance now
  let l := s.link link
  if l.perstLow then
    .next (s.setLink link { l with perstLow := false, readyFrom := if s.timeRuns then some s.time.lt else none })
  else .next s

/-- Line time from which a function answers, after the link could leave Detect at `t`: a free value of at most 100 ms (R466;
notes/assumptions/6.md). -/
def linkReady (link t : Nat) : Nat := t + Config.freeValue (2 ^ 128 + 2 * t + link) % 100000001

/-- PCIE_CONFIG_REQUEST: answered once the function is ready, and until then completed with Request Retry Status (R466). -/
def execPcieConfigRequest (link : Fin 2) (now : Nat) (s : State) : Out :=
  let s := s.advance now
  let l := s.link link
  match l.readyFrom with
  | some t => if linkReady link t ≤ s.time.lt then .next (s.setLink link { l with up := true, configured := true }) else .next s
  | none => .next s

/-- PCIE_LINK_DOWN: the other link carries the Tier 3 traffic; with both down `LINK_DOWN` is raised (R284). -/
def execPcieLinkDown (link : Fin 2) (now : Nat) (s : State) : Out :=
  let s := s.advance now
  let l := s.link link
  if !l.up then .next s
  else
    let s := s.setLink link { l with up := false }
    if s.tier3Up then .next s
    else .next (s.report { EvtRec.blank with family := 4, code := 0, scope := scopeNone, loc := link.val })

/-- PCIE_LINK_UP: a link that was down returns (R284). -/
def execPcieLinkUp (link : Fin 2) (now : Nat) (s : State) : Out :=
  let s := s.advance now
  let l := s.link link
  if l.readyFrom.isSome then .next (s.setLink link { l with up := true }) else .next s

/-- Commands of the management queue end with `ABORTED` where a PCIe reset takes the module with it; those of the host queues go with
their rings (R438, R457). -/
def State.endManagement (s : State) : State := s.endCommands (fun q _ => q == 8) 0x2005

/-- PCIE_RESET_PRIMARY: a warm reset; before `READY`, and where only another reset leaves `STOPPED`, the link alone is reset (R438,
R467). -/
def execPcieResetPrimary (cause : Fin 3) (now : Nat) (s : State) : Out :=
  let s := (s.advance now).resetLink 0 cause
  if s.modState.settled && s.resetLeaves false then .next (s.endManagement.warmReset 3) else .next s

/-- PCIE_RESET_SECONDARY: link 1 trains again, and Tier 3 uses link 0 meanwhile (R467). -/
def execPcieResetSecondary (cause : Fin 3) (now : Nat) (s : State) : Out :=
  let s := (s.advance now).resetLink 1 cause
  .next (s.setFlash { s.flash with lastReset := 3, resetCause := 3 })

/-! ## Pins -/

/-- I3C_DYNAMIC_ADDRESS: the module takes a dynamic address on the I3C bus (R478). -/
def execI3cDynamicAddress (a : BitVec 7) (s : State) : Out :=
  if s.startup.phase = .off ∨ s.startup.phase = .inrush then .next s
  else .next { s with startup := { s.startup with i3cDyn := some a.toNat } }

/-- The SMBus address, which is also the I3C static address (R478). -/
def State.smbusAddress (s : State) : Nat := 0x40 + s.startup.straps

/-- Is `ALERT#` driven low (R478)? -/
def State.alert (s : State) : Bool :=
  s.modState == .stopped || s.modState == .noSpare || s.evt.faultLost || s.evt.buffer != []

end Sys2Proof.Machine
end

