-- ==== Sys2Proof/Machine/Registers.lean ====
section
/-! DEFINITION. BAR0 (R426), the queues' rings (R427 to R430), MSI-X, the event ring's registers (R451) and the identity block
(R469). -/

namespace Sys2Proof.Machine

open Sys2Proof

/-- n bytes from fields (offset, size, value), little-endian (R12); bytes that no field covers are zero. -/
def packBytes (n : Nat) (fs : List (Nat × Nat × Nat)) : List Byte :=
  leBytes n ((fs.map (fun q => q.2.2 % 2 ^ (8 * q.2.1) * 2 ^ (8 * q.1))).sum)

/-! ## Identity -/

/-- `ORDER_CODE` in ASCII (R469). -/
def Part.code : Part → List Nat
  | .m2b => [0x5A, 0x54, 0x39, 0x2D, 0x4D, 0x32, 0x42]
  | .m1b => [0x5A, 0x54, 0x39, 0x2D, 0x4D, 0x31, 0x42]
  | .m2a => [0x5A, 0x54, 0x39, 0x2D, 0x4D, 0x32, 0x41]

/-- A map with bit i where `p i` holds, for i below n. -/
def bitMap (n : Nat) (p : Nat → Bool) : Nat := ((List.range n).map (fun i => if p i then 2 ^ i else 0)).sum

/-- The 256 bytes of the identity block (R469). -/
def State.identity (s : State) : List Byte :=
  let f := s.flash
  packBytes 256
    ([(0x00, 2, 0x0001), (0x02, 2, 0x6B7C), (0x04, 2, 0x0109), (0x06, 1, if s.isA1 then 0xA1 else 0xB0), (0x07, 1, s.profile),
      (0x08, 16, leNat (s.part.code.map (BitVec.ofNat 8))), (0x18, 16, leNat f.serial),
      (0x28, 4, if s.part = .m1b then 1024 else 2048),
      (0x2C, 4, s.inService 0), (0x30, 4, s.inService 1), (0x34, 4, s.inService 2 + s.depotReserved), (0x38, 2, f.topOpMhz)] ++
     [(0x3A, 1, bitMap 8 (fun x => !hasSpare f.retired x)), (0x40, 17, bitMap 136 (fun p => f.retired.contains p)),
      (0x58, 6, f.macBase), (0x60, 1, if f.ownerKey.isSome then 1 else 0), (0x61, 1, if f.requireSigned then 1 else 0),
      (0x70, 48, match f.ownerKey with | some k => leNat (leBytes 48 (Config.sha384 k).toNat).reverse | none => 0),
      (0xA0, 8, place f.framesAtStart 32 + f.stationsAtStart), (0xA8, 1, f.lastReset), (0xA9, 1, f.resetCause)])

/-! ## Queues -/

/-- Entries of a ring of a queue (R427). -/
def Queue.depth (b : Queue) : Nat := 2 ^ b.log2

/-- Replies written and not freed (R427). -/
def Queue.unread (b : Queue) : Nat := (b.cqTail + b.depth - b.cqHead) % b.depth

/-- Free reply entries: with the replies not freed and the commands not replied they make depth − 1 (R427). -/
def Queue.free (b : Queue) : Nat := b.depth - 1 - b.unread - b.cmds.length

/-- May the next header be fetched (R427)? -/
def Queue.canFetch (b : Queue) : Bool := b.enable && !b.error && b.sqHead != b.sqTail && decide (0 < b.free)

/-- A doorbell write: a value at or above the depth sets `ERROR` (R427). It does nothing while the queue is disabled. -/
def Queue.doorbell (b : Queue) (v : Nat) : Queue :=
  if !b.enable then b else if b.depth ≤ v then { b with error := true } else { b with sqTail := v }

/-- A write of `CQ_HEAD`: replies up to it are free; a value that no unread reply lies before is not an advance
(notes/assumptions/21.md). -/
def Queue.freeTo (b : Queue) (v : Nat) : Queue :=
  if v < b.depth ∧ (v + b.depth - b.cqHead) % b.depth ≤ b.unread then { b with cqHead := v } else b

/-- A write of `Q_CFG` (R427): the depth is taken only while the queue is disabled and not busy, setting `ENABLE` zeroes the
pointers, and clearing it clears `ERROR`. A depth outside 4 to 12 enables nothing (notes/assumptions/21.md). -/
def Queue.configure (b : Queue) (v : Nat) : Queue :=
  let log2 := if !b.enable ∧ b.cmds = [] then field v 3 0 else b.log2
  let b := { b with log2 := log2, vec := field v 13 8 }
  if bit v 31 then
    if b.enable || !decide (4 ≤ log2 ∧ log2 ≤ 12) then b
    else { b with enable := true, sqHead := 0, sqTail := 0, cqHead := 0, cqTail := 0, phase := true }
  else { b with enable := false, error := false }

/-- One half of an 8-byte register replaced. -/
def setHalf (old : Nat) (high : Bool) (v : Nat) : Nat :=
  if high then old % 2 ^ 32 + v * 2 ^ 32 else old / 2 ^ 32 * 2 ^ 32 + v

/-- A ring's address: 4 KiB-aligned, the bits below read 0 (R426). -/
def alignRing (a : Nat) : Nat := a / 4096 * 4096

/-- A write of one half of `SQ_BASE` or `CQ_BASE`: taken only while the queue is disabled and not busy (R427). -/
def Queue.setBase (b : Queue) (cq high : Bool) (v : Nat) : Queue :=
  if b.enable || b.cmds != [] then b
  else if cq then { b with cqBase := alignRing (setHalf b.cqBase high v) }
  else { b with sqBase := alignRing (setHalf b.sqBase high v) }

/-- `Q_CFG` as it reads (R426). -/
def Queue.cfg (b : Queue) : Nat := place (if b.enable then 1 else 0) 31 + place b.vec 8 + b.log2

/-! ## The event ring -/

/-- A write of `EVT_CFG` (R426, R451); a size outside 6 to 16 enables nothing (notes/assumptions/21.md). -/
def EventRing.configure (e : EventRing) (v : Nat) : EventRing :=
  let log2 := field v 4 0
  { e with vec := field v 13 8, log2 := log2, enable := bit v 31 && decide (6 ≤ log2 ∧ log2 ≤ 16), head := e.head % 2 ^ log2,
           tail := e.tail % 2 ^ log2 }

/-- Records written and not read (R451). -/
def EventRing.unread (e : EventRing) : Nat := (e.tail + e.records - e.head) % e.records

/-- A write of `EVT_HEAD`: records up to it are free (R451). -/
def EventRing.freeTo (e : EventRing) (v : Nat) : EventRing :=
  if v < e.records ∧ (v + e.records - e.head) % e.records ≤ e.unread then { e with head := v } else e

/-- `EVT_CFG` as it reads. -/
def EventRing.cfg (e : EventRing) : Nat := place (if e.enable then 1 else 0) 31 + place e.vec 8 + e.log2

/-! ## BAR0 -/

/-- Can the host reach BAR0 (R466)? -/
def State.barOpen (s : State) : Bool := (s.link 0).up && (s.link 0).configured

/-- A write of the 4 bytes at an aligned offset of BAR0; what is read-only or reserved ignores it (R13, R426). -/
def State.writeWord (s : State) (off v : Nat) : State :=
  if off = 0x110 ∨ off = 0x114 then
    { s with evt := { s.evt with base := alignRing (setHalf s.evt.base (off == 0x114) v) } }
  else if off = 0x118 then { s with evt := s.evt.configure v }
  else if off = 0x11C then { s with evt := s.evt.freeTo v }
  else if 0x1000 ≤ off ∧ off < 0x1200 then
    let q := (off - 0x1000) / 0x40
    match (off - 0x1000) % 0x40 with
    | 0x00 => s.modQueue q (fun b => b.setBase false false v)
    | 0x04 => s.modQueue q (fun b => b.setBase false true v)
    | 0x08 => s.modQueue q (fun b => b.setBase true false v)
    | 0x0C => s.modQueue q (fun b => b.setBase true true v)
    | 0x10 => s.modQueue q (fun b => b.configure v)
    | 0x18 => s.modQueue q (fun b => b.doorbell v)
    | 0x1C => s.modQueue q (fun b => b.freeTo v)
    | _ => s
  else if 0x8000 ≤ off ∧ off < 0x8400 then
    let i := (off - 0x8000) / 16
    let lo := 32 * ((off - 0x8000) / 4 % 4)
    let x := s.vector i
    let w := x.entry.toNat
    s.setVector i { x with entry := BitVec.ofNat 128 (w / 2 ^ (lo + 32) * 2 ^ (lo + 32) + v * 2 ^ lo + w % 2 ^ lo) }
  else s

/-- The 4 bytes at an aligned offset of link 0's BAR0 (R426); what is reserved reads 0 (R13). -/
def State.readWord (s : State) (off : Nat) : Nat :=
  if off < 0x100 then leAt s.identity off 4
  else if off = 0x100 then s.stateWord
  else if off = 0x108 then s.time.lt % 2 ^ 32
  else if off = 0x10C then s.time.lt / 2 ^ 32 % 2 ^ 32
  else if off = 0x110 then s.evt.base % 2 ^ 32
  else if off = 0x114 then s.evt.base / 2 ^ 32
  else if off = 0x118 then s.evt.cfg
  else if off = 0x11C then s.evt.head
  else if off = 0x120 then s.evt.tail
  else if 0x1000 ≤ off ∧ off < 0x1200 then
    let b := s.queue ((off - 0x1000) / 0x40)
    match (off - 0x1000) % 0x40 with
    | 0x00 => b.sqBase % 2 ^ 32
    | 0x04 => b.sqBase / 2 ^ 32
    | 0x08 => b.cqBase % 2 ^ 32
    | 0x0C => b.cqBase / 2 ^ 32
    | 0x10 => b.cfg
    | 0x14 => b.status
    | 0x18 => b.sqTail
    | 0x1C => b.cqHead
    | 0x20 => b.sqHead
    | 0x24 => b.cqTail
    | _ => 0
  else if 0x8000 ≤ off ∧ off < 0x8400 then
    (s.vector ((off - 0x8000) / 16)).entry.toNat / 2 ^ (32 * ((off - 0x8000) / 4 % 4)) % 2 ^ 32
  else if off = 0x9000 then bitMap 32 (fun i => (s.vector i).pending)
  else if off = 0x9004 then bitMap 32 (fun i => (s.vector (32 + i)).pending)
  else 0

/-- Is an access to BAR0 4 or 8 bytes wide and naturally aligned (R426)? -/
def accessOk (off size : Nat) : Bool := (size == 4 || size == 8) && off % size == 0

/-- A read of BAR0 of a link; link 1 shows the identity block and `MODULE_STATE` only (R426, R465). -/
def State.barRead (s : State) (link off size : Nat) : Nat :=
  let word := fun o => if link = 0 ∨ o < 0x104 then s.readWord o else 0
  if !accessOk off size then 0
  else if size = 4 then word off
  else word off + place (word (off + 4)) 32

/-- REGISTER_WRITE: a write of BAR0, 4 or 8 bytes wide and aligned; any other is ignored (R426). -/
def execRegisterWrite (off size : Nat) (v : BitVec 64) (s : State) : Out :=
  if !s.barOpen || !accessOk off size then .next s
  else if size = 4 then .next (s.writeWord off (v.toNat % 2 ^ 32))
  else .next ((s.writeWord off (v.toNat % 2 ^ 32)).writeWord (off + 4) (v.toNat / 2 ^ 32))

/-- SQ_TAIL_WRITE: the doorbell (R427). -/
def execSqTailWrite (q : Fin 8) (v : BitVec 32) (s : State) : Out :=
  if s.barOpen then .next (s.modQueue q (fun b => b.doorbell v.toNat)) else .next s

/-- CQ_HEAD_WRITE: replies are freed (R427). -/
def execCqHeadWrite (q : Fin 8) (v : BitVec 32) (s : State) : Out :=
  if s.barOpen then .next (s.modQueue q (fun b => b.freeTo v.toNat)) else .next s

/-- QUEUE_ENABLE: a write of `Q_CFG` with `ENABLE` set (R427). -/
def execQueueEnable (q : Fin 8) (v : BitVec 32) (s : State) : Out :=
  if s.barOpen && bit v.toNat 31 then .next (s.modQueue q (fun b => b.configure v.toNat)) else .next s

/-- QUEUE_DISABLE: a write of `Q_CFG` with `ENABLE` clear (R427). -/
def execQueueDisable (q : Fin 8) (v : BitVec 32) (s : State) : Out :=
  if s.barOpen && !bit v.toNat 31 then .next (s.modQueue q (fun b => b.configure v.toNat)) else .next s

/-- EVT_HEAD_WRITE: records of the event ring are freed (R451). -/
def execEvtHeadWrite (v : BitVec 32) (now : Nat) (s : State) : Out :=
  let s := s.advance now
  if s.barOpen then .next { s with evt := s.evt.freeTo v.toNat } else .next s

/-- EVENT_RING_ENABLE: a write of `EVT_CFG` (R451). -/
def execEventRingEnable (v : BitVec 32) (now : Nat) (s : State) : Out :=
  let s := s.advance now
  if s.barOpen then .next { s with evt := s.evt.configure v.toNat } else .next s

/-- EVENT_RECORD_FLUSH: the oldest waiting fault record is written once there is space (R451). -/
def execEventRecordFlush (now : Nat) (s : State) : Out :=
  let s := s.advance now
  match s.evt.buffer with
  | r :: rest => if s.evt.space then .next ({ s with evt := { s.evt with buffer := rest } }.ringWrite r) else .next s
  | [] => .next s

/-- MSIX_MESSAGE: a raised vector that its table entry does not mask sends a message, 1 µs after its last at the earliest (R429). -/
def execMsixMessage (vec : Fin 64) (now : Nat) (s : State) : Out :=
  let s := s.advance now
  let x := s.vector vec
  let rested := match x.sentAt with | some t => decide (t + 1000 ≤ s.time.lt) | none => true
  if x.pending && !bit x.entry.toNat 96 && rested && s.barOpen then
    .next { s.setVector vec { x with pending := false, sentAt := some s.time.lt } with msixSent := s.msixSent ++ [vec.val] }
  else .next s

/-! ## Fetching -/

/-- The host queue whose turn it is in the pass: the first from `pass` on that can fetch (R428). -/
def State.turnToFetch (s : State) : Option Nat :=
  ((List.range 8).map (fun i => (s.pass + i) % 8)).find? (fun q => (s.queue q).canFetch)

/-- `PARAM_LEN` of a header (R431). -/
def paramLen (header : BitVec 256) : Nat := field header.toNat 191 179

/-- A fetched command joins its queue (R428). -/
def State.enqueue (s : State) (q : Nat) (header : BitVec 256) (params : Option (List Byte)) : State :=
  let n := min (paramLen header) 4096
  let cmd : FetchedCmd :=
    { header := header, params := sliceBytes (params.getD []) 0 n, seq := s.fetchSeq, accepted := false, parked := false,
      hostErr := params.isNone && decide (0 < n) }
  { s.modQueue q (fun b => { b with cmds := b.cmds ++ [cmd] }) with fetchSeq := s.fetchSeq + 1 }

/-- COMMAND_FETCH: the header at `SQ_HEAD` of the queue whose turn it is, with its parameters (R427, R428). -/
def execCommandFetch (q : Fin 8) (header : BitVec 256) (params : Option (List Byte)) (now : Nat) (s : State) : Out :=
  let s := s.advance now
  if !s.barOpen || s.turnToFetch != some q.val then .next s
  else
    let s := (s.enqueue q header params).modQueue q (fun b => { b with sqHead := (b.sqHead + 1) % b.depth })
    .next { s with pass := (q.val + 1) % 8 }

/-- Is the management queue served (R459)? -/
def State.managed (s : State) : Bool := s.timeRuns || s.startup.phase == .mainRails

/-- MCTP_REQUEST: a request enters the management queue; with 4 outstanding it is refused with `BUSY` (R430). -/
def execMctpRequest (header : BitVec 256) (params : List Byte) (now : Nat) (s : State) : Out :=
  let s := s.advance now
  if !s.managed then .next s
  else if 4 ≤ (s.queue 8).cmds.length then
    let cmd : FetchedCmd :=
      { header := header, params := [], seq := s.fetchSeq, accepted := false, parked := false, hostErr := false }
    .next ({ s with fetchSeq := s.fetchSeq + 1 }.reply 8 cmd 0x2006 0 0)
  else .next (s.enqueue 8 header (some params))

end Sys2Proof.Machine
end

