-- ==== Sys2Proof/Machine/Commands.lean ====
section
/-! DEFINITION. Commands of the Signal Box (16_signal_box_commands_census.md): packets and their checks, order and concurrency, and
the commands that act on the module and on contexts. -/

namespace Sys2Proof.Machine

open Sys2Proof

/-! ## Packets -/

/-- Byte fields of a command's parameter block, as offset and size (R437, R447, R449, R450); none for a reserved opcode (R435). -/
def paramFields : Nat → Option (List (Nat × Nat))
  | 0x01 => some [(0, 8), (8, 4)]
  | 0x02 => some [(0, 1)]
  | 0x03 => some [(0, 2)]
  | 0x08 => some [(0, 4)]
  | 0x09 => some [(0, 1), (2, 2), (4, 2), (6, 1), (7, 1), (8, 2)]
  | 0x0A => some [(0, 4), (4, 2), (6, 2), (8, 8), (16, 8), (24, 1)]
  | 0x0B => some [(0, 12), (64, 3072)]
  | 0x0C => some [(0, 8), (8, 8), (16, 32)]
  | 0x0D => some [(0, 1), (8, 96), (104, 96)]
  | 0x10 => some [(0, 10), (16, 4080)]
  | 0x11 => some [(0, 12), (16, 8), (24, 6), (32, 8), (64, 1024)]
  | 0x12 => some []
  | 0x13 => some [(0, 8)]
  | 0x14 => some []
  | 0x15 => some [(0, 1)]
  | 0x16 => some []
  | 0x17 => some [(0, 4)]
  | 0x18 => some []
  | 0x19 => some [(0, 8)]
  | 0x20 => some [(0, 3), (8, 8)]
  | 0x21 => some [(0, 2), (4, 16)]
  | 0x22 => some [(0, 1), (2, 4), (8, 12)]
  | 0x23 => some [(0, 3), (4, 16)]
  | _ => none

/-- A parameter field (R437). -/
def FetchedCmd.p (c : FetchedCmd) (off size : Nat) : Nat := leAt c.params off size

/-- `PARAM_LEN` that a command's parameters must have (R431, R437, R447, R449, R450). -/
def FetchedCmd.wantLen (c : FetchedCmd) : Nat :=
  match c.opcode with
  | 0x0B => 3136
  | 0x10 => 16 + 16 * c.p 8 2
  | 0x11 => 64 + 16 * c.p 23 1
  | op => match paramFields op with
    | some fs => roundUp (fs.foldl (fun n f => max n (f.1 + f.2)) 0) 8
    | none => 0

/-- Commands that name a slot, that name the module, and that may do either (R435). -/
def contextOk (op c : Nat) : Bool :=
  if op = 0x02 ∨ op = 0x20 ∨ op = 0x23 then c < 8 || c == 15
  else if op = 0x0C ∨ (0x10 ≤ op ∧ op ≤ 0x19) then c < 8
  else c == 15

/-- The first reserved byte of a parameter block that is not zero (R13, R437). -/
def reservedByte (fs : List (Nat × Nat)) (params : List Byte) : Option Nat :=
  (List.range params.length).find? (fun i =>
    params.getD i 0 != 0 && !fs.any (fun f => decide (f.1 ≤ i ∧ i < f.1 + f.2)))

/-- Faults of a header: the byte of the field at fault (R430, R431; the number is a DESIGN CHOICE, notes/assumptions/22.md). -/
def FetchedCmd.headerFault (c : FetchedCmd) (q : Nat) : Option Nat :=
  let len := c.f 191 179
  let addr := c.f 255 192
  if c.f 146 0 ≠ 0 then some 0
  else if contextOk c.opcode c.context = false then some 18
  else if c.f 178 176 ≠ 0 ∨ len % 8 ≠ 0 ∨ 4096 < len then some 22
  else if addr % 64 ≠ 0 ∨ (len = 0 ∧ addr ≠ 0) ∨ (q = 8 ∧ addr ≠ 0) then some 24
  else if q = 8 ∧ (c.opcode = 0x10 ∨ c.opcode = 0x11 ∨ c.opcode = 0x0B) then some 19
  else none

/-- Does a command return data to `DEST` (R432), and where its `DEST` stands. -/
def destAt (op : Nat) : Option Nat :=
  if op = 0x01 then some 0 else if 0x21 ≤ op ∧ op ≤ 0x23 then some 8 else none

/-- Status of a module stopped by R398 or R399 (R433). -/
def State.stopStatus (s : State) : Nat := if s.power.powerStop then 0x8002 else 0x8001

/-- States of a slot in which a command is allowed (R435). -/
def contextStates : Nat → Option (List SlotState)
  | 0x0C => some [.bound, .running, .recovering, .preempted]
  | 0x10 => some [.empty]
  | 0x11 => some [.loaded]
  | 0x12 => some [.bound, .stopped]
  | 0x13 => some [.bound]
  | 0x14 => some [.running, .recovering, .preempted]
  | 0x15 => some [.running]
  | 0x16 => some [.preempted]
  | 0x17 => some [.running]
  | 0x18 => some [.running, .preempted]
  | 0x19 => some [.bound]
  | _ => none

/-- Is the command not allowed in the module's or the context's state (R407, R435)? -/
def State.gate (s : State) (cmd : FetchedCmd) : Option Nat :=
  let op := cmd.opcode
  let free := op == 0x01 || op == 0x02 || decide (0x20 ≤ op)
  if free then none
  else if s.modState = .stopped then some s.stopStatus
  else if op = 0x0D then
    if (List.range 8).all (fun c => (s.slot c).state == .empty) then none else some 0x2003
  else if s.modState = .noSpare ∧ (op = 0x11 ∨ op = 0x13 ∨ op = 0x16 ∨ op = 0x19) then some 0x4002
  else if s.modState ≠ .ready ∧ s.modState ≠ .noSpare then some 0x2003
  else if op = 0x0B ∧ s.anyBound = true then some 0x2003
  else match contextStates op with
    | some l => if l.contains (s.slot cmd.context).state then none else some 0x2003
    | none => none

/-- The checks that come before a command's own: status and `RESULT1` of the first that fails (R431 to R437). -/
def State.checkCommand (s : State) (q : Nat) (cmd : FetchedCmd) : Option (Nat × Nat) :=
  match cmd.headerFault q with
  | some b => some (0x2002, b)
  | none =>
    if cmd.hostErr then some (0x4003, 0)
    else if cmd.f 191 179 ≠ cmd.wantLen then
      some (0x2002, if cmd.opcode = 0x10 then 8 else if cmd.opcode = 0x11 then 23 else 22)
    else match reservedByte ((paramFields cmd.opcode).getD []) cmd.params with
      | some b => some (0x2002, b)
      | none => match s.gate cmd with
        | some st => some (st, 0)
        | none => match destAt cmd.opcode with
          | some d => if (q = 8 ∧ cmd.p d 8 ≠ 0) ∨ cmd.p d 8 % 64 ≠ 0 then some (0x2002, d) else none
          | none => none

/-! ## Order -/

/-- The slot whose recovery is under way (R434). -/
def State.recovering (s : State) : Option Nat := (List.range 8).find? (fun c => (s.slot c).state == .recovering)

/-- Is a command related to the recovery of slot r (R423, R436)? -/
def FetchedCmd.related (cmd : FetchedCmd) (r : Nat) : Bool :=
  if cmd.opcode = 0x20 ∧ cmd.p 0 1 = 2 then false
  else cmd.opcode == 0x03 || cmd.context == r || (cmd.opcode == 0x20 && cmd.context == 15)

/-- Under `PROMPT` a queue parks its related commands, up to a `FENCE` (R436). -/
def parkUpTo (r : Nat) : List FetchedCmd → List FetchedCmd
  | [] => []
  | c :: t => if c.opcode = 0x03 then c :: t else (if c.related r then { c with parked := true } else c) :: parkUpTo r t

def State.parkRelated (s : State) (q : Nat) : State :=
  match s.recovering with
  | some r => if s.policies.promptNow then s.modQueue q (fun b => { b with cmds := parkUpTo r b.cmds }) else s
  | none => s

/-- The command that a queue runs: its first that is not parked, unless that one waits for a recovery (R428, R436). -/
def State.current (s : State) (q : Nat) : Option FetchedCmd :=
  match (s.queue q).cmds.find? (fun c => !c.parked), s.recovering with
  | some c, some r => if c.related r then none else some c
  | x, none => x
  | none, _ => none

/-- Reserved opcodes at the front are answered (R435). -/
def State.rejectUnknown (s : State) (q : Nat) : State :=
  (s.queue q).cmds.foldl (fun s _ =>
    match s.current q with
    | some c => if (paramFields c.opcode).isNone then s.reply q c 0x2001 0 19 else s
    | none => s) s

/-- Does a command change the state of a context (R428)? -/
def FetchedCmd.changes (c : FetchedCmd) : Bool :=
  decide (0x10 ≤ c.opcode ∧ c.opcode ≤ 0x19) || (c.opcode == 0x02 && decide (c.context < 8))

/-- Must a command wait for one fetched earlier that changes the same context (R428, R436)? -/
def State.mustWait (s : State) (cmd : FetchedCmd) : Bool :=
  let strong := cmd.opcode == 0x14 || cmd.opcode == 0x15 || cmd.opcode == 0x02
  cmd.changes && (List.range 9).any (fun q => (s.queue q).cmds.any (fun x =>
    decide (x.seq < cmd.seq) && x.context == cmd.context && x.changes && !(strong && x.accepted && abortable x.opcode)))

/-- A command is under way, and replies later. -/
def State.accept (s : State) (q : Nat) (cmd : FetchedCmd) : State :=
  s.modQueue q (fun b => { b with cmds := b.cmds.map (fun x => if x.seq = cmd.seq then { x with accepted := true } else x) })

/-- Queue q runs its command, where that is one of opcode `op` of which `mine` holds: its checks, and then its effect; `again` is
what a command under way does when it is looked at once more. -/
def State.runCommand (s : State) (q op now : Nat) (mine : FetchedCmd → Bool) (fresh again : State → FetchedCmd → State) : Out :=
  let s := ((s.advance now).reachEpoch.parkRelated q).rejectUnknown q
  match s.current q with
  | none => .next s
  | some cmd =>
    if cmd.opcode ≠ op ∨ mine cmd = false ∨ s.mustWait cmd = true then .next s
    else if cmd.accepted then .next (again s cmd)
    else match s.checkCommand q cmd with
      | some (st, r1) => .next (s.reply q cmd st 0 r1)
      | none => .next (fresh s cmd)

/-- A command under way has done its work: it is replied, unless the context has stopped and it has ended so (R433). -/
def State.completes (s : State) (q : Nat) (cmd : FetchedCmd) : State :=
  if (s.queue q).cmds.any (fun x => x.seq == cmd.seq) then s.reply q cmd 0 0 0 else s

/-- A command of any parameters. -/
def anyCmd : FetchedCmd → Bool := fun _ => true

/-- A command under way that only an event completes. -/
def keepOn : State → FetchedCmd → State := fun s _ => s

/-- Data to `DEST`, then the reply: bytes written and bytes available (R432, R437). -/
def State.replyData (s : State) (q : Nat) (cmd : FetchedCmd) (status : Nat) (data : List Byte) (r1 : Nat) : State :=
  let d := (destAt cmd.opcode).getD 0
  let len := cmd.p (d + 8) 4
  if q = 8 then
    let out := data.take (min len 4096)
    { s with mctpData := out }.reply q cmd status out.length r1
  else
    let out := data.take len
    (s.hostWrite (cmd.p d 8) out).reply q cmd status out.length r1

/-- Every outstanding command that `pick` names ends with `status` and `RESULT0` (R433, R441). -/
def State.finishCommands (s : State) (pick : Nat → FetchedCmd → Bool) (status r0 : Nat) : State :=
  (List.range 9).foldl (fun s q =>
    ((s.queue q).cmds.filter (pick q)).foldl (fun s c => s.reply q c status r0 0) s) s

/-! ## Module commands -/

/-- `IDENTIFY` (R469). -/
def execIdentify (q : Fin 9) (now : Nat) (s : State) : Out :=
  s.runCommand q 0x01 now anyCmd (fun s cmd => s.replyData q cmd 0 s.identity 256) keepOn

/-- May a `FENCE` complete: has every command fetched earlier from the queues of its `MASK` been replied (R445)? -/
def State.fenceDone (s : State) (cmd : FetchedCmd) : Bool :=
  (List.range 9).all (fun i => !bit (cmd.p 0 2) i || (s.queue i).cmds.all (fun x => decide (cmd.seq ≤ x.seq)))

/-- `FENCE` (R445). -/
def execFence (q : Fin 9) (now : Nat) (s : State) : Out :=
  s.runCommand q 0x03 now anyCmd
    (fun s cmd =>
      if 512 ≤ cmd.p 0 2 then s.reply q cmd 0x2004 0 0
      else if s.fenceDone cmd then s.reply q cmd 0 0 0 else s.accept q cmd)
    (fun s cmd => if s.fenceDone cmd then s.reply q cmd 0 0 0 else s)

/-- One policy byte: 0 keeps, 1 takes the first value of R16, 2 the second (R437). -/
def policyByte (old : Bool) : Nat → Bool
  | 1 => false
  | 2 => true
  | _ => old

/-- `SET_POLICY` (R439): dispatch and recovery order are in force at once, the other two at their own points. -/
def execSetPolicy (q : Fin 9) (now : Nat) (s : State) : Out :=
  s.runCommand q 0x08 now anyCmd
    (fun s cmd =>
      match [0, 1, 2, 3].find? (fun i => decide (2 < cmd.p i 1)) with
      | some i => s.reply q cmd 0x2004 0 i
      | none =>
        let p := s.policies
        let p := { p with
          budget := policyByte p.budget (cmd.p 0 1), prompt := policyByte p.prompt (cmd.p 1 1)
          dropNext := if cmd.p 2 1 = 0 then p.dropNext else some (cmd.p 2 1 == 2)
          paddedNext := if cmd.p 3 1 = 0 then p.paddedNext else some (cmd.p 3 1 == 2) }
        { s with policies := p }.reply q cmd 0 0 0)
    keepOn

/-- The first field of a `SET_CAP` outside its range (R388): the offset of it. -/
def capFault (top : Nat) (cmd : FetchedCmd) : Option Nat :=
  let m := cmd.p 0 1
  if 32 ≤ m then some 0
  else if bit m 0 = true ∧ (cmd.p 2 2 < 1200 ∨ 3200 < cmd.p 2 2 ∨ cmd.p 2 2 % 8 ≠ 0) then some 2
  else if bit m 1 = true ∧ (cmd.p 4 2 < 800 ∨ 2000 < cmd.p 4 2 ∨ top < cmd.p 4 2 ∨ cmd.p 4 2 % 50 ≠ 0) then some 4
  else if bit m 2 = true ∧ 128 < cmd.p 6 1 then some 6
  else if bit m 4 = true ∧ 1 < cmd.p 7 1 then some 7
  else if bit m 3 = true ∧ (cmd.p 8 2 < 160 ∨ 256 < cmd.p 8 2) then some 8
  else none

/-- `SET_CAP` (R388): the settings named by `MASK` take their new values; ceilings and meter follow. -/
def execSetCap (q : Fin 9) (now : Nat) (s : State) : Out :=
  s.runCommand q 0x09 now anyCmd
    (fun s cmd =>
      match capFault s.flash.topOpMhz cmd with
      | some off => s.reply q cmd 0x2004 0 off
      | none =>
        let m := cmd.p 0 1
        let p := s.power
        let p := { p with
          capW := if bit m 0 then cmd.p 2 2 else p.capW, fMax := if bit m 1 then cmd.p 4 2 else p.fMax
          floor := if bit m 2 then cmd.p 6 1 else p.floor, rampW := if bit m 3 then cmd.p 8 2 else p.rampW
          straggleHold := if bit m 4 then cmd.p 7 1 == 1 else p.straggleHold }
        (s.setPower p).settlePower.reply q cmd 0 0 0)
    keepOn

/-- The first field of a `SET_TIME` outside its range (R437, R440): the offset of it. -/
def State.timeFault (s : State) (cmd : FetchedCmd) : Option Nat :=
  let src := cmd.p 0 1
  if 2 < src then some 0
  else if src = 1 ∧ 2 < cmd.p 1 1 then some 1
  else if src = 1 ∧ 239 < cmd.p 2 1 then some 2
  else if 1 < cmd.p 3 1 then some 3
  else if src = 1 ∧ s.portExists (cmd.p 4 1) = false then some 4
  else if src = 1 ∧ cmd.p 5 1 ≠ 0xFF ∧ s.portExists (cmd.p 5 1) = false then some 5
  else if cmd.p 6 2 ≠ 0 ∧ (cmd.p 6 2 < 100 ∨ 10000 < cmd.p 6 2) then some 6
  else if 1 < cmd.p 24 1 then some 24
  else none

/-- `SET_TIME` (R139, R140, R440). -/
def execSetTime (q : Fin 9) (now : Nat) (s : State) : Out :=
  s.runCommand q 0x0A now anyCmd
    (fun s cmd =>
      let step := cmd.p 24 1 == 1
      let src := cmd.p 0 1
      match s.timeFault cmd with
      | some off => s.reply q cmd 0x2004 0 off
      | none =>
        if step && s.anyBound then s.reply q cmd 0x2003 0 24
        else if step ∧ cmd.p 16 8 < s.time.lt then s.reply q cmd 0x2004 0 16
        else if src = 2 ∧ cmd.p 8 8 ≤ s.time.lt then s.reply q cmd 0x2004 0 8
        else
          let t := s.time
          let t := { t with lt := if step then cmd.p 16 8 else t.lt, refFreq := cmd.p 3 1,
                            holdoverMs := if cmd.p 6 2 = 0 then t.holdoverMs else cmd.p 6 2 }
          let t := if src = 1 then
              { t with transport := cmd.p 1 1, domain := cmd.p 2 1, primary := cmd.p 4 1, secondary := cmd.p 5 1,
                       onSecondary := false, secGood := false, followDue := [], syncLt := t.lt, syncLog := 0 }
            else if src = 2 then { t with ppsLt := cmd.p 8 8 } else t
          let old := t.source
          let s := s.setTime { t with source := src }
          let s := if src = old then s else s.enterTime (if src = 0 then .free else .acquiring)
          s.reply q cmd 0 s.time.state.code 0)
    keepOn

/-- The port entry of `NET_CONFIG` (R450). -/
def portEntry (cmd : FetchedCmd) (p : Nat) : Nat := cmd.p (64 + 64 * p) 64

/-- Is a port entry out of range (R450)? -/
def entryBad (e : Nat) : Bool :=
  let w := BitVec.ofNat 512 e
  let base := portPathBase w
  let udp := portUdp w
  decide (field e 191 176 < 1500) || decide (9216 < field e 191 176) || (!bit e 111 && !bit e 110) ||
  decide (65535 < base + 255) || decide (base ≤ udp ∧ udp ≤ base + 255)

/-- Does cage i train anew under new modes (R312)? -/
def State.retrains (s : State) (cmd : FetchedCmd) (i : Nat) : Bool :=
  (s.cage i).mode != some (cmd.p i 1) || !(s.cage i).trained

/-- The module with new cage modes and port entries: a cage whose mode changes trains anew (R312). -/
def State.setCages (s : State) (cmd : FetchedCmd) : State :=
  let ports := (List.range 48).foldl (fun (x : State) p =>
    let old := if s.retrains cmd (portCage p) then Port.init else s.port p
    x.setPort p { old with entry := BitVec.ofNat 512 (portEntry cmd p), gw6 := none, gw4 := none }) s
  (List.range 12).foldl (fun (x : State) i =>
    if s.retrains cmd i then x.setCage i { s.cage i with mode := some (cmd.p i 1), trained := false } else x) ports

/-- Of the cages that train anew, those whose OSFP module stays in low-power mode do not: `LINK_DOWN` names their ports (R480). -/
def State.hungryCages (s : State) (trains : Nat → Bool) : State :=
  (List.range 12).foldl (fun (x : State) i =>
    if trains i && (s.cage i).hungry then (x.cagePorts i).foldl (fun x p => x.portDown p) x else x) s

/-- Is every cage trained (R312)? -/
def State.cagesTrained (s : State) : Bool := (List.range 12).all (fun i => (s.cage i).trained)

/-- `NET_CONFIG` (R312, R450, R480): it completes when every cage is trained. -/
def execNetConfig (q : Fin 9) (now : Nat) (s : State) : Out :=
  s.runCommand q 0x0B now anyCmd
    (fun s cmd =>
      match (List.range 12).find? (fun i => decide (2 < cmd.p i 1)) with
      | some i => s.reply q cmd 0x2004 0 i
      | none =>
        match (List.range 48).find? (fun p => field (portEntry cmd p) 109 0 != 0) with
        | some p => s.reply q cmd 0x2002 0 (64 + 64 * p)
        | none =>
          let s' := s.setCages cmd
          match (List.range 48).find? (fun p =>
            if s'.portExists p then entryBad (portEntry cmd p) else portEntry cmd p != 0) with
          | some p => s.reply q cmd 0x2004 0 (64 + 64 * p)
          | none =>
            let t := s'.hungryCages (s.retrains cmd)
            if t.cagesTrained then t.reply q cmd 0 0 0 else t.accept q cmd)
    keepOn

/-- A flow as `BIND` and a flow reset leave it: what names it stays, and so do messages already delivered (R418); the rest starts as
R322 gives. -/
def Flow.fresh (f : Flow) : Flow :=
  { Flow.init with
    state := 1, slot := f.slot, peerAddr := f.peerAddr, peerFlow := f.peerFlow, peerUdp := f.peerUdp, portMask := f.portMask,
    npaths := f.npaths, dscp := f.dscp, peerRank := f.peerRank, targetQ := f.targetQ, delivered := f.delivered }

/-- The key of a `KEY_INSTALL` in the free slot of its direction; none where there is none, or the `KEY_ID` is in use (R323,
R444). -/
def Flow.install (f : Flow) (send : Bool) (k : Key) : Option Flow :=
  let ks := if send then f.txKeys else f.rxKeys
  if 2 ≤ ks.length ∨ ks.any (fun x => x.id == k.id) = true then none
  else if send then some { f with txKeys := f.txKeys ++ [k] }
  else some { f with rxKeys := f.rxKeys ++ [k], keyIdRx := k.id }

/-- `KEY_INSTALL` (R323, R418, R444). -/
def execKeyInstall (q : Fin 9) (now : Nat) (s : State) : Out :=
  s.runCommand q 0x0C now anyCmd
    (fun s cmd =>
      let c := cmd.context
      let n := cmd.p 0 4
      match (s.slot c).binding with
      | none => s.reply q cmd 0x2003 0 0
      | some b =>
        if b.flows.contains n = false then s.reply q cmd 0x2004 0 0
        else if 1 < cmd.p 6 1 then s.reply q cmd 0x2004 0 6
        else if 1 < cmd.p 7 1 then s.reply q cmd 0x2004 0 7
        else
          let f := if cmd.p 7 1 = 1 then (s.flow n).fresh else s.flow n
          match f.install (cmd.p 6 1 == 1)
              { id := cmd.p 4 2, key := BitVec.ofNat 256 (cmd.p 16 32), since := cmd.p 8 8 } with
          | none => s.reply q cmd 0x2041 0 4
          | some f =>
            let old := s.flow n
            let s := s.setFlow n f
            let s := if cmd.p 7 1 = 1 then s.inSlot c (fun s => s.forgetSent (fun x => x.flow == n && old.holds x.msg)) else s
            let s := if cmd.p 7 1 = 1 then s.inSlot c (fun s => s.peerBack c b f.peerRank) else s
            s.reply q cmd 0 0 0)
    keepOn

/-- Is `OWNER_ENROL` refused (R448, R471)? -/
def State.ownerFault (s : State) (key auth : List Byte) : Bool :=
  !Config.onP384 key ||
  (match s.flash.ownerKey with
   | none => auth.any (fun b => b != 0)
   | some old => !Config.ecdsaVerify old (Config.sha384 (key ++ s.flash.serial)) auth)

/-- `OWNER_ENROL` (R448, R471). -/
def execOwnerEnrol (q : Fin 9) (now : Nat) (s : State) : Out :=
  s.runCommand q 0x0D now anyCmd
    (fun s cmd =>
      let key := sliceBytes cmd.params 8 96
      if 1 < cmd.p 0 1 then s.reply q cmd 0x2004 0 0
      else if s.ownerFault key (sliceBytes cmd.params 104 96) then s.reply q cmd 0x2042 0 0
      else (s.setFlash { s.flash with ownerKey := some key, requireSigned := cmd.p 0 1 == 1 }).reply q cmd 0 0 0)
    keepOn

/-! ## Contexts -/

/-- A Station whose Pilot reads are over: no context runs, and what was under way has nowhere to go. -/
def Station.endReads (st : Station) : Station :=
  { st with
    sidings := st.sidings.map (fun q => (q.1, { q.2 with slots := q.2.slots.map (fun p => { p with reads := [] }), wait := none }))
    pilot := st.pilot.map (fun m => { m with bursts := [] }) }

/-- Every Siding is unset and empty (R287), where no other context's work is on the Stations. -/
def State.clearSidings (s : State) (c : Nat) : State :=
  if s.workSlot.isNone || s.workSlot == some c then s.mapStations (fun st => { st with sidings := [], pilot := [], wbHeld := 0 }) else s

/-- Everything that context c holds is released (R263, R322, R413, R435): frames and map runs are free, flows drain. -/
def State.releaseSlot (s : State) (c : Nat) : State :=
  match (s.slot c).binding with
  | none => s
  | some b =>
    let s := if s.runSlot.isNone then (s.mapStations Station.endReads).drained else s
    let mine := (s.tiers.map.map (fun q => q.1)).filter (fun e => (s.ownerOf e).map (fun q => q.1) == some c)
    let s := mine.foldl (fun s e => (s.freePage e).setTiers { (s.freePage e).tiers with map := terase (s.freePage e).tiers.map e }) s
    let s := s.setTiers { s.tiers with t3Retired := s.tiers.t3Retired.filter (fun f => !b.t3Frames.contains f) }
    let s := b.flows.foldl (fun s n => s.modFlow n (fun f =>
      if f.state = 1 then { f with state := 2, drainFrom := s.time.lt, out := f.out.filter (fun m => m.off != 0) } else f)) s
    let s := s.dropColl c
    (s.setSlot c { Slot.init with state := .loaded, image := (s.slot c).image, log := (s.slot c).log }).plan

/-- `RELEASE` (R435). -/
def execRelease (q : Fin 9) (now : Nat) (s : State) : Out :=
  s.runCommand q 0x12 now anyCmd (fun s cmd => (s.releaseSlot cmd.context).reply q cmd 0 0 0) keepOn

/-- Has every flow of a context a send key (R441)? -/
def State.keysInstalled (s : State) (c : Nat) : Bool :=
  match (s.slot c).binding with
  | some b => b.flows.all (fun f => (s.flow f).txKeys != [])
  | none => true

/-- Checks 2 and 3 of `START`, which `ADOPT` makes too (R441): status and `RESULT1`. -/
def State.startFault (s : State) (img : Image) (epoch : Nat) : Option Nat :=
  if s.runSlot.isSome then some 0x2003
  else if (img.needLock ∧ s.time.state ≠ .locked) ∨ epoch < s.time.lt + 100000 then some 0x2030
  else none

/-- Does the image's profile match the part's stepping, or is the run padded (R176)? -/
def State.profileOk (s : State) (img : Image) : Bool :=
  img.latProfile == s.profile || (s.policies.paddedNext.getD s.policies.padded)

/-- `START` is accepted (R415, R441). -/
def State.startRun (s : State) (c epoch : Nat) (img : Image) : State :=
  let s := ((s.withSlot c).takeStepping).freshStations img
  let s := s.freshColl.newStep
  let s := s.modSlot c (fun x => { x with
    log := LateLog.init, step := x.step.again, saved := [], savedNow := false, timedOut := none, overSiding := none })
  let x := img.firstSection
  let e := epochOf (img.sect x) epoch s.time.lt false
  let s := { s with replay := false }.beginRun c epoch x e.1 e.2 true
  match (s.slot c).binding with
  | some b => s.startSeeding b false
  | none => s

/-- `START` (R441). It completes at the run epoch. -/
def execStart (q : Fin 9) (now : Nat) (s : State) : Out :=
  s.runCommand q 0x13 now anyCmd
    (fun s cmd =>
      let c := cmd.context
      let epoch := cmd.p 0 8
      match (s.slot c).image with
      | none => s.reply q cmd 0x2003 0 0
      | some img =>
        match s.startFault img epoch with
        | some st => s.reply q cmd st 0 0
        | none =>
          if s.profileOk img = false then
            (s.report { EvtRec.blank with family := 1, code := 4, scope := scopeContext, context := c }).reply q cmd 0x2031 0 0
          else if s.keysInstalled c = false then s.reply q cmd 0x2032 0 0
          else (s.accept q cmd).startRun c epoch img)
    keepOn

/-- `ADOPT` (R419, R420, R441): it asks holder 1 for the shard, and completes once the context starts. -/
def execAdopt (q : Fin 9) (now : Nat) (s : State) : Out :=
  s.runCommand q 0x19 now anyCmd
    (fun s cmd =>
      let c := cmd.context
      let epoch := cmd.p 0 8
      match (s.slot c).image, (s.slot c).binding with
      | some img, some b =>
        match s.startFault img epoch with
        | some st => s.reply q cmd st 0 0
        | none =>
          if s.keysInstalled c = false then s.reply q cmd 0x2032 0 0
          else if b.rho = 0 then s.reply q cmd 0x2040 0 0
          else
            let s := ((s.accept q cmd).withSlot c).takeStepping
            let s := s.freshColl.newStep
            let s := s.setColl { s.coll with adopt := some .fetch }
            let s := s.modSlot c (fun x => { x with log := LateLog.init, step := x.step.again })
            let x := img.stepFirst
            let e := epochOf (img.sect x) epoch s.time.lt true
            ({ s with replay := false }.beginRun c epoch x e.1 e.2 true).askHolder b 1 1
      | _, _ => s.reply q cmd 0x2003 0 0)
    keepOn

/-- An adopting context starts (R419 step 4): Stations as at `START`, at `STEP_FIRST_SECTION`. -/
def State.startAdopted (s : State) (c : Nat) (img : Image) (b : Binding) (run : Run) : State :=
  let s := s.freshStations img
  let s := s.setColl { s.coll with adopt := none, asked := none }
  let x := img.stepFirst
  let e := epochOf (img.sect x) run.epoch s.time.lt true
  let s := (s.beginRun c run.epoch x e.1 e.2 false).startSeeding b true
  s.bump .adoptions 0 1

/-- RUN_EPOCH: line time has reached the run epoch: the context runs, and its `START` completes; an `ADOPT` completes once the
result of the step is known besides (R419, R441). -/
def execRunEpoch (now : Nat) (s : State) : Out :=
  let s := s.advance now
  match s.runSlot with
  | none => .next s
  | some c =>
    match (s.slot c).run, (s.slot c).image, (s.slot c).binding with
    | some run, some img, some b =>
      if !run.waiting || decide (s.time.lt < run.epoch) then .next s
      else
        match s.coll.adopt with
        | none =>
          let s := s.modSlot c (fun x => { x with run := some { run with waiting := false } })
          let s := s.finishCommands (fun _ x => x.accepted && x.opcode == 0x13 && x.context == c) 0 run.epoch
          .next (s.noPoints c img run.sect)
        | some .known =>
          let s := s.startAdopted c img b run
          .next (s.finishCommands (fun _ x => x.accepted && x.opcode == 0x19 && x.context == c) 0 0)
        | some _ => .next s
    | _, _, _ => .next s

/-- `HALT` (R306, R436): a running context is cancelled, and leaves its run once nothing is in flight; a pre-empted one leaves at
once. -/
def execHalt (q : Fin 9) (now : Nat) (s : State) : Out :=
  s.runCommand q 0x14 now anyCmd
    (fun s cmd =>
      let c := cmd.context
      let s := s.abortRunning c
      if (s.slot c).state = .preempted then (s.haltDone c).reply q cmd 0 0 0
      else
        let s := ((s.accept q cmd).cancelSection c 0xFFFF true false).plan
        if (s.slot c).state = .running ∧ s.haltReady = true then (s.haltDone c).reply q cmd 0 0 0 else s)
    (fun s cmd =>
      if (s.slot cmd.context).state = .running ∧ s.haltReady = true then (s.haltDone cmd.context).reply q cmd 0 0 0 else s)

/-- `PREEMPT` (R306, R442): now, or at the next boundary. -/
def execPreempt (q : Fin 9) (now : Nat) (s : State) : Out :=
  s.runCommand q 0x15 now anyCmd
    (fun s cmd =>
      let c := cmd.context
      if 1 < cmd.p 0 1 then s.reply q cmd 0x2004 0 0
      else
        let s := (s.abortRunning c).accept q cmd
        let soon := cmd.p 0 1 = 0
        let s := if soon then ((s.cancelSection c 0xFFFF false true).cancelAhead []).plan else s
        s.modSlot c (fun x => { x with
          savedNow := decide soon
          run := x.run.map (fun r => if soon then { r with switching := true } else { r with preemptAt := some q.val }) }))
    keepOn

/-- A context switched out at a boundary restarts at its successor (R136, R306, R442). -/
def State.resumeRun (s : State) (c : Nat) (img : Image) (run : Run) (bad : List Nat) : State :=
  let x := (s.slot c).successor
  let back : Table Station := (s.slot c).saved.map (fun q => (q.1, (s.station q.1).restore q.2))
  let s := ({ s with stations := back, turns := [] }.clearLoop.drained.areaErrors c bad).restoreErrors c bad
  let s := s.setColl { s.coll with cut := numErase s.coll.cut x }
  let s := s.modSlot c (fun y => { y with saved := [] })
  let e := epochOf (img.sect x) run.epoch s.time.lt true
  s.beginRun c run.epoch x e.1 e.2 false

/-- `RESUME` (R136, R442). -/
def execResume (q : Fin 9) (t : ResumeTick) (s : State) : Out :=
  s.runCommand q 0x16 t.lt anyCmd
    (fun s cmd =>
      let c := cmd.context
      match (s.slot c).image, (s.slot c).run, (s.slot c).binding with
      | some img, some run, some b =>
        if s.runSlot.isSome then s.reply q cmd 0x2003 0 0
        else if (s.slot c).savedNow = false then (((s.accept q cmd).withSlot c).takeStepping.resumeRun c img run t.bad).completes q cmd
        else if s.dirtyPages c = [] then (((s.accept q cmd).withSlot c).takeStepping.replayRun c).completes q cmd
        else match (s.withSlot c).currentFrom b 1 with
          | some i => ((s.withSlot c).takeStepping.askHolder b 2 i).accept q cmd
          | none => s.reply q cmd 0x2033 0 0
      | _, _, _ => s.reply q cmd 0x2003 0 0)
    keepOn

/-- `CANCEL_SECTION` (R173, R308, R443): it completes at the boundary instant of the section. -/
def execCancelSection (q : Fin 9) (now : Nat) (s : State) : Out :=
  s.runCommand q 0x17 now anyCmd
    (fun s cmd =>
      let c := cmd.context
      let next := cmd.p 2 2
      match (s.slot c).image, (s.slot c).run with
      | some img, some run =>
        if run.sect ≠ cmd.p 0 2 ∨ run.cancelled.isSome = true then s.reply q cmd 0x1001 0 0
        else if next ≠ 0xFFFF ∧ img.sectionCount ≤ next then s.reply q cmd 0x2004 0 2
        else (((s.accept q cmd).cancelSection c next false false).markStepBad c).plan
      | _, _ => s.reply q cmd 0x2003 0 0)
    keepOn

/-- `DEPOT_SNAPSHOT` (R415): seeding begins again, and it completes when every replica is `CURRENT`. -/
def execDepotSnapshot (q : Fin 9) (now : Nat) (s : State) : Out :=
  s.runCommand q 0x18 now anyCmd
    (fun s cmd =>
      match (s.slot cmd.context).binding with
      | none => s.reply q cmd 0x2003 0 0
      | some b => if b.rho = 0 then s.reply q cmd 0x1001 0 0 else (s.inSlot cmd.context (fun s => s.startSeeding b true)).accept q cmd)
    keepOn

/-! ## Resets -/

/-- A context is gone, and its slot is `EMPTY` (R438, R469). -/
def State.emptySlot (s : State) (c : Nat) : State :=
  let s := (s.clearSidings c).releaseSlot c
  (s.setSlot c Slot.init).setFlash { s.flash with lastReset := 0, resetCause := 2 }

/-- RESET_CONTEXT: `RESET` with `KIND` 0, and with a reserved `KIND` (R438, R467). -/
def execResetContext (q : Fin 9) (now : Nat) (s : State) : Out :=
  s.runCommand q 0x02 now (fun cmd => cmd.p 0 1 != 1 && cmd.p 0 1 != 2)
    (fun s cmd =>
      let c := cmd.context
      if cmd.p 0 1 ≠ 0 then s.reply q cmd 0x2004 0 0
      else if 8 ≤ c then s.reply q cmd 0x2002 0 18
      else if s.modState = .stopped then s.reply q cmd s.stopStatus 0 0
      else
        let s := s.abortRunning c
        if (s.slot c).state = .running then
          let s := ((s.accept q cmd).cancelSection c 0xFFFF true false).plan
          if (s.slot c).state = .running ∧ s.haltReady = true then ((s.haltDone c).emptySlot c).reply q cmd 0 0 0 else s
        else (s.emptySlot c).reply q cmd 0 0 0)
    (fun s cmd =>
      let c := cmd.context
      if (s.slot c).state = .running ∧ s.haltReady = true then ((s.haltDone c).emptySlot c).reply q cmd 0 0 0 else s)

/-- A warm or cold `RESET` (R438, R467): every other outstanding command ends with `ABORTED`, the reply is written, and then the
module resets. -/
def State.resetModule (s : State) (q : Nat) (cmd : FetchedCmd) (cold : Bool) : State :=
  if cmd.context ≠ 15 then s.reply q cmd 0x2002 0 18
  else if s.resetLeaves cold = false then s.reply q cmd s.stopStatus 0 0
  else
    let s := s.endCommands (fun _ x => x.seq != cmd.seq) 0x2005
    let s := s.reply q cmd 0 0 0
    if cold || !s.modState.settled then s.coldReset 2 else s.warmReset 2

/-- RESET_WARM: `RESET` with `KIND` 1; before `READY` it is a cold reset (R467). -/
def execResetWarm (q : Fin 9) (now : Nat) (s : State) : Out :=
  s.runCommand q 0x02 now (fun cmd => cmd.p 0 1 == 1) (fun s cmd => s.resetModule q cmd false) keepOn

/-- RESET_COLD: `RESET` with `KIND` 2 (R467). -/
def execResetCold (q : Fin 9) (now : Nat) (s : State) : Out :=
  s.runCommand q 0x02 now (fun cmd => cmd.p 0 1 == 2) (fun s cmd => s.resetModule q cmd true) keepOn

end Sys2Proof.Machine
end

