-- ==== Sys2Proof/Machine/Images.lean ====
section
/-! DEFINITION. LOAD_IMAGE and BIND: the checks of an image (R146 to R148, R259 to R261, R333, R338 to R342, R360, R446 to R448), the
runs, pages, frames and flows that a binding holds (R256, R264, R268, R269, R325, R339, R348, R412, R413, R449). -/

namespace Sys2Proof.Machine

open Sys2Proof

/-! ## The checks of an image -/

/-- The first entry of a list of checks that does not hold. -/
def firstBad (l : List (Nat × Bool)) : Option Nat := (l.find? (fun q => !q.2)).map (fun q => q.1)

/-- The first index below n of which `bad` holds. -/
def firstIx (n : Nat) (bad : Nat → Bool) : Option Nat := (List.range n).find? bad

/-- The first non-zero byte of a reserved field: checks for `firstBad`. -/
def zeroBytes (i : Image) (off n : Nat) : List (Nat × Bool) :=
  (List.range n).map (fun k => (off + k, i.le (off + k) 1 == 0))

/-- Step 1 of the header's checks: its fields in ascending offset (R446, R447); `len` is `IMAGE_LEN` of the parameters. -/
def headerFields (i : Image) (len : Nat) : List (Nat × Bool) :=
  let range := fun (off n lo hi : Nat) => (off, decide (lo ≤ i.le off n ∧ i.le off n ≤ hi))
  let table := fun (off : Nat) => (off, i.le off 8 % 64 == 0)
  [(0, i.le 0 8 == 0x31304E49534C4547), range 8 2 1 1, range 10 1 1 2, range 11 1 0 3, range 12 4 1 0xFFFFFFFF,
   (16, i.le 16 8 == len), (32, decide (i.firstSection < i.sectionCount)), range 34 2 1 65535,
   (36, decide (i.stepFirst < i.sectionCount)), range 38 1 10 20, range 39 1 1 64, range 40 4 1 1048576,
   range 44 4 0 262144, range 48 4 0 1048576, range 52 4 0 65536, range 56 2 0 4096] ++ zeroBytes i 58 2 ++
  [table 64, table 72, (80, i.le 80 8 % 32 == 0), table 88, table 96, table 104, table 112, table 120, table 128, table 136,
   (144, i.le 144 8 == (if i.isSigned then i.le 16 8 - 128 else 0) && i.le 144 8 % 64 == 0)] ++ zeroBytes i 152 360

/-- The tables: offset field, start and length (R446, R447); the header counts as the first. -/
def imageTables (i : Image) : List (Nat × Nat × Nat) :=
  [(0, 0, 512), (64, i.le 64 8, 32 * i.sectionCount), (72, i.le 72 8, i.le 80 8), (88, i.le 88 8, 49152),
   (96, i.le 96 8, 64 * i.objectCount), (104, i.le 104 8, 16 * i.slotCount), (112, i.le 112 8, 64 * i.unitCount),
   (120, i.le 120 8, 64 * i.collCount), (128, i.le 128 8, 32 * i.schedCount), (136, i.le 136 8, 32 * i.initCount),
   (144, i.le 144 8, if i.isSigned then 128 else 0)]

/-- Do two tables overlap? One of length 0 overlaps nothing (R447). -/
def tablesMeet (a b : Nat × Nat × Nat) : Bool :=
  a.2.2 != 0 && b.2.2 != 0 && decide (a.2.1 < b.2.1 + b.2.2 ∧ b.2.1 < a.2.1 + a.2.2)

/-- Step 2: the first table that reaches beyond `IMAGE_LEN` or overlaps one before it (R447). -/
def placementFault (len : Nat) : List (Nat × Nat × Nat) → List (Nat × Nat × Nat) → Option Nat
  | _, [] => none
  | earlier, t :: rest =>
    if (t.2.2 ≠ 0 ∧ len < t.2.1 + t.2.2) ∨ earlier.any (tablesMeet t) = true then some t.1
    else placementFault len (earlier ++ [t]) rest

/-- `IMAGE_HEADER`: the byte offset at fault (R447). -/
def headerFault (i : Image) (len : Nat) : Option Nat :=
  match firstBad (headerFields i len) with
  | some off => some off
  | none => placementFault len [] (imageTables i)

/-- The signature of an image (R448): refused, unverified, or neither. -/
inductive SigCheck where
  | good | unverified | bad
deriving DecidableEq, Repr

def sigCheck (fl : Flash) (i : Image) : SigCheck :=
  match fl.ownerKey with
  | none => if i.isSigned then .unverified else .good
  | some key =>
    if i.isSigned then
      let at' := i.le 144 8
      if Config.ecdsaVerify key (Config.sha384 (i.bytes.take at')) (sliceBytes i.bytes at' 96) &&
          (sliceBytes i.bytes (at' + 96) 32).all (fun b => b == 0) then .good else .bad
    else if fl.requireSigned then .bad else .good

/-- Does section record s break R147? -/
def sectionBad (i : Image) (s : Nat) : Bool :=
  let w := i.sectionRec s
  let r := SectionRec.ofNat w
  r.sect != s || field w 132 0 != 0 || decide (1 < r.anchor) || (r.next != 0xFFFF && decide (i.sectionCount ≤ r.next)) ||
  decide (0xC0 < r.tresetBase + r.tresetCount)

/-- Does Station section header s × 128 + k name departures beyond the Timetable area (R148)? -/
def lineBad (i : Image) (h : Nat) : Bool :=
  [0, 1, 2, 3].any (fun j =>
    let n := i.lineCount (h / 128) (h % 128) j
    n != 0 && decide (i.le 80 8 / 32 < field (i.lineWord (h / 128) (h % 128) j) 63 24 + n))

/-- `IMAGE_SECTION`: the index at fault (R147, R148). -/
def sectionFault (i : Image) : Option Nat :=
  match firstIx i.sectionCount (sectionBad i) with
  | some s => some s
  | none =>
    let units := i.le 80 8 / 32
    if units < i.sectionCount * 128 then some (units / 128)
    else firstIx (i.sectionCount * 128) (lineBad i)

/-- Layouts allowed for a kind (R260): 0 `TILE`, 1 `ZF12`, 2 `LINEAR`. -/
def layoutsOf : Nat → List Nat
  | 0 => [0, 1]
  | 2 | 4 => [0, 1, 2]
  | 1 | 3 | 5 => [0, 2]
  | 6 | 7 => [2]
  | _ => []

/-- An element format that only the accumulators or ZF12 storage use (R34). -/
def Elem.special : Elem → Bool
  | .acc48 | .acc48i | .acc96 | .zf12 => true
  | _ => false

/-- The format of a `TILE` object (R261). -/
def tileFmt (desc : Nat) : Option Fmt :=
  match Fmt.ofDesc desc with
  | some f => if f.elem.special then none else some f
  | none => none

/-- Layout rules of R261. -/
def layoutGood (d : ObjDesc) : Bool :=
  let grid := d.rows == 0 && d.cols == 0
  match d.layout with
  | 0 => (tileFmt d.desc).isSome && d.rows != 0 && d.cols != 0 && d.extent == 0
  | 1 => d.desc == 0x0F && d.extent != 0 && d.extent % 8 == 0 && grid
  | _ => d.desc == 0 && d.extent != 0 && grid

/-- Lifetime and use rules of R261. -/
def usesGood (d : ObjDesc) (sections : Nat) : Bool :=
  let use := fun (u : Nat) => u == 0xFFFF || (decide (u < sections) &&
    (d.pattern == 0 || (decide (d.first ≤ u) && decide (u ≤ d.last))))
  (if d.pattern = 0 then d.first == 0xFFFF && d.last == 0xFFFF else decide (d.first ≤ d.last ∧ d.last < sections)) &&
  use d.useA && use d.useB &&
  (d.pattern != 2 || (d.useA != 0xFFFF && d.useB != 0xFFFF && d.useA != d.useB))

/-- Does descriptor o break R261? -/
def objectBad (i : Image) (o : Nat) : Bool :=
  let w := i.objWord o
  let d := ObjDesc.ofNat w
  !(field w 511 320 == 0 && field w 91 0 == 0 && d.object == o && decide (d.pattern ≤ 3) && (layoutsOf d.kind).contains d.layout &&
    layoutGood d && usesGood d i.sectionCount && (d.readyEn || (d.readyStation == 0 && d.readyToken == 0)))

/-- Has a section a fixed epoch (R150)? -/
def Image.fixedEpoch (i : Image) (s : Nat) : Bool := decide (s < i.sectionCount) && (i.sect s).anchor == 1

/-- Window of slot record n: section, flow, start and end (R333). -/
def slotWindow (i : Image) (n : Nat) : Nat × Nat × Nat × Nat :=
  let w := i.slotRec n
  let a := field w 111 80
  (field w 127 112, field w 39 22, a, a + field w 79 56 + field w 55 40)

/-- Do two half-open windows of one flow in one section overlap? -/
def windowsMeet (a b : Nat × Nat × Nat × Nat) : Bool :=
  a.1 == b.1 && a.2.1 == b.2.1 && decide (a.2.2.1 < b.2.2.2 ∧ b.2.2.1 < a.2.2.2)

/-- Does slot record n break R333? -/
def slotBad (i : Image) (n : Nat) : Bool :=
  let w := i.slotRec n
  field w 7 0 != 0 || field w 79 56 == 0 || !i.fixedEpoch (field w 127 112) ||
  (List.range n).any (fun k => windowsMeet (slotWindow i k) (slotWindow i n))

/-- Does an object number name a declared object of which `good` holds; or no object at all? -/
def declared (i : Image) (o : Nat) (good : ObjDesc → Bool) : Bool :=
  o == noObject || (match i.obj o with | some d => good d | none => false)

/-- The grid of a tile object covers a unit (R339). -/
def covers (d : ObjDesc) (u : UnitDesc) : Bool := decide (u.rows ≤ 256 * d.rows ∧ u.cols ≤ 256 * d.cols)

/-- Bytes that `LOG_OBJ` must have (R342). -/
def UnitDesc.logBytes (u : UnitDesc) : Nat := 2 * roundUp (4 * u.size) 64 + roundUp (ceilDiv (ceilDiv u.size 4096) 8) 64

/-- Does unit record n break R338, R339 or R342? An object field of all ones names none. -/
def unitBad (i : Image) (n : Nat) : Bool :=
  let w := i.unitRec n
  let u := UnitDesc.ofNat w
  !(field w 511 464 == 0 && field w 213 0 == 0 && decide (1 ≤ u.holdMod ∧ u.holdMod ≤ 512) && u.rows != 0 && u.cols != 0 &&
    (Round.ofCode u.workRound).isSome && (tileFmt u.workFmt).isSome &&
    declared i u.grad (fun d => d.layout == 0 && d.kind == 1 && covers d u &&
      (match tileFmt d.desc with | some f => f.elem.float.isSome | none => false)) &&
    declared i u.work (fun d => d.layout == 0 && d.kind == 4 && covers d u && d.desc == u.workFmt) &&
    declared i u.log (fun d => d.layout == 2 && decide (u.logBytes ≤ d.extent)) &&
    declared i u.prog (fun d => d.kind == 7) &&
    (u.opt == noObject || decide (u.opt + 2 * u.nopt ≤ i.objectCount)) &&
    (u.resid == noObject || decide (u.resid + 2 ≤ i.objectCount)))

/-- Does collective record n break R340 or R342? -/
def collBad (i : Image) (n : Nat) : Bool :=
  let w := i.collRec n
  let d := CollDesc.ofNat w
  !(field w 511 232 == 0 && field w 34 0 == 0 && d.id == n && decide (d.kind ≤ 2) && d.unitCount != 0 &&
    decide (d.unitBase + d.unitCount ≤ i.unitCount) && i.fixedEpoch d.sect && decide (d.due1 ≤ d.due2) &&
    decide (d.wire ≤ 1) && decide (d.comp ≤ 2) && (d.comp == 1 || field w 59 48 == 0) && decide (d.sigToken ≤ 23) &&
    (d.kind != 1 || (d.due1 == 0 && d.due2 == 0 && d.straggle == 0 && d.wire == 0 && d.comp == 0)) &&
    (d.comp == 0 || (List.range d.unitCount).all (fun k => (i.unit (d.unitBase + k)).resid != noObject)))

/-- Does schedule record n break R360? -/
def schedBad (i : Image) (n : Nat) : Bool :=
  let w := i.schedRec n
  let decay := field w 47 45
  let restart := bit w 43
  field w 42 0 != 0 || decide (5 < decay) ||
  (field w 103 80 == 0 && (restart || decide (1 ≤ decay ∧ decay ≤ 3))) || (restart && field w 79 72 == 0) ||
  (decay == 5 && field w 71 48 == 0)

/-- Bytes that an object's extent reaches in its pages (R60, R262). -/
def ObjDesc.reach (d : ObjDesc) : Nat := if d.layout = 1 then zf12Byte (d.extent / 8 - 1) + 12 else d.bytes

/-- Initial-data record (R446). -/
structure InitRec where
  src    : Nat
  dst    : Nat
  len    : Nat
  object : Nat
deriving DecidableEq, Repr

def Image.init (i : Image) (n : Nat) : InitRec :=
  let w := i.initRec n
  { src := field w 255 192, dst := field w 191 128, len := field w 127 64, object := field w 63 43 }

/-- Does initial-data record n break R446? -/
def initBad (i : Image) (n : Nat) : Bool :=
  let r := i.init n
  field (i.initRec n) 42 0 != 0 || r.src % 64 != 0 || r.dst % 64 != 0 || r.len % 64 != 0 || r.len == 0 ||
  decide (i.le 16 8 < r.src + r.len) ||
  (match i.obj r.object with
   | some d => d.pattern != 0 || decide (d.reach < r.dst + r.len)
   | none => true)

/-- The first failure of an image, in the order of R447: status and `RESULT1`. -/
def imageFault (fl : Flash) (i : Image) (len : Nat) : Option (Nat × Nat) :=
  match headerFault i len with
  | some off => some (0x2010, off)
  | none =>
    if sigCheck fl i = .bad then some (0x2016, 0)
    else match sectionFault i with
      | some n => some (0x2011, n)
      | none => match firstIx i.objectCount (objectBad i) with
        | some n => some (0x2012, n)
        | none => match firstIx i.slotCount (slotBad i) with
          | some n => some (0x2013, n)
          | none => match firstIx i.unitCount (unitBad i) with
            | some n => some (0x2014, n)
            | none => match firstIx i.collCount (collBad i) with
              | some n => some (0x2014, n)
              | none => match firstIx i.schedCount (schedBad i) with
                | some n => some (0x2015, n)
                | none => (firstIx i.initCount (initBad i)).map (fun n => (0x2017, n))

/-- Range k of the parameters of `LOAD_IMAGE`: base and length (R447). -/
def loadRange (cmd : FetchedCmd) (k : Nat) : Nat × Nat := (cmd.p (16 + 16 * k) 8, cmd.p (24 + 16 * k) 8)

/-- Faults of the parameters of `LOAD_IMAGE` (R447): status and the byte offset of the field. -/
def loadFault (cmd : FetchedCmd) : Option (Nat × Nat) :=
  let n := cmd.p 8 2
  if n = 0 ∨ 254 < n then some (0x2004, 8)
  else match firstIx n (fun k => (loadRange cmd k).1 % 4096 != 0) with
    | some k => some (0x2002, 16 + 16 * k)
    | none => match firstIx n (fun k => (loadRange cmd k).2 == 0 || (k + 1 != n && (loadRange cmd k).2 % 4096 != 0)) with
      | some k => some (0x2004, 24 + 16 * k)
      | none =>
        if ((List.range n).map (fun k => (loadRange cmd k).2)).sum ≠ cmd.p 0 8 then some (0x2004, 0) else none

/-- `LOAD_IMAGE` (R447): the image is checked once, and the slot keeps its digest and its ranges. -/
def execLoadImage (q : Fin 9) (now : Nat) (img : Option (List Byte)) (s : State) : Out :=
  s.runCommand q 0x10 now anyCmd
    (fun s cmd =>
      match loadFault cmd, img with
      | some (st, off), _ => s.reply q cmd st 0 off
      | none, none => s.reply q cmd 0x4003 0 0
      | none, some bs =>
        let len := cmd.p 0 8
        let bytes := sliceBytes bs 0 len
        let i : Image := { bytes := bytes, digest := Config.sha384 bytes,
                           ranges := (List.range (cmd.p 8 2)).map (loadRange cmd) }
        match imageFault s.flash i len with
        | some (st, n) => s.reply q cmd st 0 n
        | none =>
          let s := s.modSlot cmd.context (fun x => { x with state := .loaded, image := some i })
          s.reply q cmd (if sigCheck s.flash i = .unverified then 0x1004 else 0) 0 0)
    keepOn

/-! ## Runs and pages of a binding -/

/-- The block of the image tables, each at a 64-byte boundary (R447). -/
def tableBlock (i : Image) : List Byte := (runTables i).flatMap (fun t => padGran (sliceBytes i.bytes t.1 t.2))

/-- Entries of the Placement Map (R264). -/
def mapEntries : Nat := 4194304

/-- Runs that bound contexts hold: start and length, in rising order. -/
def State.runsHeld (s : State) : List (Nat × Nat) :=
  sortBy (fun r => r.1) ((List.range 8).flatMap (fun c =>
    match (s.slot c).image, (s.slot c).binding with
    | some i, some b => (mapItems i).map (fun m => (tget 0 b.mapBase m.1, m.2))
    | _, _ => []))

/-- The lowest free run of n entries from `at'` on, beside runs in rising order (R264). -/
def firstFit : List (Nat × Nat) → Nat → Nat → Nat
  | [], at', _ => at'
  | r :: rest, at', n => if at' + n ≤ r.1 then at' else firstFit rest (max at' (r.1 + r.2)) n

/-- Runs for a list of items (R264); none where the map has no room. -/
def assignRuns : List (Nat × Nat) → List (Nat × Nat) → Table Nat → Option (Table Nat)
  | [], _, t => some t
  | m :: rest, used, t =>
    let a := firstFit used 0 m.2
    if mapEntries < a + m.2 then none
    else assignRuns rest (insertBy (fun r => r.1) used (a, m.2)) (tset t m.1 a)

/-- Peak live pages (R268). -/
def peakPages (i : Image) : Nat :=
  let objs := (List.range i.objectCount).filterMap i.obj
  (((List.range i.sectionCount).map (fun x =>
    ((objs.filter (fun d => d.liveIn x)).map ObjDesc.pages).sum)).foldl max 0) + (systemPages i).sum

/-- Residual objects of the units, in rising order (R348). -/
def residualObjects (i : Image) : List Nat :=
  (List.range i.unitCount).foldl (fun l n =>
    let u := i.unit n
    if u.resid = noObject then l else numInsert (numInsert l u.resid) (u.resid + 1)) []

/-- Objects whose pages are pinned in Tier 1 at `BIND`: the persistent residual objects (R348). -/
def pinnedObjects (i : Image) : List Nat :=
  (residualObjects i).filter (fun o => match i.obj o with | some d => d.pattern == 0 | none => false)

def objPages (i : Image) (o : Nat) : Nat := match i.obj o with | some d => d.pages | none => 0

/-- Pages that a binding pins in Tier 1 (R264, R348). -/
def pinnedPages (i : Image) : Nat := (systemPages i).getD 0 0 + ((pinnedObjects i).map (objPages i)).sum

/-- `n` numbers from `at'` on that are not in use (R256). -/
def freeNumbers (used : List Nat) : Nat → Nat → Nat → List Nat
  | 0, _, _ => []
  | _ + 1, 0, _ => []
  | fuel + 1, n + 1, at' =>
    if used.contains at' then freeNumbers used fuel (n + 1) (at' + 1) else at' :: freeNumbers used fuel n (at' + 1)

/-- Tier 3 frames of the bound contexts (R256). -/
def State.grantsHeld (s : State) : List Nat :=
  (List.range 8).flatMap (fun c => match (s.slot c).binding with | some b => b.t3Frames | none => [])

/-! ## Flows of a binding -/

/-- Entry n of a flow table (R449). -/
def flowEntry (tab : List Byte) (n : Nat) : Nat := leAt tab (64 * n) 64
def entryFlow (e : Nat) : Nat := field e 365 348
def entryRank (e : Nat) : Nat := field e 277 262

/-- Is the flow in the table of a bound slot? -/
def State.flowHeld (s : State) (f : Nat) : Bool :=
  s.slots.any (fun x => match x.2.binding with | some b => b.flows.contains f | none => false)

/-- Can `BIND` load the flow: is it `CLOSED`, or `FAILED` with the slot that held it released (R322, R449)? -/
def State.flowFree (s : State) (f : Nat) : Bool := (s.flow f).state == 0 || ((s.flow f).state == 3 && !s.flowHeld f)

/-- Does entry n of the flow table break R325 or R449? -/
def State.flowBad (s : State) (tab : List Byte) (members n : Nat) : Bool :=
  let e := flowEntry tab n
  let f := entryFlow e
  field e 261 0 != 0 || !s.flowFree f || decide (members ≤ entryRank e) || field e 331 308 == 0 ||
  (List.range n).any (fun k => entryFlow (flowEntry tab k) == f) ||
  (List.range 24).any (fun p => bit (field e 331 308) p && !s.portExists (24 * flowDie f + p))

/-- The flow that an entry opens (R322). -/
def entryOpens (c : Nat) (e : Nat) : Flow :=
  Flow.fresh { Flow.init with
    slot := c, peerAddr := field e 511 384, peerFlow := field e 383 366, peerUdp := field e 347 332, portMask := field e 331 308,
    npaths := field e 307 300 + 1, dscp := field e 299 294, peerRank := entryRank e,
    targetQ := if field e 293 278 = 0 then 5000 else field e 293 278 }

/-- Members with which this one exchanges messages of a unit (R345): `far` where messages pass between groups. -/
def unitPeers (b : Binding) (u : UnitDesc) (far : Bool) : List Nat :=
  let me := b.jobRank
  let own := u.groupOwner b.g me
  (if u.heldBy b.g me then [own] else []) ++
  (if me = own then (b.group me).filter (u.heldBy b.g) ++ (if far then [u.owner] else []) else []) ++
  (if me = u.owner ∧ far = true then (List.range b.k).map (fun g => g * b.g + u.owner % b.g) else [])

/-- Members that R345, R364 and R412 make peers of this one (R337, R449). -/
def requiredPeers (i : Image) (b : Binding) : List Nat :=
  let me := b.jobRank
  let leader := me / b.g * b.g
  let votes := if me ≠ leader then [leader]
    else b.group me ++ (if me = 0 then (List.range b.k).map (fun g => g * b.g) else [0])
  let units := (List.range i.collCount).flatMap (fun n =>
    let d := i.coll n
    d.units.flatMap (fun u => unitPeers b (i.unit u) (d.kind == 1 || (d.hier && decide (1 < b.k)))))
  let depot := b.replicaIx.map b.holder ++ b.wards
  (votes ++ units ++ depot).filter (fun r => r != me)

/-- Does unit n break the holder checks of R339? -/
def holderBad (i : Image) (b : Binding) (n : Nat) : Bool :=
  let u := i.unit n
  decide (b.g < u.holdMod) || (u.heldBy b.g b.jobRank && (u.grad == noObject || u.work == noObject))

/-- `BIND_FLOWS`: `RESULT1` of the first failure (R325, R339, R449). A collective of one group in a job of several is refused too:
DESIGN CHOICE (notes/assumptions/22.md). -/
def State.flowsFault (s : State) (i : Image) (b : Binding) (tab : List Byte) (n : Nat) : Option Nat :=
  match firstIx n (s.flowBad tab b.members) with
  | some k => some k
  | none =>
    let reached := (List.range n).map (fun k => entryRank (flowEntry tab k))
    if (requiredPeers i b).any (fun r => !reached.contains r) then some 0
    else match firstIx i.unitCount (holderBad i b) with
      | some k => some k
      | none => firstIx i.collCount (fun k => !(i.coll k).hier && (i.coll k).kind != 1 && b.k != 1)

/-! ## BIND -/

/-- Tier 3 range k of the parameters: base and frames (R449). -/
def bindRange (cmd : FetchedCmd) (k : Nat) : Nat × Nat := (cmd.p (64 + 16 * k) 8, cmd.p (72 + 16 * k) 8)

/-- Faults of the parameters of `BIND` (R337, R412, R449): status and byte offset. -/
def bindFault (cmd : FetchedCmd) : Option (Nat × Nat) :=
  let n := (cmd.p 18 2 + 1) * (cmd.p 20 2 + 1)
  if cmd.p 0 8 % 64 ≠ 0 then some (0x2002, 0)
  else if 262144 < cmd.p 8 4 then some (0x2004, 8)
  else if n ≤ cmd.p 16 2 then some (0x2004, 16)
  else if 511 < cmd.p 18 2 then some (0x2004, 18)
  else if 65536 < n then some (0x2004, 20)
  else if 2 < cmd.p 22 1 ∨ n ≤ cmd.p 22 1 then some (0x2004, 22)
  else if 64 < cmd.p 23 1 then some (0x2004, 23)
  else if cmd.p 28 2 ≠ 0 ∧ (cmd.p 28 2 < 5 ∨ 1000 < cmd.p 28 2) then some (0x2004, 28)
  else (firstIx (cmd.p 23 1) (fun k => (bindRange cmd k).1 % pageBytes != 0)).map (fun k => (0x2002, 64 + 16 * k))

/-- The binding that a `BIND` asks for, its map runs given (R449). -/
def State.bindingOf (s : State) (cmd : FetchedCmd) (i : Image) (tab : List Byte) (runs : Table Nat) : Binding :=
  let ranges := (List.range (cmd.p 23 1)).map (bindRange cmd)
  let frames := (ranges.map (fun r => r.2)).sum
  let used := s.grantsHeld
  { jobRank := cmd.p 16 2, g := cmd.p 18 2 + 1, k := cmd.p 20 2 + 1, rho := cmd.p 22 1, depotFrames := cmd.p 24 4,
    peerTimeoutMs := if cmd.p 28 2 = 0 then 10 else cmd.p 28 2, shard1 := cmd.p 32 4, shard2 := cmd.p 36 4,
    t3Frames := freeNumbers used (used.length + frames) frames 0, t3Ranges := ranges,
    flows := (List.range (cmd.p 8 4)).map (fun n => entryFlow (flowEntry tab n)), mapBase := runs, peak := peakPages i }

/-- `BIND_CAPACITY` (R256, R268, R348): `s'` is the state with the binding in its slot. -/
def capacityFault (s s' : State) (cmd : FetchedCmd) (i : Image) : Bool :=
  let frames := ((List.range (cmd.p 23 1)).map (fun k => (bindRange cmd k).2)).sum
  let pinned := (s.tiers.map.filter (fun q => q.2.held && q.2.pinned && q.2.tier == 1)).length
  decide (2097152 < s.grantsHeld.length + frames) || !s'.fits || decide (s.inService 1 < pinned + pinnedPages i)

/-- `BIND_DEPOT` (R413). -/
def depotFault (s : State) (b : Binding) : Bool :=
  decide (b.depotFrames < (b.replicaIx.map (fun i => if i = 1 then b.shard1 else b.shard2)).sum) ||
  decide (s.inService 2 < b.depotFrames)

/-- A page of Tier 1 gives way to a pinned one where none of its frames is free (R264, R348). -/
def State.makeRoom (s : State) : State :=
  if (s.freeFrame 0 1).isSome then s else s.giveWay 1

/-- The pages of an object or system item are allocated (R264, R268, R269, R348). -/
def State.allocItem (s : State) (c base object pages : Nat) (order : List Nat) (pinned : Bool) : State :=
  (List.range pages).foldl (fun s p => (if pinned then s.makeRoom else s).newPage c (base + p) object p order pinned) s

/-- Bytes of a system item copied into its pages. -/
def State.sysWrite (s : State) (c base : Nat) (bs : List Byte) : State :=
  (chunksOf 0 bs.length).foldl (fun s q =>
    s.pageWrite c (base + q.1) 1048576 q.2.1 ((bs.drop (q.1 * pageBytes + q.2.1)).take q.2.2) (fun _ => false)) s

/-- Pages of a binding, with the image's tables and the initial data in them (R264, R265, R269, R446, R447). -/
def State.bindPages (s : State) (c : Nat) (i : Image) (runs : Table Nat) : State :=
  let run := fun (m : Nat) => tget 0 runs m
  let sys := fun (n : Nat) => (systemPages i).getD n 0
  let s := s.allocItem c (run (systemItem 0)) 1048576 (sys 0) [1] true
  let s := (pinnedObjects i).foldl (fun s o => s.allocItem c (run o) o (objPages i o) [1] true) s
  let s := (List.range i.objectCount).foldl (fun s o => match i.obj o with
    | some d => if d.pattern = 0 ∧ (pinnedObjects i).contains o = false
        then s.allocItem c (run o) o d.pages (homeOrder 0) false else s
    | none => s) s
  let s := [1, 2, 3].foldl (fun s n => s.allocItem c (run (systemItem n)) 1048576 (sys n) [2, 3, 1, 0] false) s
  let s := s.sysWrite c (run (systemItem 0)) (sliceBytes i.bytes (i.le 96 8) (64 * i.objectCount))
  let s := s.sysWrite c (run (systemItem 1)) (tableBlock i)
  (List.range i.initCount).foldl (fun s n =>
    let r := i.init n
    s.objWrite c r.object r.dst (sliceBytes i.bytes r.src r.len) (fun _ => false)) s

/-- The flows of a binding open (R321, R322). -/
def State.openFlows (s : State) (c n : Nat) (tab : List Byte) : State :=
  (List.range n).foldl (fun s k => s.setFlow (entryFlow (flowEntry tab k)) (entryOpens c (flowEntry tab k))) s

/-- `BIND` is accepted (R434, R435, R449). -/
def State.bindSlot (s : State) (c : Nat) (i : Image) (b : Binding) (n : Nat) (tab : List Byte) : State :=
  let s := (s.clearSidings c).dropColl c
  let s := s.modSlot c (fun x => { x with state := .bound, binding := some b, live := [], log := LateLog.init })
  let s := s.settleTier 2 b.depotFrames
  let s := (s.bindPages c i b.mapBase).openFlows c n tab
  s.modSlot c (fun x => { x with step := StepState.init })

/-- Is the image that `BIND` reads the one that was checked (R447)? -/
def sameImage (i : Image) (bs : List Byte) : Bool :=
  let bytes := sliceBytes bs 0 i.bytes.length
  bytes == i.bytes || Config.sha384 bytes == i.digest

/-- `BIND` (R447, R449): its checks in order, and what it allocates. -/
def execBind (q : Fin 9) (now : Nat) (img flows : Option (List Byte)) (s : State) : Out :=
  s.runCommand q 0x11 now anyCmd
    (fun s cmd =>
      let c := cmd.context
      let n := cmd.p 8 4
      match bindFault cmd, (s.slot c).image, img, (if n = 0 then some [] else flows) with
      | some (st, off), _, _, _ => s.reply q cmd st 0 off
      | none, some i, some bs, some tab =>
        if sameImage i bs = false then s.reply q cmd 0x2018 0 0
        else match assignRuns (mapItems i) s.runsHeld [] with
          | none => s.reply q cmd 0x2020 0 0
          | some runs =>
            let b := s.bindingOf cmd i tab runs
            let s' := s.modSlot c (fun x => { x with binding := some b })
            if capacityFault s s' cmd i then s.reply q cmd 0x2021 0 0
            else match s.flowsFault i b tab n with
              | some k => s.reply q cmd 0x2022 0 k
              | none =>
                if depotFault s b then s.reply q cmd 0x2023 0 0
                else (s.bindSlot c i b n tab).reply q cmd 0 b.peak 0
      | none, _, _, _ => s.reply q cmd 0x4003 0 0)
    keepOn

end Sys2Proof.Machine
end

