-- ==== Sys2Proof/Machine/Census.lean ====
section
/-! DEFINITION. Census (R457, R458, R487), counters (R455) and logs (R456). -/

namespace Sys2Proof.Machine

open Sys2Proof

/-! ## Counters -/

/-- Instance i of a counter group, latched at line time lt (R455). -/
def State.counterBytes (s : State) (g i : Nat) : List Byte :=
  let cs := groupCtrs g
  leBytes 8 s.time.lt ++ cs.flatMap (fun c => leBytes 8 (s.ctr c i).value) ++
  leBytes (8 * ceilDiv cs.length 64) (bitMap cs.length (fun n => match cs[n]? with | some c => (s.ctr c i).sat | none => false))

/-- `READ_COUNTERS` (R455). -/
def execReadCounters (q : Fin 9) (now : Nat) (s : State) : Out :=
  s.runCommand q 0x22 now anyCmd
    (fun s cmd =>
      let g := cmd.p 0 1
      let first := cmd.p 2 2
      let n := cmd.p 4 2
      if 8 < g then s.reply q cmd 0x2004 0 0
      else if groupInstances g ≤ first then s.reply q cmd 0x2004 0 2
      else if groupInstances g < first + n then s.reply q cmd 0x2004 0 4
      else
        let data := (List.range n).flatMap (fun i => s.counterBytes g (first + i))
        let sat := (List.range n).any (fun i => (groupCtrs g).any (fun c => (s.ctr c (first + i)).sat))
        s.replyData q cmd (if sat then 0x1002 else 0) data data.length)
    keepOn

/-! ## Logs -/

/-- Whole records of `size` bytes that a command's byte limit takes (R437, R456). -/
def recordsFor (q : Fin 9) (cmd : FetchedCmd) (size : Nat) : Nat :=
  (if q = 8 then min (cmd.p 16 4) 4096 else cmd.p 16 4) / size

/-- `READ_LOG` of a straggler ring: the oldest records, freed with `CONSUME` (R353, R456). -/
def State.readStragglers (s : State) (q : Fin 9) (cmd : FetchedCmd) : State :=
  let die := cmd.p 1 1
  let l := tget [] s.coll.strag die
  let out := l.take (recordsFor q cmd 16)
  let eat := cmd.p 2 1 == 1
  let status := if tget 0 s.coll.stragLost die = 0 then 0 else 0x1003
  let s := if eat then s.setColl { s.coll with
      strag := tset s.coll.strag die (l.drop out.length)
      stragAt := tset s.coll.stragAt die ((tget 0 s.coll.stragAt die + out.length) % 4096)
      stragLost := tset s.coll.stragLost die 0 } else s
  s.replyData q cmd status (out.flatMap (leBytes 16)) (if eat then l.length - out.length else l.length)

/-- `READ_LOG` (R456). A lateness log needs a slot; a straggler ring takes any context. -/
def execReadLog (q : Fin 9) (now : Nat) (s : State) : Out :=
  s.runCommand q 0x23 now anyCmd
    (fun s cmd =>
      if 1 < cmd.p 0 1 then s.reply q cmd 0x2004 0 0
      else if 1 < cmd.p 1 1 then s.reply q cmd 0x2004 0 1
      else if 1 < cmd.p 2 1 then s.reply q cmd 0x2004 0 2
      else if cmd.p 0 1 = 1 then s.readStragglers q cmd
      else if 8 ≤ cmd.context then s.reply q cmd 0x2002 0 18
      else
        let log := (s.slot cmd.context).log
        let out := (log.entries.drop (cmd.p 4 4)).take (recordsFor q cmd 32)
        s.replyData q cmd (if log.lost = 0 then 0 else 0x1003) (out.flatMap (leBytes 32)) log.entries.length)
    keepOn

/-! ## Parts of a snapshot -/

/-- Code of a slot's state in part 0x00 (R487). -/
def SlotState.code : SlotState → Nat
  | .empty => 0 | .loaded => 1 | .bound => 2 | .running => 3 | .recovering => 4 | .preempted => 5 | .stopped => 6

/-- Books of a tier: frames in service, free, held, and spares (R257, R275, R487); Tier 3 is the grant of context c. -/
def State.tierBook (s : State) (c tier : Nat) : List (Nat × Nat × Nat) :=
  let grant := match (s.slot c).binding with | some b => b.t3Frames | none => []
  let held := if tier = 3 then ((s.heldFrames 3).filter grant.contains).length else (s.heldFrames tier).length
  let serve := if tier = 3 then (if c < 8 then s.grantInService grant else 0) else s.inService tier
  let gone := if tier = 3 then (grant.filter s.tiers.t3Retired.contains).length
    else (s.retiredIn tier).length
  let spares := if tier = 0 ∨ (tier = 3 ∧ (8 ≤ c ∨ grant.length < 128)) then 0 else 64 - gone
  let at' := 272 + 16 * tier
  [(at', 4, serve), (at' + 4, 4, serve - held), (at' + 8, 4, held), (at' + 12, 4, spares)]

/-- The chain in part 0x00 (R487): that of the context recorded, where it is the one that runs. -/
def State.chainFields (s : State) (c : Nat) : List (Nat × Nat × Nat) :=
  if 8 ≤ c then []
  else
    let l := if s.runSlot = some c then s.shunter.chain else []
    (128, 1, l.length) :: (List.range 64).map (fun i => (144 + 2 * i, 2, l.getD i 0xFFFF))

/-- Part 0x00 (R487): the snapshot's header. -/
def State.part0 (s : State) (t trigger c : Nat) (rec' : Option EvtRec) : List Byte :=
  let p := s.power
  let pol := fun (b : Bool) => if b then 2 else 1
  let ctx := (s.slot c).step.committed
  packBytes 4096
    ([(0, 8, t), (8, 1, trigger), (9, 1, c), (12, 4, s.stateWord),
      (16, 64, match rec' with | some r => r.word | none => ones 512),
      (80, 1, pol s.policies.budget), (81, 1, pol s.policies.prompt), (82, 1, pol s.policies.drop), (83, 1, pol s.policies.padded),
      (84, 2, p.fSet), (86, 2, p.fMax), (88, 2, p.fastCeil), (90, 2, p.capCeil), (92, 2, p.thermCeil), (94, 1, p.admission),
      (95, 1, flag p.tight), (96, 2, p.quanta), (98, 2, qNet), (100, 2, p.qBase), (102, 2, p.qComp), (104, 2, twos 16 p.qFree)] ++
     (List.range 8).map (fun i => (112 + i, 1, (s.slot i).state.code)) ++
     (if c < 8 then [(120, 4, ctx), (124, 4, s.stepEpoch c)] else []) ++ s.chainFields c ++
     [0, 1, 2, 3].flatMap (s.tierBook c))

/-- Code of the shadow plane's state, and its tag (R187, R458). -/
def Shadow.code : Shadow → Nat × Nat
  | .empty => (0, 0)
  | .staging tag _ _ _ _ => (1, tag)
  | .full pl _ => (2, pl.tag)

/-- A free value for the cause of a line whose head waits for nothing that R167 names, or that has no head: the spec states none
(notes/assumptions/6.md). -/
def State.freeCause (s : State) (k j : Nat) : Nat := Config.freeValue (s.freeIx + 4 * k + j) % 11

/-- The cause of a head's wait at this instant (R155, R167): a Token that it lacks, dispatch where it is ready, the boundary where the
section's epoch has not come, or its unit. -/
def State.headCause (s : State) (k j : Nat) : Nat :=
  match s.headOf k j with
  | .head h =>
    if (s.station k).lacks h != [] then s.delayCause k h
    else if (readyLines s k (s.cycle h.p)).contains j then 2
    else if s.time.lt < h.planned - Dep.notBefore h.word then 10
    else if s.time.lt < h.planned then s.freeCause k j
    else s.delayCause k h
  | _ => s.freeCause k j

/-- A running line in a Station record (R458): section, head index, cause. -/
def State.lineFields (s : State) (k j : Nat) : List (Nat × Nat × Nat) :=
  let sect := match s.workSlot with
    | some c => (match (s.slot c).run with | some r => r.sect | none => 0xFFFF)
    | none => 0xFFFF
  let at' := 16 + 16 * j
  [(at', 2, sect), (at' + 2, 4, ((s.station k).line j).next), (at' + 6, 1, s.headCause k j)]

/-- A Station record (R458): of a spare or a retired Station only the first two bytes. -/
def State.stationBytes (s : State) (p : Nat) : List Byte :=
  let gone := s.flash.retired.contains p
  match s.logical p with
  | none => packBytes 2048 [(0, 1, 0xFF), (1, 1, if gone then 1 else 2)]
  | some k =>
    let st := s.station k
    let sh := st.shadow.code
    packBytes 2048
      ([(0, 1, k), (80, 1, sh.1), (81, 1, sh.2)] ++ [0, 1, 2, 3].flatMap (s.lineFields k) ++
       (List.range 8).map (fun g => (128 + 32 * g, 32, (st.group g).word)) ++
       (List.range 256).map (fun t => (384 + 2 * t, 2, st.token t)))

/-- Part 0x02: the 2,048 `ROW_STATUS` words of a physical Station (R487); of one that carries no logical number as after reset. -/
def State.rowBytes (s : State) (p : Nat) : List Byte :=
  let st := match s.logical p with | some k => s.station k | none => Station.init
  (List.range 2048).flatMap (fun r => leBytes 4 (st.row r).word)

/-- `STATE` of a Siding entry (R290); none for a position that holds no slot. -/
def PosState.code : PosState → Option Nat
  | .inFlight => some 1
  | .filled => some 2
  | .returning => some 3
  | .reserved | .gone => none

/-- A Siding entry (R290, R487). -/
def Pos.entry (p : Pos) : Option Nat :=
  p.state.code.map (fun c => place p.object 107 + place p.row 83 + place p.col 59 + place p.desc 51 + place p.sect 35 +
    place (flag p.poison) 34 + place c 32)

/-- Part 0x03: one Siding (R487). -/
def State.sidingBytes (s : State) (k i : Nat) : List Byte :=
  let st := s.station k
  let d := st.siding i
  packBytes 1088
    ([(0, 4, d.base), (4, 4, d.size), (8, 1, if d.isSet then d.line else 0xFF), (9, 1, d.freeSlots), (10, 1, d.countIn .filled),
      (11, 1, d.countIn .inFlight), (12, 1, d.countIn .returning), (13, 1, 64 - st.wbHeld), (14, 1, st.wbHeld), (16, 4, d.fillAt)] ++
     (((sortBy (fun p => p.num) d.slots).filterMap Pos.entry).take 64).zipIdx.map (fun q => (64 + 16 * q.2, 16, q.1)))

/-- Part 0x04: one line of a physical Station (R487). -/
def State.loopBytes (s : State) (p l : Nat) : List Byte :=
  let h := s.hop p l
  let held := if h.mode == .holding then h.held else none
  if s.flash.retired.contains p then packBytes 512 []
  else
    packBytes 512
      [(0, 1, h.credits), (1, 1, (s.hop (prevNode s.flash.retired p l) l).occupied), (2, 1, h.replay.length),
       (3, 1, h.replay.headD 0),
       (4, 1, flag held.isSome + 2 * flag (longHop s.flash.retired p l) +
          4 * flag (h.moving.isSome || (h.held.isSome && held.isNone))),
       (256, 256, match held with | some c => c.header.toNat | none => 0)]

/-- A Placement Map entry (R265). -/
def MapEntry.word (m : MapEntry) : Nat :=
  place m.epoch 96 + place m.object 75 + place m.page 53 + place m.tier 51 + place m.frame 30 + place m.destTier 28 +
  place m.destFrame 7 + place m.state 4 + place (flag m.pinned) 3 + place (flag m.zero) 2

/-- Part 0x05: up to 256 entries of moves in flight, in ascending map index (R487). -/
def State.part5 (s : State) : List Byte :=
  sliceBytes (((s.tiers.map.filter (fun q => q.2.state == 2)).take 256).flatMap (fun q => leBytes 16 q.2.word)) 0 4096

/-- Part 0x06: temperatures and trims (R381, R382, R394, R487). -/
def State.part6 (s : State) : List Byte :=
  let p := s.power
  packBytes 4096
    ((List.range 1280).map (fun i =>
      let pt := tget Point.init p.points i
      (2 * i, 2, if pt.failed then 0x8000 else twos 16 pt.reading)) ++
     (List.range 8).flatMap (fun x =>
      [(2560 + 4 * x, 1, 5 * ((tget [] p.tempTrims x).filter (fun t => decide (s.time.lt < t))).length),
       (2561 + 4 * x, 1, tget 0 s.flash.lifeTrim x),
       (2562 + 4 * x, 1, if p.boards.any (fun b => decide (s.time.lt < b.endLt)) then 10 else 0)]))

/-- A flow context (R321). `free` stands for the bits of `SND_MAP`, whose code the spec does not give (notes/assumptions/6.md). -/
def Flow.word (fl : Flow) (n free : Nat) : Nat :=
  let rcv := ((List.range 384).map (fun b => if fl.rcvMap.contains ((fl.rcvNxt + 1 + b) % 2 ^ 32) then 2 ^ b else 0)).sum
  place fl.peerAddr 896 + place fl.peerFlow 878 + place n 860 + place fl.peerUdp 844 + place fl.portMask 820 +
  place (fl.npaths - 1) 812 + place fl.dscp 806 + place fl.state 803 + place fl.keyIdTx 784 + place fl.keyIdRx 768 +
  place fl.txSeq 720 + place fl.sndNxt 688 + place fl.sndUna 656 + place fl.rcvNxt 624 + place fl.cwnd 608 + place fl.srtt 584 +
  place fl.minRtt 560 + place fl.rto 536 + place fl.rtoRun 528 + place fl.targetQ 512 +
  place (if fl.sent = [] then 0 else free % 2 ^ 128) 384 + rcv

/-- Flows of the context recorded, in ascending number. -/
def State.censusFlows (s : State) (c : Nat) : List Nat :=
  match (s.slot c).binding with
  | some b => if c < 8 then b.flows.foldl numInsert [] else []
  | none => []

/-- Part 0x07: the flow contexts (R458). -/
def State.part7 (s : State) (c : Nat) : List Byte :=
  (s.censusFlows c).zipIdx.flatMap (fun q => leBytes 128 ((s.flow q.1).word q.1 (Config.freeValue (s.freeIx + 512 + q.2))))

/-- Is a unit of a collective done on this member? -/
def State.unitOver (s : State) (img : Image) (b : Binding) (d : CollDesc) (unit : Nat) : Bool :=
  if d.kind = 1 then
    let u := img.unit unit
    !u.heldBy b.g b.jobRank || (tget [] s.coll.gathered (gatherKey d.id unit)).length == u.chunks
  else s.unitDone img b d unit

/-- Units of a collective whose stage 1 or 2 this member has still to close (R351). -/
def State.openUnits (s : State) (img : Image) (b : Binding) (d : CollDesc) (stage : Nat) : List Nat :=
  d.units.filter (fun n =>
    let u := img.unit n
    if stage = 0 then u.groupOwner b.g b.jobRank == b.jobRank && !s.coll.groupSums.any (fun q => q.1 == n)
    else d.hier && decide (1 < b.k) && u.owner == b.jobRank && !s.coll.logged.contains n)

/-- `STAGE` of a collective in progress (R344, R487). -/
def State.collStage (s : State) (img : Image) (b : Binding) (d : CollDesc) : Nat :=
  if d.units.all (s.unitOver img b d) then 4
  else if d.kind = 1 then 2
  else if s.openUnits img b d 0 ≠ [] then 0
  else if s.openUnits img b d 1 ≠ [] then 1
  else if d.kind = 2 then 3 else 4

/-- A collective record of part 0x08 (R487), for the units of die `die`. -/
def State.collFields (s : State) (img : Image) (b : Binding) (r : CollRun) (die at' : Nat) : List (Nat × Nat × Nat) :=
  let d := img.coll r.id
  let mine := d.units.filter (fun n => (img.unit n).die == die)
  let close := if d.kind = 1 then ones 64
    else if s.openUnits img b d 0 ≠ [] then r.epochLt + d.due1 + d.straggle
    else if s.openUnits img b d 1 ≠ [] then r.epochLt + d.due2 + d.straggle
    else ones 64
  [(at', 2, r.id), (at' + 2, 1, s.collStage img b d), (at' + 8, 8, close),
   (at' + 16, 4, (s.coll.folds.filter (fun x => x.coll == r.id && mine.contains x.unit)).length),
   (at' + 20, 4, (mine.filter (s.unitOver img b d)).length)]

/-- Code of a replica's state (R487). -/
def Replica.code : Replica → Nat
  | .absent => 0 | .seeding => 1 | .current => 2 | .lost => 3

/-- Figures of the collective engine that belong to context c, in the block of die `die`: a collective stands in the block of each
die that runs units of it (R487). -/
def State.collBlock (s : State) (c die : Nat) : List (Nat × Nat × Nat) :=
  match s.jobOf c with
  | some (_, img, b) =>
      let s := s.withSlot c
      let runs := sortBy (fun (r : CollRun) => r.id) (s.coll.runs.filter (fun r =>
        (img.coll r.id).units.any (fun n => (img.unit n).die == die)))
      let ue := match (s.engine die).queue with | q :: _ => q.unit | [] => 0xFFFFFFFF
      [(0, 1, min 255 runs.length), (2056, 1, (tget .absent s.coll.replicas 1).code),
       (2057, 1, (tget .absent s.coll.replicas 2).code), (2064, 4, ue)] ++
      ((runs.take 64).zipIdx.flatMap (fun q => s.collFields img b q.1 die (8 + 32 * q.2)))
  | none => if c < 8 then [(2064, 4, 0xFFFFFFFF)] else []

/-- Part 0x08: the block of one die (R487). -/
def State.dieBytes (s : State) (c die : Nat) : List Byte :=
  packBytes 4096
    (s.collBlock c die ++ [(2072, 4, tget 0 s.coll.stragAt die), (2076, 4, (tget [] s.coll.strag die).length)])

/-- Part 0x09: every counter group in order (R455, R458). -/
def State.part9 (s : State) : List Byte :=
  (List.range 9).flatMap (fun g => (List.range (groupInstances g)).flatMap (s.counterBytes g))

/-- The parts of a snapshot of context c, or of the module where c is 15 (R458). -/
def State.snapshot (s : State) (t trigger c : Nat) (rec' : Option EvtRec) : List (List Byte) :=
  [s.part0 t trigger c rec', (List.range 136).flatMap s.stationBytes, (List.range 136).flatMap s.rowBytes,
   (List.range 2048).flatMap (fun n => s.sidingBytes (n / 16) (n % 16)),
   (List.range 272).flatMap (fun n => s.loopBytes (n / 2) (n % 2)), s.part5, s.part6, s.part7 c,
   s.dieBytes c 0 ++ s.dieBytes c 1, s.part9]

/-! ## The commands -/

/-- `CENSUS` (R457): one at a time; the command completes when the snapshot has latched. -/
def execCensus (q : Fin 9) (now : Nat) (s : State) : Out :=
  s.runCommand q 0x20 now anyCmd
    (fun s cmd =>
      let tr := cmd.p 0 1
      if 2 < tr then s.reply q cmd 0x2004 0 0
      else if tr = 2 ∧ (cmd.p 1 1 = 0 ∨ 7 < cmd.p 1 1) then s.reply q cmd 0x2004 0 1
      else if s.census ≠ .idle then s.reply q cmd 0x2006 0 0
      else if tr = 1 ∧ cmd.p 8 8 < s.time.lt + 2048 then s.reply q cmd 0x2004 0 8
      else
        let x : CensusState := if tr = 2 then .armed q cmd.context (cmd.p 1 1) (cmd.p 2 1)
          else .scheduled q tr cmd.context (if tr = 0 then s.time.lt + 2048 else cmd.p 8 8)
        { s with census := x }.accept q cmd)
    keepOn

/-- The snapshot latches (R457): it is held, and the `CENSUS` of queue q replies with T. -/
def State.latch (s : State) (q t trigger c : Nat) (rec' : Option EvtRec) : State :=
  let held : CensusState := .held (s.snapshot t trigger c rec')
  let s := { s with census := held, freeIx := s.freeIx + 512 + (s.censusFlows c).length }
  match (s.queue q).cmds.find? (fun x => x.accepted && x.opcode == 0x20) with
  | some cmd => s.reply q cmd 0 t 0
  | none => s

/-- Does a recovery under way hold back a Census of slot c that no fault triggered (R424, R457)? -/
def State.censusWaits (s : State) (c : Nat) : Bool :=
  match s.recovering with
  | some r => c == r || c == 15
  | none => false

/-- CENSUS_LATCH: T has come (R457). The snapshot holds the state as this event finds it. -/
def execCensusLatch (now : Nat) (s : State) : Out :=
  let s := (s.advance now).reachEpoch
  match s.census with
  | .scheduled q tr c t => if t ≤ s.time.lt ∧ s.censusWaits c = false then .next (s.latch q t tr c none) else .next s
  | .triggered q c t r => if t ≤ s.time.lt then .next (s.latch q t 2 c (some r)) else .next s
  | _ => .next s

/-- `READ_CENSUS` (R457, R487). -/
def execReadCensus (q : Fin 9) (now : Nat) (s : State) : Out :=
  s.runCommand q 0x21 now anyCmd
    (fun s cmd =>
      match s.census with
      | .held parts =>
        let part := parts.getD (cmd.p 0 1) []
        let off := cmd.p 4 4
        if 9 < cmd.p 0 1 then s.reply q cmd 0x2004 0 0
        else if 1 < cmd.p 1 1 then s.reply q cmd 0x2004 0 1
        else if part.length < off then s.reply q cmd 0x2004 0 4
        else
          let free := cmd.p 1 1 == 1
          let s := if free then { s with census := .idle } else s
          s.replyData q cmd 0 (part.drop off) part.length
      | _ => s.reply q cmd 0x2003 0 0)
    keepOn

end Sys2Proof.Machine
end

