-- ==== Sys2Proof/Machine/Dispatch.lean ====
section
/-! DEFINITION. One arm per command: each calls its meaning. -/

namespace Sys2Proof.Machine

open Sys2Proof

def exec (i : Instr) (s : State) : Host.Outcome State Fault Refusal :=
  match i with
  | .identify q now => Sys2Proof.Machine.execIdentify q now s
  | .resetContext q now => Sys2Proof.Machine.execResetContext q now s
  | .resetWarm q now => Sys2Proof.Machine.execResetWarm q now s
  | .resetCold q now => Sys2Proof.Machine.execResetCold q now s
  | .fence q now => Sys2Proof.Machine.execFence q now s
  | .setPolicy q now => Sys2Proof.Machine.execSetPolicy q now s
  | .setCap q now => Sys2Proof.Machine.execSetCap q now s
  | .setTime q now => Sys2Proof.Machine.execSetTime q now s
  | .netConfig q now => Sys2Proof.Machine.execNetConfig q now s
  | .keyInstall q now => Sys2Proof.Machine.execKeyInstall q now s
  | .ownerEnrol q now => Sys2Proof.Machine.execOwnerEnrol q now s
  | .loadImage q now img => Sys2Proof.Machine.execLoadImage q now img s
  | .bind q now img flows => Sys2Proof.Machine.execBind q now img flows s
  | .release q now => Sys2Proof.Machine.execRelease q now s
  | .start q now => Sys2Proof.Machine.execStart q now s
  | .halt q now => Sys2Proof.Machine.execHalt q now s
  | .preempt q now => Sys2Proof.Machine.execPreempt q now s
  | .resume q t => Sys2Proof.Machine.execResume q t s
  | .cancelSection q now => Sys2Proof.Machine.execCancelSection q now s
  | .depotSnapshot q now => Sys2Proof.Machine.execDepotSnapshot q now s
  | .adopt q now => Sys2Proof.Machine.execAdopt q now s
  | .census q now => Sys2Proof.Machine.execCensus q now s
  | .readCensus q now => Sys2Proof.Machine.execReadCensus q now s
  | .readCounters q now => Sys2Proof.Machine.execReadCounters q now s
  | .readLog q now => Sys2Proof.Machine.execReadLog q now s
  | .sqTailWrite q v => Sys2Proof.Machine.execSqTailWrite q v s
  | .cqHeadWrite q v => Sys2Proof.Machine.execCqHeadWrite q v s
  | .queueEnable q v => Sys2Proof.Machine.execQueueEnable q v s
  | .queueDisable q v => Sys2Proof.Machine.execQueueDisable q v s
  | .evtHeadWrite v now => Sys2Proof.Machine.execEvtHeadWrite v now s
  | .eventRingEnable v now => Sys2Proof.Machine.execEventRingEnable v now s
  | .registerWrite off size v => Sys2Proof.Machine.execRegisterWrite off size v s
  | .commandFetch q header params now => Sys2Proof.Machine.execCommandFetch q header params now s
  | .mctpRequest header params now => Sys2Proof.Machine.execMctpRequest header params now s
  | .msixMessage vec now => Sys2Proof.Machine.execMsixMessage vec now s
  | .eventRecordFlush now => Sys2Proof.Machine.execEventRecordFlush now s
  | .censusLatch now => Sys2Proof.Machine.execCensusLatch now s
  | .token k j t => Sys2Proof.Machine.execToken k j t s
  | .sectionEnd k j t => Sys2Proof.Machine.execSectionEnd k j t s
  | .points k j t => Sys2Proof.Machine.execPoints k j t s
  | .pointsSelect t => Sys2Proof.Machine.execPointsSelect t s
  | .warningBoard k j t => Sys2Proof.Machine.execWarningBoard k j t s
  | .stage k j t => Sys2Proof.Machine.execStage k j t s
  | .mma k j t => Sys2Proof.Machine.execMma k j t s
  | .mmaCplx k j t => Sys2Proof.Machine.execMmaCplx k j t s
  | .loopSend k j t => Sys2Proof.Machine.execLoopSend k j t s
  | .loopTake k j t => Sys2Proof.Machine.execLoopTake k j t s
  | .ballast k j t => Sys2Proof.Machine.execBallast k j t s
  | .groupOpen k j t => Sys2Proof.Machine.execGroupOpen k j t s
  | .groupClose k j t => Sys2Proof.Machine.execGroupClose k j t s
  | .turn k j t => Sys2Proof.Machine.execTurn k j t s
  | .drain k j t => Sys2Proof.Machine.execDrain k j t s
  | .drainCplx k j t => Sys2Proof.Machine.execDrainCplx k j t s
  | .convert k j t => Sys2Proof.Machine.execConvert k j t s
  | .act k j t => Sys2Proof.Machine.execAct k j t s
  | .ew k j t => Sys2Proof.Machine.execEw k j t s
  | .norm k j t => Sys2Proof.Machine.execNorm k j t s
  | .vstats k j t => Sys2Proof.Machine.execVstats k j t s
  | .manifest k j t => Sys2Proof.Machine.execManifest k j t s
  | .sidingSet k j t => Sys2Proof.Machine.execSidingSet k j t s
  | .sidingExpect k j t => Sys2Proof.Machine.execSidingExpect k j t s
  | .coll k j t => Sys2Proof.Machine.execColl k j t s
  | .rightAway k j t => Sys2Proof.Machine.execRightAway k j t s
  | .departureComplete k j sect index lt sc => Sys2Proof.Machine.execDepartureComplete k j sect index lt sc s
  | .tokenSignalLand k tok t => Sys2Proof.Machine.execTokenSignalLand k tok t s
  | .waitTimeout k j now => Sys2Proof.Machine.execWaitTimeout k j now s
  | .watchdogExpiry k j now => Sys2Proof.Machine.execWatchdogExpiry k j now s
  | .sectionBoundary now => Sys2Proof.Machine.execSectionBoundary now s
  | .rowEntry k sc bad => Sys2Proof.Machine.execRowEntry k sc bad s
  | .invalidRowEntry k sc => Sys2Proof.Machine.execInvalidRowEntry k sc s
  | .stagingComplete k sc => Sys2Proof.Machine.execStagingComplete k sc s
  | .checkVerdict k faults now => Sys2Proof.Machine.execCheckVerdict k faults now s
  | .rowRelease k => Sys2Proof.Machine.execRowRelease k s
  | .accTermWrite k retries fatal errs now => Sys2Proof.Machine.execAccTermWrite k retries fatal errs now s
  | .cascadeSpill w => Sys2Proof.Machine.execCascadeSpill w s
  | .drainInterlockEnd k sc acc => Sys2Proof.Machine.execDrainInterlockEnd k sc acc s
  | .accSave k t acc => Sys2Proof.Machine.execAccSave k t acc s
  | .consistInsert p l => Sys2Proof.Machine.execConsistInsert p l s
  | .consistArrive p l t => Sys2Proof.Machine.execConsistArrive p l t s
  | .loopFlitParityError p x => Sys2Proof.Machine.execLoopFlitParityError p x s
  | .loopReplayRequest p l => Sys2Proof.Machine.execLoopReplayRequest p l s
  | .loopHopDown p l now => Sys2Proof.Machine.execLoopHopDown p l now s
  | .stationRetire p now => Sys2Proof.Machine.execStationRetire p now s
  | .stepReplay now => Sys2Proof.Machine.execStepReplay now s
  | .turnRecordServe u r t => Sys2Proof.Machine.execTurnRecordServe u r t s
  | .waybillBurstFetch t => Sys2Proof.Machine.execWaybillBurstFetch t s
  | .waybillBurstArrive k errs now => Sys2Proof.Machine.execWaybillBurstArrive k errs now s
  | .sidingFillStart k t => Sys2Proof.Machine.execSidingFillStart k t s
  | .sidingFillLand k sid ix r t => Sys2Proof.Machine.execSidingFillLand k sid ix r t s
  | .writebackStart k => Sys2Proof.Machine.execWritebackStart k s
  | .writebackDone k bad now => Sys2Proof.Machine.execWritebackDone k bad now s
  | .sidingOverflow k sid now => Sys2Proof.Machine.execSidingOverflow k sid now s
  | .pageMoveStart => Sys2Proof.Machine.execPageMoveStart s
  | .pageMoveComplete ix errs now => Sys2Proof.Machine.execPageMoveComplete ix errs now s
  | .shuntReadySignal object now => Sys2Proof.Machine.execShuntReadySignal object now s
  | .scrubRead tier frame gran ecc now => Sys2Proof.Machine.execScrubRead tier frame gran ecc now s
  | .ethFrameReceive port frame now => Sys2Proof.Machine.execEthFrameReceive port frame now s
  | .arpNdpRequest port mac ip => Sys2Proof.Machine.execArpNdpRequest port mac ip s
  | .icmpEchoRequest port src dst data => Sys2Proof.Machine.execIcmpEchoRequest port src dst data s
  | .gatewayRefresh port mac now => Sys2Proof.Machine.execGatewayRefresh port mac now s
  | .bililjoDataReceive flow now => Sys2Proof.Machine.execBililjoDataReceive flow now s
  | .bililjoAckReceive flow now => Sys2Proof.Machine.execBililjoAckReceive flow now s
  | .bililjoProbeReceive flow now => Sys2Proof.Machine.execBililjoProbeReceive flow now s
  | .bililjoDataSend flow now => Sys2Proof.Machine.execBililjoDataSend flow now s
  | .ackDelayExpiry flow now => Sys2Proof.Machine.execAckDelayExpiry flow now s
  | .rtoExpiry flow now => Sys2Proof.Machine.execRtoExpiry flow now s
  | .pathSuspendExpiry flow path now => Sys2Proof.Machine.execPathSuspendExpiry flow path now s
  | .portLockLoss port now => Sys2Proof.Machine.execPortLockLoss port now s
  | .portRejoin port now => Sys2Proof.Machine.execPortRejoin port now s
  | .slotWindowOpen flow ix now => Sys2Proof.Machine.execSlotWindowOpen flow ix now s
  | .slotWindowClose flow ix now => Sys2Proof.Machine.execSlotWindowClose flow ix now s
  | .keyActivate flow now => Sys2Proof.Machine.execKeyActivate flow now s
  | .keyWithdraw flow now => Sys2Proof.Machine.execKeyWithdraw flow now s
  | .flowDrainTimeout flow now => Sys2Proof.Machine.execFlowDrainTimeout flow now s
  | .cageTrainComplete cage now => Sys2Proof.Machine.execCageTrainComplete cage now s
  | .osfpInsert cage watts now => Sys2Proof.Machine.execOsfpInsert cage watts now s
  | .osfpRemove cage now => Sys2Proof.Machine.execOsfpRemove cage now s
  | .ptpMessageReceive port net msg now => Sys2Proof.Machine.execPtpMessageReceive port net msg now s
  | .ptpDelayReqSend now => Sys2Proof.Machine.execPtpDelayReqSend now s
  | .ptpSyncLoss now => Sys2Proof.Machine.execPtpSyncLoss now s
  | .ppsEdge sub now => Sys2Proof.Machine.execPpsEdge sub now s
  | .holdoverExpire now => Sys2Proof.Machine.execHoldoverExpire now s
  | .lineTimeCorrect p t => Sys2Proof.Machine.execLineTimeCorrect p t s
  | .collMessageDeliver flow now => Sys2Proof.Machine.execCollMessageDeliver flow now s
  | .stageClose coll unit stage now => Sys2Proof.Machine.execStageClose coll unit stage now s
  | .ueUnitRun die t => Sys2Proof.Machine.execUeUnitRun die t s
  | .rightAwayCommit now => Sys2Proof.Machine.execRightAwayCommit now s
  | .rightAwayReject now => Sys2Proof.Machine.execRightAwayReject now s
  | .depotMessageReceive rank msg now => Sys2Proof.Machine.execDepotMessageReceive rank msg now s
  | .depotSeed replica page now => Sys2Proof.Machine.execDepotSeed replica page now s
  | .peerProbe rank now => Sys2Proof.Machine.execPeerProbe rank now s
  | .peerLost rank now => Sys2Proof.Machine.execPeerLost rank now s
  | .clockStretchRequest region margin0 period now => Sys2Proof.Machine.execClockStretchRequest region margin0 period now s
  | .marginWarn p now => Sys2Proof.Machine.execMarginWarn p now s
  | .trimLapse sector now => Sys2Proof.Machine.execTrimLapse sector now s
  | .ageingMeasure sector steps now => Sys2Proof.Machine.execAgeingMeasure sector steps now s
  | .fastLimitWindow avg surge now => Sys2Proof.Machine.execFastLimitWindow avg surge now s
  | .fastCeilingRise avg now => Sys2Proof.Machine.execFastCeilingRise avg now s
  | .capWindow avg rail island comp joules now => Sys2Proof.Machine.execCapWindow avg rail island comp joules now s
  | .thermalWindow now => Sys2Proof.Machine.execThermalWindow now s
  | .rampMeterGrant now => Sys2Proof.Machine.execRampMeterGrant now s
  | .stationFallRequest k t => Sys2Proof.Machine.execStationFallRequest k t s
  | .stationRiseRequest k now => Sys2Proof.Machine.execStationRiseRequest k now s
  | .powerStateRelax now => Sys2Proof.Machine.execPowerStateRelax now s
  | .preRampHoldEnd now => Sys2Proof.Machine.execPreRampHoldEnd now s
  | .tempConversion point reading now => Sys2Proof.Machine.execTempConversion point reading now s
  | .thermalTrip point now => Sys2Proof.Machine.execThermalTrip point now s
  | .powerFault reason mv now => Sys2Proof.Machine.execPowerFault reason mv now s
  | .inputShutdown mv => Sys2Proof.Machine.execInputShutdown mv s
  | .powerUpBegin mv => Sys2Proof.Machine.execPowerUpBegin mv s
  | .inrushComplete => Sys2Proof.Machine.execInrushComplete s
  | .standbyComplete => Sys2Proof.Machine.execStandbyComplete s
  | .mainRailsComplete => Sys2Proof.Machine.execMainRailsComplete s
  | .selftestComplete fails hot now => Sys2Proof.Machine.execSelftestComplete fails hot now s
  | .tierTrainingComplete tier bad now => Sys2Proof.Machine.execTierTrainingComplete tier bad now s
  | .modReset ns held => Sys2Proof.Machine.execModReset ns held s
  | .perstDeassert link now => Sys2Proof.Machine.execPerstDeassert link now s
  | .pcieResetPrimary cause now => Sys2Proof.Machine.execPcieResetPrimary cause now s
  | .pcieResetSecondary cause now => Sys2Proof.Machine.execPcieResetSecondary cause now s
  | .pcieConfigRequest link now => Sys2Proof.Machine.execPcieConfigRequest link now s
  | .pcieLinkDown link now => Sys2Proof.Machine.execPcieLinkDown link now s
  | .referenceLoss now => Sys2Proof.Machine.execReferenceLoss now s
  | .runEpoch now => Sys2Proof.Machine.execRunEpoch now s
  | .pcieLinkUp link now => Sys2Proof.Machine.execPcieLinkUp link now s
  | .i3cDynamicAddress a => Sys2Proof.Machine.execI3cDynamicAddress a s
  | .holderAnswerTimeout now => Sys2Proof.Machine.execHolderAnswerTimeout now s
  | .pathProbeTimeout flow path now => Sys2Proof.Machine.execPathProbeTimeout flow path now s

end Sys2Proof.Machine
end

