-- ==== Sys2Proof/Safety.lean ====
section
/-! DEFINITION. The words in which the statements speak of outcomes and states. -/

namespace Sys2Proof.Machine

open Sys2Proof

/-- Every byte memory of the machine is in its canonical form: host memory as the module has written it, the tiers and the Station
stores. -/
def State.memoriesWf (s : State) : Prop :=
  Memory.wf s.hostMem = true ∧ Memory.wf s.tiers.mem = true ∧ ∀ k, Memory.wf (s.station k).store = true

/-- Is a slot `RUNNING` or `RECOVERING`? -/
def State.busy (s : State) (c : Nat) : Bool := (s.slot c).state == .running || (s.slot c).state == .recovering

/-- At most one of the 8 slots is (R434). -/
def State.oneRuns (s : State) : Prop := ∀ c < 8, ∀ d < 8, s.busy c = true → s.busy d = true → c = d

/-- The state in which queue q looks for the command that it runs: line time has come to `now`, late pages are counted if the running
section's epoch has come (R279), related commands are parked under `PROMPT`, and reserved opcodes at the front have been answered (R435,
R436). -/
def State.looked (s : State) (q now : Nat) : State := ((s.advance now).reachEpoch.parkRelated q).rejectUnknown q

/-- No frame waits for its pages to leave before it retires (R282): none retires, then, as pages are freed or moved. -/
def State.calm (s : State) : Prop := s.shunter.retiring = []

/-- Every object that is to be live in section x has its pages already, so that the section begins with no allocation (R263). -/
def State.allLive (s : State) (c : Nat) (img : Image) (x : Nat) : Prop :=
  ∀ n o, img.obj n = some o → o.pattern = 0 ∨ o.liveIn x = false ∨ n ∈ (s.slot c).live

/-- Command `cmd` of queue q is no longer outstanding: it has been replied (R427). -/
def State.gone (t : State) (q : Nat) (cmd : FetchedCmd) : Prop := ∀ x ∈ (t.queue q).cmds, x.seq ≠ cmd.seq

/-- Queue q runs `cmd`, of opcode `op`, now: its turn has come, it is not under way, it waits for no other, and it passes the checks
that come before its own (R428, R431 to R437). -/
def State.runsCommand (s : State) (q op now : Nat) (cmd : FetchedCmd) : Prop :=
  (s.looked q now).current q = some cmd ∧ cmd.opcode = op ∧ (s.looked q now).mustWait cmd = false ∧ cmd.accepted = false ∧
  (s.looked q now).checkCommand q cmd = none

/-- Command `cmd` of queue q, outstanding in `s`, has been replied in `t`: it is gone from the queue, and its reply word stands at
`CQ_TAIL`, which has moved on, or has left as a management response (R427, R430, R432). -/
def State.replied (s t : State) (q : Nat) (cmd : FetchedCmd) (status r0 r1 : Nat) : Prop :=
  let b := s.queue q
  let w := leBytes 32 (replyWord q cmd status r0 r1 t.time.lt (b.early cmd) b.phase)
  (t.queue q).cmds = b.cmds.filter (fun x => x.seq != cmd.seq) ∧
  (q = 8 → ∃ data, t.mctpSent = s.mctpSent ++ [w ++ data]) ∧
  (q ≠ 8 → (t.queue q).cqTail = (b.cqTail + 1) % 2 ^ b.log2 ∧
    ∀ i < 32, memRead t.hostMem (b.cqBase + 32 * b.cqTail + i) = w.getD i 0)

/-- Command `cmd` of queue q is under way in `t`: it replies later. -/
def State.underWay (t : State) (q : Nat) (cmd : FetchedCmd) : Prop :=
  ∃ x ∈ (t.queue q).cmds, x.seq = cmd.seq ∧ x.accepted = true

/-- `DEST` and its length of a command that returns data (R432). -/
def FetchedCmd.dest (cmd : FetchedCmd) : Nat := cmd.p ((destAt cmd.opcode).getD 0) 8
def FetchedCmd.destLen (cmd : FetchedCmd) : Nat := cmd.p ((destAt cmd.opcode).getD 0 + 8) 4

/-- Bytes that the reply of queue q has room for (R430, R437). -/
def FetchedCmd.room (cmd : FetchedCmd) (q : Nat) : Nat := if q = 8 then min cmd.destLen 4096 else cmd.destLen

/-- The data of a successful reply has gone where the command asks (R430, R432, R437): into the management response, or to `DEST`,
but for what the reply itself overwrites there. A counter that saturates at this very reply would write its notice too. -/
def State.gaveData (s t : State) (q : Nat) (cmd : FetchedCmd) (data : List Byte) : Prop :=
  let slot := (s.queue q).cqBase + 32 * (s.queue q).cqTail
  (q = 8 → ∃ w, t.mctpSent = s.mctpSent ++ [leBytes 32 w ++ data.take (min cmd.destLen 4096)]) ∧
  (q ≠ 8 → (s.ctr .sbCommands q).value + 1 < 2 ^ 64 - 1 → ∀ i < (data.take cmd.destLen).length,
    (cmd.dest + i < slot ∨ slot + 32 ≤ cmd.dest + i) → memRead t.hostMem (cmd.dest + i) = data.getD i 0)

/-- `t` is `s` but for what replies touch: the queues, the replies, the counters, the event ring, the vectors, and host memory. -/
def State.onlyReplied (s t : State) : Prop :=
  t = { s with queues := t.queues, mctpSent := t.mctpSent, mctpData := t.mctpData, ctrs := t.ctrs, evt := t.evt,
               hostMem := t.hostMem, vectors := t.vectors }

/-- `t` is `s` but for the counters, the event ring, the vectors, and what they wrote in host memory. -/
def State.onlyLogged (s t : State) : Prop :=
  t = { s with ctrs := t.ctrs, evt := t.evt, hostMem := t.hostMem, vectors := t.vectors }

/-- The state in which line j of Station k issues at the instant t: line time, and the Station's cycle count. -/
def State.atIssue (s : State) (h : Head) (t : IssueTick) : State := (s.advance t.lt).advanceSc h.p t.sc

/-- The cycle of the issue. -/
def State.issueSc (s : State) (h : Head) (t : IssueTick) : Nat := (s.atIssue h t).cycle h.p

/-- Departure h, at the head of line j of Station k, issues at the instant t under rule r: it passes the form check, it is ready and
the Station picks it, none has issued in this cycle, and it passes the state check (R153, R155, R163). -/
def State.issues (s : State) (k j : Nat) (t : IssueTick) (r : DepRule) (h : Head) : Prop :=
  let u := s.atIssue h t
  (s.advance t.lt).headOf k j = .head h ∧ Dep.opcode h.word = r.op ∧ leastOf (commonForm h.word ++ r.form k h) = none ∧
  (u.station k).lastIssue ≠ some (u.cycle h.p) ∧ dispatch u k (u.cycle h.p) = some j ∧
  leastOf (r.check u k j h ++ reasonsOf [(boundElsewhere (u.station k) j (Dep.waits h.word), 4)]) = none

/-- The name under which the departure at the head of line j issues. -/
def State.depId (s : State) (k j : Nat) (h : Head) : DepId := { line := j, index := h.index, uid := (s.station k).issued }

/-- The departure that has issued from line j of Station k has fired its signals (R157): each is on its way to its Station. -/
def State.fired (t : State) (k j : Nat) (h : Head) : Prop :=
  ∀ g ∈ Dep.sigs h.word, ∃ x ∈ (t.station g.station).transit,
    x.token = g.tok ∧ x.count = g.count ∧ x.bySt = k ∧ x.byLine = j ∧ x.byIx = h.index

/-- The Station after reads of its store have found uncorrected errors in the granules `bad`: they are poisoned in place (R307). -/
def Station.withErrors (st : Station) (bad : List Nat) : Station :=
  { st with storePoison := (bad.filter (fun g => decide (g < 98304))).foldl numInsert st.storePoison }

/-- `t` is `s` but for time, the Stations, the energy estimate, the counters and their notices. -/
def State.departed (s t : State) : Prop :=
  t = { s with time := t.time, cycles := t.cycles, stations := t.stations, power := t.power, ctrs := t.ctrs, evt := t.evt,
               hostMem := t.hostMem, vectors := t.vectors }

/-- No Station's store differs between `s` and `t`. -/
def State.sameStores (s t : State) : Prop := ∀ n, (t.station n).store = (s.station n).store

/-- The stores of `s` and `t` differ at most in the `n` granules from granule `g` of Station k. -/
def State.storesIn (s t : State) (k g n : Nat) : Prop :=
  (∀ i, i ≠ k → (t.station i).store = (s.station i).store) ∧
  ∀ a, a < 64 * g ∨ 64 * (g + n) ≤ a → memRead (t.station k).store a = memRead (s.station k).store a

/-- Departure `id` of Station k completes at cycle `sc` (R157). -/
def State.doneAt (t : State) (k : Nat) (id : DepId) (sc : Nat) : Prop :=
  ∃ p ∈ (t.station k).progs, p.id = id ∧ p.doneSc = some sc

/-- The store of a Station after rows 0 to n - 1 of a vector departure of Station k: row i is `f st i`, read from the store as it then
stands, converted and written before the next (R213 to R215). -/
def Station.rowsOut (st : Station) (sr : Nat × Nat) (k : Nat) (o : OutFmt) (n : Nat) (f : Station → Nat → List PVal) :
    List Host.Cell :=
  match Fmt.ofDesc o.desc, Round.ofCode o.round with
  | some x, some mode => ((List.range n).foldl (fun st i =>
      st.writeRow x o.dst i (convRow x mode o.isat (rowRandom sr mode k i) ((f st i).map (fun q => q.1)))
        ((f st i).map (fun q => q.2))) st).store
  | _, _ => st.store

/-- Context c has been stopped by a fault of this family and code (R181, R403): the Stations stand as they are, and with the event ring
disabled the fault record is the newest in its buffer (R451). -/
def State.stoppedBy (s t : State) (c family code : Nat) : Prop :=
  (t.slot c).state = .stopped ∧ t.stations = s.stations ∧
  (s.evt.enable = false → s.evt.buffer.length < 64 →
    ∃ x, t.evt.buffer = s.evt.buffer ++ [x] ∧ x.family = family ∧ x.code = code ∧ x.context = c)

end Sys2Proof.Machine

namespace Sys2Proof

open Sys2Proof.Machine

/-- The queue, opcode and instant of a Signal Box command, and of which of the opcode's commands it is (R435, R438). -/
def Instr.box : Instr → Option (Fin 9 × Nat × Nat × (FetchedCmd → Bool))
  | .identify q now => some (q, 0x01, now, anyCmd)
  | .resetContext q now => some (q, 0x02, now, fun c => c.p 0 1 != 1 && c.p 0 1 != 2)
  | .resetWarm q now => some (q, 0x02, now, fun c => c.p 0 1 == 1)
  | .resetCold q now => some (q, 0x02, now, fun c => c.p 0 1 == 2)
  | .fence q now => some (q, 0x03, now, anyCmd)
  | .setPolicy q now => some (q, 0x08, now, anyCmd)
  | .setCap q now => some (q, 0x09, now, anyCmd)
  | .setTime q now => some (q, 0x0A, now, anyCmd)
  | .netConfig q now => some (q, 0x0B, now, anyCmd)
  | .keyInstall q now => some (q, 0x0C, now, anyCmd)
  | .ownerEnrol q now => some (q, 0x0D, now, anyCmd)
  | .loadImage q now _ => some (q, 0x10, now, anyCmd)
  | .bind q now _ _ => some (q, 0x11, now, anyCmd)
  | .release q now => some (q, 0x12, now, anyCmd)
  | .start q now => some (q, 0x13, now, anyCmd)
  | .halt q now => some (q, 0x14, now, anyCmd)
  | .preempt q now => some (q, 0x15, now, anyCmd)
  | .resume q t => some (q, 0x16, t.lt, anyCmd)
  | .cancelSection q now => some (q, 0x17, now, anyCmd)
  | .depotSnapshot q now => some (q, 0x18, now, anyCmd)
  | .adopt q now => some (q, 0x19, now, anyCmd)
  | .census q now => some (q, 0x20, now, anyCmd)
  | .readCensus q now => some (q, 0x21, now, anyCmd)
  | .readCounters q now => some (q, 0x22, now, anyCmd)
  | .readLog q now => some (q, 0x23, now, anyCmd)
  | _ => none

/-- The Station, running line and instant of a departure command, with its rules (R152, R183, R240, R291, R343). -/
def Instr.departure : Instr → Option (Fin 128 × Fin 4 × IssueTick × DepRule)
  | .token k j t => some (k, j, t, tokenRule)
  | .sectionEnd k j t => some (k, j, t, sectionEndRule)
  | .points k j t => some (k, j, t, pointsRule)
  | .warningBoard k j t => some (k, j, t, boardRule)
  | .stage k j t => some (k, j, t, stageRule)
  | .mma k j t => some (k, j, t, mmaRule)
  | .mmaCplx k j t => some (k, j, t, cplxRule)
  | .loopSend k j t => some (k, j, t, sendRule)
  | .loopTake k j t => some (k, j, t, takeRule)
  | .ballast k j t => some (k, j, t, ballastRule)
  | .groupOpen k j t => some (k, j, t, openRule)
  | .groupClose k j t => some (k, j, t, closeRule)
  | .turn k j t => some (k, j, t, turnRule)
  | .drain k j t => some (k, j, t, (drainRule t.acc))
  | .drainCplx k j t => some (k, j, t, (drainCplxRule t.acc))
  | .convert k j t => some (k, j, t, convertRule)
  | .act k j t => some (k, j, t, actRule)
  | .ew k j t => some (k, j, t, ewRule)
  | .norm k j t => some (k, j, t, normRule)
  | .vstats k j t => some (k, j, t, vstatsRule)
  | .manifest k j t => some (k, j, t, manifestRule)
  | .sidingSet k j t => some (k, j, t, sidingSetRule)
  | .sidingExpect k j t => some (k, j, t, expectRule)
  | .coll k j t => some (k, j, t.tick, collRule t.errs)
  | .rightAway k j t => some (k, j, t, rightAwayRule)
  | _ => none

end Sys2Proof
end

