-- ==== Sys2Proof/Certificates/Slice0/Obligations.lean ====
section
/-! DEFINITION. The statements for the provers. -/

open Sys2Proof Sys2Proof.Machine

/-! ## The block -/

/-- A step takes the command at the front of the queue and runs it with the rest of the queue waiting. -/
def Obligations.StepRunsFront : Prop :=
  ∀ (c : Instr) (rest : List Instr) (s : State), s.pending = c :: rest → step s = exec c { s with pending := rest }

/-- No command touches the queue of commands, and with no command waiting the block idles: the model's choice,
notes/assumptions/2.md. -/
def Obligations.ExecKeepsQueue : Prop :=
  (∀ (c : Instr) (s t : State), exec c s = .next t → t.pending = s.pending) ∧ ∀ s : State, s.pending = [] → step s = .next s

/-- Every command answers a next state, but for the two that name a frame, and those stop only where a frame lies outside its tier
(R255). -/
def Obligations.OnlyAbsentFramesStop : Prop :=
  ∀ (c : Instr) (s : State), (∃ t, exec c s = .next t) ∨
    (exec c s = .fault .noFrame ∧
      ((∃ tier frame gran ecc now, c = .scrubRead tier frame gran ecc now ∧ (s.tierFrames tier ≤ frame ∨ 131072 ≤ gran)) ∨
       (∃ tier bad now f, c = .tierTrainingComplete tier bad now ∧ f ∈ bad ∧ s.tierFrames tier ≤ f)))

/-- R434: at most one slot is `RUNNING` or `RECOVERING`, in every state that a step reaches from one where that holds. -/
def Obligations.OneContextRuns : Prop :=
  ∀ s t : State, s.oneRuns → step s = .next t → t.oneRuns

/-- The byte memories keep their canonical form, so that equal memories are equal data: host memory as the module has written it, the
tiers, and the Station stores. -/
def Obligations.MemoriesStayCanonical : Prop :=
  ∀ s t : State, s.memoriesWf → step s = .next t → t.memoriesWf

/-- The machine right after reset meets the invariants and has what R434, R439 and R468 leave after a cold reset: no command waiting,
every slot `EMPTY`, line time 0 and FREE, the default policies, no flow and no queue open, the Census idle, nothing in the event ring,
and the module not `READY`. The instant of the start-up is the model's choice, notes/assumptions/5.md, and so is what an unlisted byte
reads as, notes/assumptions/4.md. -/
def Obligations.ResetLeaves : Prop :=
  State.reset.pending = [] ∧ State.reset.memoriesWf ∧ State.reset.oneRuns ∧ (∀ c, (State.reset.slot c).state = .empty) ∧
  State.reset.modState = .resetting ∧ State.reset.time.lt = 0 ∧ State.reset.time.state = .free ∧
  State.reset.time.holdoverMs = 2000 ∧ State.reset.policies = Policies.init ∧ State.reset.census = .idle ∧
  State.reset.ctrs = [] ∧ State.reset.evt.enable = false ∧ State.reset.evt.buffer = [] ∧
  State.reset.power.capW = 3200 ∧ State.reset.power.fSet = 800 ∧ State.reset.power.rampW = 256 ∧
  (∀ q, (State.reset.queue q).enable = false ∧ (State.reset.queue q).cmds = []) ∧
  (∀ f, (State.reset.flow f).state = 0) ∧
  (∀ k a, memRead (State.reset.station k).store a = 0) ∧ (∀ a, memRead State.reset.tiers.mem a = 0)

/-! ## Registers, rings and interrupts -/

/-- R427: a doorbell write moves `SQ_TAIL`, or sets `ERROR` where the value is at or above the depth; a write of `CQ_HEAD` frees
replies; both leave everything else of the module as it was. `Q_CFG` with `ENABLE` set, on a disabled queue that is not busy, takes the
depth and the vector and zeroes the four pointers; with `ENABLE` clear it stops fetching, clears `ERROR`, and leaves the commands
fetched as they are. That a disabled queue ignores its doorbell, that a head value which is no advance changes nothing, and that a
depth field outside 4 to 12 enables nothing are the model's choices: notes/assumptions/21.md. -/
def Obligations.QueueRegisterWrites : Prop :=
  ∀ (q : Fin 8) (v : BitVec 32) (s : State), s.barOpen = true →
    ((s.queue q).enable = true → v.toNat < 2 ^ (s.queue q).log2 →
      exec (.sqTailWrite q v) s = .next (s.setQueue q { s.queue q with sqTail := v.toNat })) ∧
    ((s.queue q).enable = true → 2 ^ (s.queue q).log2 ≤ v.toNat →
      exec (.sqTailWrite q v) s = .next (s.setQueue q { s.queue q with error := true })) ∧
    ((s.queue q).enable = false → exec (.sqTailWrite q v) s = .next (s.setQueue q (s.queue q))) ∧
    (v.toNat < 2 ^ (s.queue q).log2 →
      (v.toNat + 2 ^ (s.queue q).log2 - (s.queue q).cqHead) % 2 ^ (s.queue q).log2 ≤ (s.queue q).unread →
      exec (.cqHeadWrite q v) s = .next (s.setQueue q { s.queue q with cqHead := v.toNat })) ∧
    (2 ^ (s.queue q).log2 ≤ v.toNat → exec (.cqHeadWrite q v) s = .next (s.setQueue q (s.queue q))) ∧
    (∀ (i : Nat) (b : Queue), (s.setQueue q b).queue i = if i = q.val then b else s.queue i) ∧
    (bit v.toNat 31 = true → (s.queue q).enable = false → (s.queue q).cmds = [] → 4 ≤ field v.toNat 3 0 → field v.toNat 3 0 ≤ 12 →
      ∃ t, exec (.queueEnable q v) s = .next t ∧ t = { s with queues := t.queues } ∧ (∀ i, i ≠ q.val → t.queue i = s.queue i) ∧
        t.queue q = { s.queue q with enable := true, log2 := field v.toNat 3 0, vec := field v.toNat 13 8, sqHead := 0, sqTail := 0,
                                     cqHead := 0, cqTail := 0, phase := true }) ∧
    (bit v.toNat 31 = false →
      ∃ t, exec (.queueDisable q v) s = .next t ∧ t = { s with queues := t.queues } ∧ (∀ i, i ≠ q.val → t.queue i = s.queue i) ∧
        (t.queue q).enable = false ∧ (t.queue q).error = false ∧ (t.queue q).cmds = (s.queue q).cmds ∧
        (t.queue q).sqHead = (s.queue q).sqHead ∧ (t.queue q).cqTail = (s.queue q).cqTail)

/-- R426: a 4-byte write of BAR0 at an aligned offset sets the register there, and a read gives it back: the event ring's base
(4 KiB-aligned), a queue's ring addresses while it is disabled and not busy, and an MSI-X table entry's word. An access that is not
4 or 8 bytes wide and aligned changes nothing, and neither does any write outside the registers that the host may write. -/
def Obligations.RegisterWrites : Prop :=
  ∀ (off size : Nat) (v : BitVec 64) (s : State), s.barOpen = true →
    (∃ t, exec (.registerWrite off size v) s = .next t ∧
      t = { s with queues := t.queues, evt := t.evt, vectors := t.vectors }) ∧
    (accessOk off size = false → exec (.registerWrite off size v) s = .next s) ∧
    (accessOk off size = true → off + size ≤ 0x110 ∨ 0x9000 ≤ off → exec (.registerWrite off size v) s = .next s) ∧
    (off = 0x110 → size = 8 →
      ∃ t, exec (.registerWrite off size v) s = .next t ∧ t.evt = { s.evt with base := v.toNat / 4096 * 4096 } ∧
        t.readWord 0x110 = v.toNat / 4096 * 4096 % 2 ^ 32) ∧
    (∀ q < 8, off = 0x1000 + 0x40 * q → size = 8 → (s.queue q).enable = false → (s.queue q).cmds = [] →
      ∃ t, exec (.registerWrite off size v) s = .next t ∧
        t.queue q = { s.queue q with sqBase := v.toNat / 4096 * 4096 } ∧ ∀ i, i ≠ q → t.queue i = s.queue i) ∧
    (∀ i < 64, ∀ n < 4, off = 0x8000 + 16 * i + 4 * n → size = 4 →
      ∃ t, exec (.registerWrite off size v) s = .next t ∧
        (t.vector i).entry.toNat / 2 ^ (32 * n) % 2 ^ 32 = v.toNat % 2 ^ 32 ∧ t.readWord off = v.toNat % 2 ^ 32)

/-- R451: `EVT_HEAD` frees records, `EVT_CFG` sets size, vector and `ENABLE`, and a fault record that waits is written once there is
space: the record at the tail, the tail moved on, then the vector raised. Sizes outside 6 to 16 enable nothing:
notes/assumptions/21.md. -/
def Obligations.EventRingWrites : Prop :=
  ∀ (v : BitVec 32) (now : Nat) (s : State), s.barOpen = true →
    (v.toNat < s.evt.records → (v.toNat + s.evt.records - s.evt.head) % s.evt.records ≤ s.evt.unread →
      ∃ t, exec (.evtHeadWrite v now) s = .next t ∧ t = { s with time := t.time, evt := { s.evt with head := v.toNat } }) ∧
    (6 ≤ field v.toNat 4 0 → field v.toNat 4 0 ≤ 16 →
      ∃ t, exec (.eventRingEnable v now) s = .next t ∧ t = { s with time := t.time, evt := t.evt } ∧
        t.evt.enable = bit v.toNat 31 ∧ t.evt.log2 = field v.toNat 4 0 ∧ t.evt.vec = field v.toNat 13 8 ∧
        t.evt.buffer = s.evt.buffer ∧ t.evt.base = s.evt.base) ∧
    (∀ r rest, s.evt.buffer = r :: rest → s.evt.space = true →
      ∃ t, exec (.eventRecordFlush now) s = .next t ∧
        t = { s with time := t.time, evt := { s.evt with buffer := rest, tail := (s.evt.tail + 1) % s.evt.records },
                     hostMem := t.hostMem, vectors := t.vectors } ∧
        (t.vector s.evt.vec).pending = true ∧
        (∀ i < 64, memRead t.hostMem (s.evt.base + 64 * s.evt.tail + i) = (leBytes 64 r.word).getD i 0) ∧
        ∀ a, a < s.evt.base + 64 * s.evt.tail ∨ s.evt.base + 64 * s.evt.tail + 64 ≤ a → memRead t.hostMem a = memRead s.hostMem a)

/-- R427, R428: the header at `SQ_HEAD` of the queue whose turn it is joins that queue's commands, and `SQ_HEAD` and the pass move
on; R430: a management request joins queue 8, and a fifth outstanding one is answered `BUSY` and not run. -/
def Obligations.CommandsAreFetched : Prop :=
  ∀ (q : Fin 8) (header : BitVec 256) (params : Option (List Byte)) (body : List Byte) (now : Nat) (s : State),
    (s.barOpen = true → s.turnToFetch = some q.val →
      ∃ t, exec (.commandFetch q header params now) s = .next t ∧
        t = { s with time := t.time, queues := t.queues, fetchSeq := s.fetchSeq + 1, pass := (q.val + 1) % 8 } ∧
        (∀ i, i ≠ q.val → t.queue i = s.queue i) ∧ (t.queue q).sqHead = ((s.queue q).sqHead + 1) % 2 ^ (s.queue q).log2 ∧
        ∃ c, (t.queue q).cmds = (s.queue q).cmds ++ [c] ∧ c.header = header ∧ c.seq = s.fetchSeq ∧ c.accepted = false ∧
          c.hostErr = (params.isNone && decide (0 < min (paramLen header) 4096))) ∧
    (s.managed = true → (s.queue 8).cmds.length < 4 →
      ∃ t, exec (.mctpRequest header body now) s = .next t ∧
        t = { s with time := t.time, queues := t.queues, fetchSeq := s.fetchSeq + 1 } ∧ (∀ i, i ≠ 8 → t.queue i = s.queue i) ∧
        ∃ c, (t.queue 8).cmds = (s.queue 8).cmds ++ [c] ∧ c.header = header ∧ c.seq = s.fetchSeq) ∧
    (s.managed = true → 4 ≤ (s.queue 8).cmds.length → (∀ x ∈ (s.queue 8).cmds, x.seq ≠ s.fetchSeq) →
      ∃ t w d, exec (.mctpRequest header body now) s = .next t ∧ (t.queue 8).cmds = (s.queue 8).cmds ∧
        t.mctpSent = s.mctpSent ++ [leBytes 32 w ++ d] ∧ field w 47 32 = 0x2006)

/-- R429: a raised vector that its table entry does not mask sends its message, at most one per 1 µs, and is no longer raised. -/
def Obligations.VectorSends : Prop :=
  ∀ (v : Fin 64) (now : Nat) (s : State), s.barOpen = true → (s.vector v).pending = true →
    bit (s.vector v).entry.toNat 96 = false →
    ((s.vector v).sentAt = none ∨ ∃ a, (s.vector v).sentAt = some a ∧ a + 1000 ≤ (s.advance now).time.lt) →
    ∃ t, exec (.msixMessage v now) s = .next t ∧
      t = { s with time := t.time, vectors := t.vectors, msixSent := s.msixSent ++ [v.val] } ∧
      t.vector v = { s.vector v with pending := false, sentAt := some t.time.lt } ∧ ∀ i, i ≠ v.val → t.vector i = s.vector i

/-! ## Signal Box commands -/

/-- R279, R428, R436: looking for the command to run moves line time, parks and answers reserved opcodes, notes in the running section
that its epoch has come, counting its late pages, and touches nothing else; and a queue whose command is of another opcode, is under way on its own, or must wait, does no more than that. -/
def Obligations.LookingTouchesOnlyQueues : Prop :=
  ∀ (i : Instr) (q : Fin 9) (op now : Nat) (mine : FetchedCmd → Bool) (s : State), i.box = some (q, op, now, mine) →
    ({ s with time := (s.advance now).time, slots := (s.looked q now).slots } : State).onlyReplied (s.looked q now) ∧
    (∀ c, ∃ b, (s.looked q now).slot c =
      { s.slot c with run := (s.slot c).run.map (fun r => { r with epochSeen := b }) }) ∧
    ((∀ cmd, (s.looked q now).current q = some cmd → cmd.opcode ≠ op ∨ mine cmd = false ∨ (s.looked q now).mustWait cmd = true) →
      exec i s = .next (s.looked q now))

/-- R431 to R437: a command that fails a check before its own is replied with that status and fault index, and has no other effect.
The index for a header's fault is the model's choice, notes/assumptions/22.md. -/
def Obligations.FailedChecksReply : Prop :=
  ∀ (i : Instr) (q : Fin 9) (op now : Nat) (mine : FetchedCmd → Bool) (s : State) (cmd : FetchedCmd) (st r1 : Nat),
    i.box = some (q, op, now, mine) → (s.looked q now).current q = some cmd → cmd.opcode = op → mine cmd = true →
    (s.looked q now).mustWait cmd = false → cmd.accepted = false → (s.looked q now).checkCommand q cmd = some (st, r1) →
    ∃ t, exec i s = .next t ∧ (s.looked q now).replied t q cmd st 0 r1 ∧ (s.looked q now).onlyReplied t

/-- R437, R455, R456, R457, R469: a command that returns data writes as much as its `DEST` takes and replies with the bytes written
and the bytes available; a snapshot is freed where asked, and so are straggler records. -/
def Obligations.DataCommandsReply : Prop :=
  ∀ (q : Fin 9) (now : Nat) (s : State) (cmd : FetchedCmd),
    (s.runsCommand q 0x01 now cmd → ∃ t, exec (.identify q now) s = .next t ∧ (s.looked q now).onlyReplied t ∧
      (s.looked q now).gaveData t q cmd (s.looked q now).identity ∧
      (s.looked q now).replied t q cmd 0 ((s.looked q now).identity.take (cmd.room q)).length 256) ∧
    (s.runsCommand q 0x22 now cmd → cmd.p 0 1 ≤ 8 → cmd.p 2 2 < groupInstances (cmd.p 0 1) →
      cmd.p 2 2 + cmd.p 4 2 ≤ groupInstances (cmd.p 0 1) →
      ∃ t, exec (.readCounters q now) s = .next t ∧ (s.looked q now).onlyReplied t ∧
        let data := (List.range (cmd.p 4 2)).flatMap (fun i => (s.looked q now).counterBytes (cmd.p 0 1) (cmd.p 2 2 + i))
        (s.looked q now).gaveData t q cmd data ∧
        ∃ st, (st = 0 ∨ st = 0x1002) ∧ (s.looked q now).replied t q cmd st (data.take (cmd.room q)).length data.length) ∧
    (s.runsCommand q 0x23 now cmd → cmd.p 0 1 = 0 → cmd.p 1 1 ≤ 1 → cmd.p 2 1 ≤ 1 → cmd.context < 8 →
      ∃ t, exec (.readLog q now) s = .next t ∧ (s.looked q now).onlyReplied t ∧
        let log := ((s.looked q now).slot cmd.context).log
        let data := ((log.entries.drop (cmd.p 4 4)).take (recordsFor q cmd 32)).flatMap (leBytes 32)
        (s.looked q now).gaveData t q cmd data ∧
        (s.looked q now).replied t q cmd (if log.lost = 0 then 0 else 0x1003) (data.take (cmd.room q)).length log.entries.length) ∧
    (s.runsCommand q 0x23 now cmd → cmd.p 0 1 = 1 → cmd.p 1 1 ≤ 1 → cmd.p 2 1 = 1 →
      ∃ t, exec (.readLog q now) s = .next t ∧ ({ s.looked q now with coll := t.coll } : State).onlyReplied t ∧
        let all := tget [] (s.looked q now).coll.strag (cmd.p 1 1)
        let out := all.take (recordsFor q cmd 16)
        (s.looked q now).gaveData t q cmd (out.flatMap (leBytes 16)) ∧
        tget [] t.coll.strag (cmd.p 1 1) = all.drop out.length ∧ tget 0 t.coll.stragLost (cmd.p 1 1) = 0) ∧
    (∀ parts, s.runsCommand q 0x21 now cmd → (s.looked q now).census = .held parts → cmd.p 0 1 ≤ 9 → cmd.p 1 1 ≤ 1 →
      cmd.p 4 4 ≤ (parts.getD (cmd.p 0 1) []).length →
      ∃ t, exec (.readCensus q now) s = .next t ∧ ({ s.looked q now with census := t.census } : State).onlyReplied t ∧
        t.census = (if cmd.p 1 1 = 1 then .idle else .held parts) ∧
        let data := (parts.getD (cmd.p 0 1) []).drop (cmd.p 4 4)
        (s.looked q now).gaveData t q cmd data ∧
        (s.looked q now).replied t q cmd 0 (data.take (cmd.room q)).length (parts.getD (cmd.p 0 1) []).length)

/-- R139, R388, R437, R439, R440: `SET_POLICY` takes the values that are not 0; dispatch and recovery order are in force at once, the
other two wait for their own points. `SET_CAP` sets the settings that its `MASK` names, each within its range, and leaves the others;
a field out of range changes nothing and is answered `RANGE` with its offset. `SET_TIME` chooses the source and its settings; a new
source enters ACQUIRING, or FREE where there is none; a step of line time needs no bound context and never goes backward. -/
def Obligations.SettingsCommands : Prop :=
  ∀ (q : Fin 9) (now : Nat) (s : State) (cmd : FetchedCmd),
    (s.runsCommand q 0x08 now cmd → (∀ i < 4, cmd.p i 1 ≤ 2) →
      ∃ t, exec (.setPolicy q now) s = .next t ∧ ({ s.looked q now with policies := t.policies } : State).onlyReplied t ∧
        (s.looked q now).replied t q cmd 0 0 0 ∧
        t.policies.budget = (if cmd.p 0 1 = 0 then s.policies.budget else cmd.p 0 1 == 2) ∧
        t.policies.prompt = (if cmd.p 1 1 = 0 then s.policies.prompt else cmd.p 1 1 == 2) ∧
        t.policies.dropNext = (if cmd.p 2 1 = 0 then s.policies.dropNext else some (cmd.p 2 1 == 2)) ∧
        t.policies.paddedNext = (if cmd.p 3 1 = 0 then s.policies.paddedNext else some (cmd.p 3 1 == 2)) ∧
        t.policies.drop = s.policies.drop ∧ t.policies.padded = s.policies.padded) ∧
    (s.runsCommand q 0x09 now cmd → capFault s.flash.topOpMhz cmd = none →
      ∃ t, exec (.setCap q now) s = .next t ∧ ({ s.looked q now with power := t.power } : State).onlyReplied t ∧
        (s.looked q now).replied t q cmd 0 0 0 ∧
        t.power.capW = (if bit (cmd.p 0 1) 0 then cmd.p 2 2 else s.power.capW) ∧
        t.power.fMax = (if bit (cmd.p 0 1) 1 then cmd.p 4 2 else s.power.fMax) ∧
        t.power.floor = (if bit (cmd.p 0 1) 2 then cmd.p 6 1 else s.power.floor) ∧
        t.power.rampW = (if bit (cmd.p 0 1) 3 then cmd.p 8 2 else s.power.rampW) ∧
        t.power.straggleHold = (if bit (cmd.p 0 1) 4 then cmd.p 7 1 == 1 else s.power.straggleHold) ∧
        t.power.fSet = s.power.fSet) ∧
    (∀ off, s.runsCommand q 0x09 now cmd → capFault s.flash.topOpMhz cmd = some off →
      ∃ t, exec (.setCap q now) s = .next t ∧ (s.looked q now).onlyReplied t ∧ (s.looked q now).replied t q cmd 0x2004 0 off) ∧
    (s.runsCommand q 0x0A now cmd → (s.looked q now).timeFault cmd = none →
      (cmd.p 24 1 = 1 → s.anyBound = false ∧ (s.looked q now).time.lt ≤ cmd.p 16 8) →
      (cmd.p 0 1 = 2 → (s.looked q now).time.lt < cmd.p 8 8) →
      ∃ t, exec (.setTime q now) s = .next t ∧ ({ s.looked q now with time := t.time } : State).onlyReplied t ∧
        (s.looked q now).replied t q cmd 0 t.time.state.code 0 ∧
        t.time.lt = (if cmd.p 24 1 = 1 then cmd.p 16 8 else (s.looked q now).time.lt) ∧ (s.looked q now).time.lt ≤ t.time.lt ∧
        t.time.source = cmd.p 0 1 ∧ t.time.refFreq = cmd.p 3 1 ∧
        t.time.holdoverMs = (if cmd.p 6 2 = 0 then s.time.holdoverMs else cmd.p 6 2) ∧
        (cmd.p 0 1 = 1 → t.time.domain = cmd.p 2 1 ∧ t.time.primary = cmd.p 4 1 ∧ t.time.secondary = cmd.p 5 1) ∧
        (cmd.p 0 1 = 2 → t.time.ppsLt = cmd.p 8 8) ∧
        t.time.state = (if cmd.p 0 1 = s.time.source then s.time.state else if cmd.p 0 1 = 0 then .free else .acquiring))

/-- R445: `FENCE` completes when every command fetched earlier from the queues in `MASK` has completed, and until then it is under
way, so that no later command of its queue runs. -/
def Obligations.FenceCompletes : Prop :=
  ∀ (q : Fin 9) (now : Nat) (s : State) (cmd : FetchedCmd),
    let earlier := ∀ i < 9, bit (cmd.p 0 2) i = true → ∀ x ∈ ((s.looked q now).queue i).cmds, cmd.seq ≤ x.seq
    (s.runsCommand q 0x03 now cmd → cmd.p 0 2 < 512 → earlier →
      ∃ t, exec (.fence q now) s = .next t ∧ (s.looked q now).onlyReplied t ∧ (s.looked q now).replied t q cmd 0 0 0) ∧
    (s.runsCommand q 0x03 now cmd → cmd.p 0 2 < 512 → ¬ earlier →
      ∃ t, exec (.fence q now) s = .next t ∧ (s.looked q now).onlyReplied t ∧ t.underWay q cmd) ∧
    ((s.looked q now).current q = some cmd → cmd.opcode = 0x03 → (s.looked q now).mustWait cmd = false → cmd.accepted = true → earlier →
      ∃ t, exec (.fence q now) s = .next t ∧ (s.looked q now).onlyReplied t ∧ (s.looked q now).replied t q cmd 0 0 0) ∧
    ((s.looked q now).current q = some cmd → cmd.opcode = 0x03 → (s.looked q now).mustWait cmd = false → cmd.accepted = true →
      ¬ earlier → exec (.fence q now) s = .next (s.looked q now)) ∧
    (∀ i : Instr, ∀ op mine, i.box = some (q, op, now, mine) → op ≠ 0x03 → (s.looked q now).current q = some cmd →
      cmd.opcode = 0x03 → exec i s = .next (s.looked q now))

/-- R312, R450, R480: `NET_CONFIG` sets every cage's mode and every port's entry; a cage whose mode changes is not trained, and the
command completes at once where every cage is, and otherwise is under way. The ports of a cage whose OSFP module stays in low-power mode
do not come up. -/
def Obligations.NetConfigSetsPorts : Prop :=
  ∀ (q : Fin 9) (now : Nat) (s : State) (cmd : FetchedCmd), s.runsCommand q 0x0B now cmd →
    (∀ i < 12, cmd.p i 1 ≤ 2) → (∀ p < 48, field (portEntry cmd p) 109 0 = 0) →
    (∀ p < 48, (((s.looked q now).setCages cmd).portExists p = true → entryBad (portEntry cmd p) = false) ∧
      (((s.looked q now).setCages cmd).portExists p = false → portEntry cmd p = 0)) →
    let kept := ∀ i < 12, (s.cage i).trained = true ∧ (s.cage i).mode = some (cmd.p i 1)
    (∃ t, exec (.netConfig q now) s = .next t ∧
      ({ s.looked q now with ports := t.ports, cages := t.cages, flows := t.flows, txFrames := t.txFrames,
                             census := t.census } : State).onlyReplied t ∧
      ((∀ i < 12, ∀ w, (s.cage i).watts = some w → w ≤ 18) →
        ({ s.looked q now with ports := t.ports, cages := t.cages } : State).onlyReplied t) ∧
      (∀ i < 12, ∀ w, (s.cage i).watts = some w → 18 < w → ¬((s.cage i).trained = true ∧ (s.cage i).mode = some (cmd.p i 1)) →
        ∀ p ∈ t.cagePorts i, (t.port p).lock = false) ∧
      (∀ i < 12, (t.cage i).mode = some (cmd.p i 1)) ∧
      (∀ i < 12, (t.cage i).trained = ((s.cage i).trained && (s.cage i).mode == some (cmd.p i 1))) ∧
      (∀ p < 48, (t.port p).entry = BitVec.ofNat 512 (portEntry cmd p))) ∧
    (kept → ∃ t, exec (.netConfig q now) s = .next t ∧ (s.looked q now).replied t q cmd 0 0 0) ∧
    (¬ kept → ∃ t, exec (.netConfig q now) s = .next t ∧ t.underWay q cmd)

/-- R323, R418, R444, R448, R471: `KEY_INSTALL` puts the key in the free slot of its direction; with `FLOW_RESET` the flow first
starts afresh, with neither direction's keys. `OWNER_ENROL` keeps the key where the checks of the standards that the spec names accept
it, and changes nothing where they do not. -/
def Obligations.KeysAreInstalled : Prop :=
  ∀ (q : Fin 9) (now : Nat) (s : State) (cmd : FetchedCmd),
    (∀ b : Binding, s.runsCommand q 0x0C now cmd → (s.slot cmd.context).binding = some b → cmd.p 0 4 ∈ b.flows → cmd.p 6 1 ≤ 1 →
      let key : Key := { id := cmd.p 4 2, key := BitVec.ofNat 256 (cmd.p 16 32), since := cmd.p 8 8 }
      let f := s.flow (cmd.p 0 4)
      (cmd.p 7 1 = 0 → (if cmd.p 6 1 = 1 then f.txKeys else f.rxKeys).length < 2 →
        (∀ x ∈ (if cmd.p 6 1 = 1 then f.txKeys else f.rxKeys), x.id ≠ key.id) →
        ∃ t, exec (.keyInstall q now) s = .next t ∧ ({ s.looked q now with flows := t.flows } : State).onlyReplied t ∧
          (s.looked q now).replied t q cmd 0 0 0 ∧ (∀ n, n ≠ cmd.p 0 4 → t.flow n = s.flow n) ∧
          t.flow (cmd.p 0 4) = (if cmd.p 6 1 = 1 then { f with txKeys := f.txKeys ++ [key] }
            else { f with rxKeys := f.rxKeys ++ [key], keyIdRx := key.id })) ∧
      (cmd.p 7 1 = 1 →
        ∃ t, exec (.keyInstall q now) s = .next t ∧ (s.looked q now).replied t q cmd 0 0 0 ∧ (t.flow (cmd.p 0 4)).state = 1 ∧
          (t.flow (cmd.p 0 4)).peerAddr = f.peerAddr ∧
          (t.flow (cmd.p 0 4)).txKeys = (if cmd.p 6 1 = 1 then [key] else []) ∧
          (t.flow (cmd.p 0 4)).rxKeys = (if cmd.p 6 1 = 1 then [] else [key]))) ∧
    (s.runsCommand q 0x0D now cmd → cmd.p 0 1 ≤ 1 →
      let key := sliceBytes cmd.params 8 96
      let refused := (s.looked q now).ownerFault key (sliceBytes cmd.params 104 96)
      ∃ t, exec (.ownerEnrol q now) s = .next t ∧
        ({ s.looked q now with
          flash := if refused then s.flash else { s.flash with ownerKey := some key, requireSigned := cmd.p 0 1 == 1 } }
          : State).onlyReplied t ∧
        (s.looked q now).replied t q cmd (if refused then 0x2042 else 0) 0 0)

/-- R447: `LOAD_IMAGE` of an image that passes the checks leaves the slot `LOADED` with it; a check that fails is replied with its
status and index and leaves the slot as it was. -/
def Obligations.LoadImageFillsSlot : Prop :=
  ∀ (q : Fin 9) (now : Nat) (bs : List Byte) (s : State) (cmd : FetchedCmd), s.runsCommand q 0x10 now cmd → loadFault cmd = none →
    let bytes := sliceBytes bs 0 (cmd.p 0 8)
    let img : Image := { bytes := bytes, digest := Config.sha384 bytes, ranges := (List.range (cmd.p 8 2)).map (loadRange cmd) }
    (imageFault s.flash img (cmd.p 0 8) = none →
      ∃ t st, exec (.loadImage q now (some bs)) s = .next t ∧ (s.looked q now).replied t q cmd st 0 0 ∧ (st = 0 ∨ st = 0x1004) ∧
        ({ s.looked q now with slots := t.slots } : State).onlyReplied t ∧
        t.slot cmd.context = { (s.looked q now).slot cmd.context with state := .loaded, image := some img } ∧
        ∀ c, c ≠ cmd.context → t.slot c = (s.looked q now).slot c) ∧
    (∀ st n, imageFault s.flash img (cmd.p 0 8) = some (st, n) →
      ∃ t, exec (.loadImage q now (some bs)) s = .next t ∧ (s.looked q now).replied t q cmd st 0 n ∧ (s.looked q now).onlyReplied t)

/-- R434, R449: `BIND` that passes its checks leaves the slot `BOUND` with its binding, and opens the flows of its table. Where the room
that it takes moves a page out of a frame that was to be retired, the retirement can leave a bound context without room, which then stops
(R282): only then does another slot change. -/
def Obligations.BindHoldsResources : Prop :=
  ∀ (q : Fin 9) (now : Nat) (bs tab : List Byte) (s : State) (cmd : FetchedCmd) (img : Image) (runs : Table Nat),
    let u := s.looked q now
    s.runsCommand q 0x11 now cmd → bindFault cmd = none → (s.slot cmd.context).image = some img → sameImage img bs = true →
    (cmd.p 8 4 = 0 → tab = []) → assignRuns (mapItems img) u.runsHeld [] = some runs →
    let b := u.bindingOf cmd img tab runs
    capacityFault u (u.modSlot cmd.context (fun x => { x with binding := some b })) cmd img = false →
    u.flowsFault img b tab (cmd.p 8 4) = none → depotFault u b = false →
    (∃ t, exec (.bind q now (some bs) (some tab)) s = .next t ∧ t.gone q cmd ∧
      (t.slot cmd.context).binding = some b ∧ (t.slot cmd.context).image = some img ∧ (t.slot cmd.context).step = StepState.init) ∧
    (u.calm →
      ∃ t, exec (.bind q now (some bs) (some tab)) s = .next t ∧ u.replied t q cmd 0 b.peak 0 ∧
      (t.slot cmd.context).state = .bound ∧ (t.slot cmd.context).binding = some b ∧ (t.slot cmd.context).image = some img ∧
      (t.slot cmd.context).step = StepState.init ∧ (∀ c, c ≠ cmd.context → t.slot c = u.slot c) ∧
      ∀ k < cmd.p 8 4, (t.flow (entryFlow (flowEntry tab k))).state = 1)

/-- R322, R435: `RELEASE` leaves the slot `LOADED` with its image and no binding, and its `OPEN` flows drain. The pages that it frees may
have held frames that were to be retired: only then can another slot change (R282). -/
def Obligations.ReleaseFreesBinding : Prop :=
  ∀ (q : Fin 9) (now : Nat) (s : State) (cmd : FetchedCmd) (b : Binding), s.runsCommand q 0x12 now cmd →
    (s.slot cmd.context).binding = some b →
    (∃ t, exec (.release q now) s = .next t ∧ t.gone q cmd ∧
      (t.slot cmd.context).state = .loaded ∧ (t.slot cmd.context).image = (s.slot cmd.context).image ∧
      (t.slot cmd.context).binding = none ∧
      ∀ f ∈ b.flows, (t.flow f).state = (if (s.flow f).state = 1 then 2 else (s.flow f).state)) ∧
    ((s.looked q now).calm →
      ∃ t, exec (.release q now) s = .next t ∧ (s.looked q now).replied t q cmd 0 0 0 ∧
        (t.slot cmd.context).state = .loaded ∧ (t.slot cmd.context).image = (s.slot cmd.context).image ∧
        (t.slot cmd.context).binding = none ∧ (∀ c, c ≠ cmd.context → t.slot c = (s.looked q now).slot c) ∧
        ∀ f ∈ b.flows, (t.flow f).state = (if (s.flow f).state = 1 then 2 else (s.flow f).state))

/-- R419, R441: an accepted `START` or `ADOPT` gives the slot a run that waits for its run epoch, and is under way, the slot `RUNNING`;
or the slot has stopped where a page of an object whose lifetime begins finds no frame (R284), and the command has ended with that; an
`ADOPT` asks holder 1 for the shard. -/
def Obligations.StartBeginsRun : Prop :=
  ∀ (q : Fin 9) (now : Nat) (s : State) (cmd : FetchedCmd) (img : Image) (b : Binding),
    (s.slot cmd.context).image = some img → (s.slot cmd.context).binding = some b → s.runSlot = none →
    (img.needLock = true → s.time.state = .locked) → (s.looked q now).time.lt + 100000 ≤ cmd.p 0 8 →
    (∀ f ∈ b.flows, (s.flow f).txKeys ≠ []) →
    (s.runsCommand q 0x13 now cmd → (s.looked q now).profileOk img = true →
      ∃ t r, exec (.start q now) s = .next t ∧
        (((t.slot cmd.context).state = .running ∧ t.underWay q cmd) ∨ ((t.slot cmd.context).state = .stopped ∧ t.gone q cmd)) ∧
        (t.slot cmd.context).run = some r ∧ r.epoch = cmd.p 0 8 ∧ r.sect = img.firstSection ∧ r.waiting = true ∧
        r.cancelled = none ∧ (t.slot cmd.context).log = LateLog.init) ∧
    (s.runsCommand q 0x13 now cmd → (s.looked q now).profileOk img = true → (s.looked q now).calm →
      s.allLive cmd.context img img.firstSection →
      ∃ t r, exec (.start q now) s = .next t ∧ (t.slot cmd.context).state = .running ∧ t.underWay q cmd ∧
        (t.slot cmd.context).run = some r ∧ r.epoch = cmd.p 0 8 ∧ r.sect = img.firstSection ∧ r.waiting = true ∧
        r.cancelled = none ∧ ∀ c, c ≠ cmd.context → t.slot c = s.slot c) ∧
    (s.runsCommand q 0x19 now cmd → b.rho ≠ 0 →
      ∃ t r, exec (.adopt q now) s = .next t ∧
        (((t.slot cmd.context).state = .running ∧ t.underWay q cmd) ∨ ((t.slot cmd.context).state = .stopped ∧ t.gone q cmd)) ∧
        (t.slot cmd.context).run = some r ∧ r.epoch = cmd.p 0 8 ∧ r.sect = img.stepFirst ∧ r.waiting = true ∧
        t.coll.adopt = some .fetch ∧ (∃ a, t.coll.asked = some a ∧ a.purpose = 1 ∧ a.holder = 1)) ∧
    (s.runsCommand q 0x19 now cmd → b.rho ≠ 0 → (s.looked q now).calm → s.allLive cmd.context img img.stepFirst →
      ∃ t r, exec (.adopt q now) s = .next t ∧ (t.slot cmd.context).state = .running ∧ t.underWay q cmd ∧
        (t.slot cmd.context).run = some r ∧ r.sect = img.stepFirst ∧ r.waiting = true ∧ t.coll.adopt = some .fetch)

/-- R433, R442: `RESUME` of a context switched out at a boundary runs from its successor; of one switched out at once it replays the step
in progress, after a holder's answer where Class P pages have been written, and is answered `DEPOT_LOST` where no holder is `CURRENT`; a
step that begins again keeps its count of Right-aways. The context runs, or has stopped where a page finds no frame, a frame that is to be
retired takes its room, or its Points are missing. -/
def Obligations.ResumeRunsAgain : Prop :=
  ∀ (q : Fin 9) (now : Nat) (bad : List Nat) (s : State) (cmd : FetchedCmd) (img : Image) (run : Run) (b : Binding),
    s.runsCommand q 0x16 now cmd →
    (s.slot cmd.context).image = some img → (s.slot cmd.context).run = some run → (s.slot cmd.context).binding = some b →
    s.runSlot = none →
    ((s.slot cmd.context).savedNow = false →
      ∃ t r, exec (.resume q ⟨now, bad⟩) s = .next t ∧ t.gone q cmd ∧
        ((t.slot cmd.context).state = .running ∨ (t.slot cmd.context).state = .stopped) ∧
        (t.slot cmd.context).run = some r ∧ r.sect = (s.slot cmd.context).successor ∧
        r.cancelled = none ∧ (t.slot cmd.context).step.committed = (s.slot cmd.context).step.committed) ∧
    ((s.slot cmd.context).savedNow = false → bad = [] → (s.looked q now).calm →
      s.allLive cmd.context img (s.slot cmd.context).successor → (img.sect (s.slot cmd.context).successor).hasPoints = false →
      ∃ t r, exec (.resume q ⟨now, bad⟩) s = .next t ∧ (s.looked q now).replied t q cmd 0 0 0 ∧
        (t.slot cmd.context).state = .running ∧ (t.slot cmd.context).run = some r ∧ r.sect = (s.slot cmd.context).successor ∧
        r.cancelled = none) ∧
    ((s.slot cmd.context).savedNow = true → s.dirtyPages cmd.context = [] →
      ∃ t r, exec (.resume q ⟨now, bad⟩) s = .next t ∧ t.gone q cmd ∧
        ((t.slot cmd.context).state = .running ∨ (t.slot cmd.context).state = .stopped) ∧
        (t.slot cmd.context).run = some r ∧ r.sect = img.stepFirst ∧
        r.cancelled = none ∧ (t.slot cmd.context).step.committed = (s.slot cmd.context).step.committed) ∧
    (∀ i, (s.slot cmd.context).savedNow = true → s.dirtyPages cmd.context ≠ [] →
      (s.withSlot cmd.context).currentFrom b 1 = some i →
      ∃ t, exec (.resume q ⟨now, bad⟩) s = .next t ∧ t.underWay q cmd ∧ t.slot cmd.context = (s.looked q now).slot cmd.context ∧
        ∃ a, t.coll.asked = some a ∧ a.purpose = 2 ∧ a.holder = i) ∧
    ((s.slot cmd.context).savedNow = true → s.dirtyPages cmd.context ≠ [] → (s.withSlot cmd.context).currentFrom b 1 = none →
      ∃ t, exec (.resume q ⟨now, bad⟩) s = .next t ∧ (s.looked q now).replied t q cmd 0x2033 0 0 ∧ (s.looked q now).onlyReplied t)

/-- R306, R436, R442: `HALT` of a pre-empted context leaves it `BOUND` at once and replies; of a running one it cancels the running
section, and the context is `BOUND` once nothing of it is in flight; `PREEMPT` is under way, and cancels at once or at the next
boundary. -/
def Obligations.HaltAndPreempt : Prop :=
  ∀ (q : Fin 9) (now : Nat) (s : State) (cmd : FetchedCmd) (run : Run), (s.slot cmd.context).run = some run →
    (s.runsCommand q 0x14 now cmd → (s.slot cmd.context).state = .preempted →
      ∃ t, exec (.halt q now) s = .next t ∧ (t.slot cmd.context).state = .bound ∧ (t.slot cmd.context).run = none ∧
        t.stations = s.stations ∧ t.gone q cmd) ∧
    (s.runsCommand q 0x14 now cmd → (s.slot cmd.context).state = .running → (s.looked q now).calm →
      ∃ t, exec (.halt q now) s = .next t ∧
        (((t.slot cmd.context).state = .bound ∧ (t.slot cmd.context).run = none ∧ t.gone q cmd) ∨
         (t.underWay q cmd ∧ ∃ r, (t.slot cmd.context).run = some r ∧ r.cancelled = some 0xFFFF ∧ r.halting = true))) ∧
    ((s.looked q now).current q = some cmd → cmd.opcode = 0x14 → (s.looked q now).mustWait cmd = false → cmd.accepted = true →
      (s.slot cmd.context).state = .running → (s.looked q now).haltReady = true →
      ∃ t, exec (.halt q now) s = .next t ∧ (t.slot cmd.context).state = .bound ∧ (t.slot cmd.context).run = none ∧ t.gone q cmd) ∧
    (s.runsCommand q 0x15 now cmd → cmd.p 0 1 = 0 → (s.looked q now).calm →
      ∃ t r, exec (.preempt q now) s = .next t ∧ t.underWay q cmd ∧ (t.slot cmd.context).run = some r ∧
        r.cancelled = some 0xFFFF ∧ r.switching = true ∧ (t.slot cmd.context).savedNow = true ∧
        (t.slot cmd.context).state = (s.slot cmd.context).state) ∧
    (s.runsCommand q 0x15 now cmd → cmd.p 0 1 = 1 →
      ∃ t r, exec (.preempt q now) s = .next t ∧ t.underWay q cmd ∧ (t.slot cmd.context).run = some r ∧
        r.cancelled = run.cancelled ∧ r.preemptAt = some q.val ∧ (t.slot cmd.context).savedNow = false)

/-- R173, R308, R443: `CANCEL_SECTION` of the running section cancels it, marks the step bad and is under way until the boundary; of
any other it has no effect. -/
def Obligations.CancelSectionCancels : Prop :=
  ∀ (q : Fin 9) (now : Nat) (s : State) (cmd : FetchedCmd) (img : Image) (run : Run), s.runsCommand q 0x17 now cmd →
    (s.slot cmd.context).image = some img → (s.slot cmd.context).run = some run →
    (run.sect = cmd.p 0 2 → run.cancelled = none → (cmd.p 2 2 = 0xFFFF ∨ cmd.p 2 2 < img.sectionCount) →
      ∃ t r, exec (.cancelSection q now) s = .next t ∧ (t.slot cmd.context).run = some r ∧
        r.cancelled = some (cmd.p 2 2) ∧ r.sect = run.sect ∧ (t.slot cmd.context).step.bad = true) ∧
    (run.sect = cmd.p 0 2 → run.cancelled = none → (cmd.p 2 2 = 0xFFFF ∨ cmd.p 2 2 < img.sectionCount) → (s.looked q now).calm →
      ∃ t r, exec (.cancelSection q now) s = .next t ∧ t.underWay q cmd ∧ (t.slot cmd.context).run = some r ∧
        r.cancelled = some (cmd.p 2 2) ∧ r.sect = run.sect ∧ (t.slot cmd.context).step.bad = true ∧
        (t.slot cmd.context).state = (s.slot cmd.context).state) ∧
    ((run.sect ≠ cmd.p 0 2 ∨ run.cancelled ≠ none) →
      ∃ t, exec (.cancelSection q now) s = .next t ∧ (s.looked q now).replied t q cmd 0x1001 0 0 ∧ (s.looked q now).onlyReplied t)

/-- R415: `DEPOT_SNAPSHOT` begins the seeding of every replica that is not `LOST` again and is under way; with no replicas it has no
effect. -/
def Obligations.DepotSnapshotSeeds : Prop :=
  ∀ (q : Fin 9) (now : Nat) (s : State) (cmd : FetchedCmd) (b : Binding), s.runsCommand q 0x18 now cmd →
    (s.slot cmd.context).binding = some b →
    (b.rho ≠ 0 → s.runSlot = some cmd.context → s.collSlot = some cmd.context →
      ∃ t, exec (.depotSnapshot q now) s = .next t ∧ t.underWay q cmd ∧
        ∀ i ∈ b.replicaIx, tget .absent t.coll.replicas i =
          (if tget .absent s.coll.replicas i = .lost then .lost else .seeding)) ∧
    (b.rho = 0 → ∃ t, exec (.depotSnapshot q now) s = .next t ∧ (s.looked q now).replied t q cmd 0x1001 0 0 ∧
      (s.looked q now).onlyReplied t)

/-- R438, R467, R468: a context reset empties its slot, after a running context's work has stopped as under `HALT`; a warm reset clears
contexts, flows, queues and Census and keeps line time, policies, counters and flash, and before the module has been `READY` it is a cold
one; a cold reset starts line time, policies and counters again. Each keeps what left the module. A warm or cold reset that names a slot
is answered `BAD_PACKET` with the model's index for the field (notes/assumptions/22.md), and one that cannot leave a stop, that stop. -/
def Obligations.ResetsClear : Prop :=
  ∀ (q : Fin 9) (now : Nat) (s : State) (cmd : FetchedCmd),
    let u := s.looked q now
    s.runsCommand q 0x02 now cmd →
    (cmd.p 0 1 = 0 → cmd.context < 8 → s.modState ≠ .stopped → (s.slot cmd.context).state ≠ .running →
      ∃ t, exec (.resetContext q now) s = .next t ∧ t.slot cmd.context = Slot.init ∧ t.gone q cmd ∧ t.flash.lastReset = 0) ∧
    (cmd.p 0 1 = 0 → cmd.context < 8 → s.modState ≠ .stopped → (s.slot cmd.context).state ≠ .running → u.calm →
      ∃ t, exec (.resetContext q now) s = .next t ∧ t.slot cmd.context = Slot.init ∧ t.gone q cmd ∧
        ∀ c, c ≠ cmd.context → t.slot c = u.slot c) ∧
    (∀ run, cmd.p 0 1 = 0 → cmd.context < 8 → s.modState ≠ .stopped → (s.slot cmd.context).state = .running →
      (s.slot cmd.context).run = some run → u.calm →
      ∃ t, exec (.resetContext q now) s = .next t ∧
        ((t.slot cmd.context = Slot.init ∧ t.gone q cmd) ∨
         (t.underWay q cmd ∧ ∃ r, (t.slot cmd.context).run = some r ∧ r.cancelled = some 0xFFFF ∧ r.halting = true))) ∧
    (cmd.p 0 1 = 1 → cmd.context = 15 → s.resetLeaves false = true → s.modState.settled = true →
      ∃ t, exec (.resetWarm q now) s = .next t ∧ t.modState = .training ∧ t.slots = [] ∧ t.flows = [] ∧ t.queues = [] ∧
        t.census = .idle ∧ t.stations = [] ∧ t.time = u.time ∧ t.policies = s.policies ∧ t.pending = s.pending ∧
        t.flash.retired = s.flash.retired ∧ t.flash.lastReset = 1 ∧ t.tiers.mem = s.tiers.mem ∧ t.pcie = s.pcie) ∧
    (cmd.p 0 1 = 1 → cmd.context = 15 → s.resetLeaves false = true → s.modState.settled = false →
      ∃ t, exec (.resetWarm q now) s = .next t ∧ t.modState = .resetting ∧ t.slots = [] ∧ t.time = TimeKeeper.init ∧
        t.policies = Policies.init ∧ t.ctrs = [] ∧ t.flash.lastReset = 2) ∧
    (cmd.p 0 1 = 2 → cmd.context = 15 → s.resetLeaves true = true →
      ∃ t, exec (.resetCold q now) s = .next t ∧ t.modState = .resetting ∧ t.slots = [] ∧ t.flows = [] ∧ t.queues = [] ∧
        t.time = TimeKeeper.init ∧ t.policies = Policies.init ∧ t.ctrs = [] ∧ t.pending = s.pending ∧
        t.flash.retired = s.flash.retired ∧ t.flash.lastReset = 2 ∧ t.part = s.part) ∧
    (∀ i : Instr, cmd.p 0 1 = 1 ∧ i = .resetWarm q now ∨ cmd.p 0 1 = 2 ∧ i = .resetCold q now → cmd.context ≠ 15 →
      ∃ t, exec i s = .next t ∧ u.replied t q cmd 0x2002 0 18 ∧ u.onlyReplied t) ∧
    (∀ i : Instr, cmd.p 0 1 = 1 ∧ i = .resetWarm q now ∨ cmd.p 0 1 = 2 ∧ i = .resetCold q now → cmd.context = 15 →
      s.resetLeaves (cmd.p 0 1 == 2) = false →
      ∃ t, exec i s = .next t ∧ u.replied t q cmd u.stopStatus 0 0 ∧ u.onlyReplied t)

/-- R457: `CENSUS` arms, or schedules, the one snapshot, and is under way; at its instant the snapshot latches and is held, and the
command is replied with that instant. -/
def Obligations.CensusLatches : Prop :=
  ∀ (q : Fin 9) (now : Nat) (s : State) (cmd : FetchedCmd),
    let u := s.looked q now
    let w := (s.advance now).reachEpoch
    (s.runsCommand q 0x20 now cmd → u.census = .idle → cmd.p 0 1 = 0 →
      exec (.census q now) s =
        .next (State.accept { u with census := .scheduled q 0 cmd.context (u.time.lt + 2048) } q cmd)) ∧
    (s.runsCommand q 0x20 now cmd → u.census = .idle → cmd.p 0 1 = 1 → u.time.lt + 2048 ≤ cmd.p 8 8 →
      exec (.census q now) s = .next (State.accept { u with census := .scheduled q 1 cmd.context (cmd.p 8 8) } q cmd)) ∧
    (s.runsCommand q 0x20 now cmd → u.census = .idle → cmd.p 0 1 = 2 → 1 ≤ cmd.p 1 1 → cmd.p 1 1 ≤ 7 →
      exec (.census q now) s =
        .next (State.accept { u with census := .armed q cmd.context (cmd.p 1 1) (cmd.p 2 1) } q cmd)) ∧
    (∀ x : CensusState, cmd ∈ (u.queue q).cmds → ((State.accept { u with census := x } q cmd).underWay q cmd)) ∧
    (∀ k trigger c at', s.census = .scheduled k trigger c at' → at' ≤ w.time.lt → w.censusWaits c = false →
      ∃ t, exec (.censusLatch now) s = .next t ∧ t.census = .held (w.snapshot at' trigger c none) ∧
        (w.snapshot at' trigger c none).length = 10 ∧ t.slots = w.slots ∧
        t.stations = s.stations ∧ t.flows = s.flows ∧ t.tiers = s.tiers ∧
        ∀ x, (s.queue k).cmds.find? (fun y => y.accepted && y.opcode == 0x20) = some x → w.replied t k x 0 at' 0) ∧
    (∀ k c at' r, s.census = .triggered k c at' r → at' ≤ w.time.lt →
      ∃ t, exec (.censusLatch now) s = .next t ∧ t.census = .held (w.snapshot at' 2 c (some r)) ∧ t.slots = w.slots ∧
        ∀ x, (s.queue k).cmds.find? (fun y => y.accepted && y.opcode == 0x20) = some x → w.replied t k x 0 at' 0)

/-! ## Departures -/

/-- R156, R163: a Station issues at most one departure in a cycle, never before its copy of line time has come to the planned time, never
out of its line's order, and
consumes the Token counts of its waits as it issues; under `FIXED` that is the ready head of the lowest-numbered line. -/
def Obligations.OneIssueEachCycle : Prop :=
  ∀ (i : Instr) (k : Fin 128) (j : Fin 4) (t : IssueTick) (r : DepRule) (s : State) (h : Head),
    i.departure = some (k, j, t, r) → (s.advance t.lt).headOf k j = .head h →
    let v := (s.advance t.lt).advanceSc h.p t.sc
    let sc := v.cycle h.p
    (∀ u, exec i s = .next u →
      ((u.station k).issued = (s.station k).issued ∧ ((u.station k).line j).next = ((s.station k).line j).next ∧
        (u.station k).tokens = (s.station k).tokens) ∨
      ((u.station k).issued = (s.station k).issued + 1 ∧ ((u.station k).line j).next = ((s.station k).line j).next + 1 ∧
        (u.station k).tokens = consume (s.station k).tokens (Dep.waits h.word) ∧ 16 * h.planned ≤ v.copy h.p ∧
        (s.station k).lastIssue ≠ some sc ∧ (u.station k).lastIssue = some sc ∧
        (s.policies.budget = false → j.val ∈ readyLines v k sc ∧ ∀ l ∈ readyLines v k sc, j.val ≤ l))) ∧
    (s.policies.budget = false → Dep.opcode h.word = r.op → leastOf (commonForm h.word ++ r.form k h) = none →
      (s.station k).lastIssue ≠ some sc → j.val ∈ readyLines v k sc → (∀ l ∈ readyLines v k sc, j.val ≤ l) →
      leastOf (r.check v k j h ++ reasonsOf [(boundElsewhere (v.station k) j (Dep.waits h.word), 4)]) = none →
      ∃ u, exec i s = .next u ∧ (u.station k).issued = (s.station k).issued + 1)

/-- R155, R156, R163: a departure that issues consumes the Token counts of its waits, takes its line to its next departure, and is
the Station's one issue of that cycle; other lines and other Stations' Tokens stay. -/
def Obligations.DeparturesIssue : Prop :=
  ∀ (i : Instr) (k : Fin 128) (j : Fin 4) (t : IssueTick) (r : DepRule) (s : State) (h : Head),
    i.departure = some (k, j, t, r) → s.issues k j t r h →
    ∃ u, exec i s = .next u ∧ (u.station k).issued = (s.station k).issued + 1 ∧
      (u.station k).lastIssue = some (u.cycle h.p) ∧
      (u.station k).tokens = consume (s.station k).tokens (Dep.waits h.word) ∧
      ((u.station k).line j).next = ((s.station k).line j).next + 1 ∧
      (∀ l, l ≠ j.val → ((u.station k).line l).next = ((s.station k).line l).next) ∧
      (∀ n, n ≠ k.val → (u.station n).tokens = (s.station n).tokens ∧ (u.station n).issued = (s.station n).issued) ∧
      u.power.energyWin = s.power.energyWin + 2 ^ Dep.energy h.word

/-- R153, R179, R181: a departure that fails the form check, or the state check when its turn has come, does not issue: its context
stops, and `MALFORMED` names it with the lowest reason. -/
def Obligations.MalformedDeparturesStop : Prop :=
  ∀ (i : Instr) (k : Fin 128) (j : Fin 4) (t : IssueTick) (r : DepRule) (s : State) (h : Head) (reason : Nat),
    i.departure = some (k, j, t, r) → (s.advance t.lt).headOf k j = .head h → Dep.opcode h.word = r.op →
    let v := (s.advance t.lt).advanceSc h.p t.sc
    (leastOf (commonForm h.word ++ r.form k h) = some reason ∨
     (leastOf (commonForm h.word ++ r.form k h) = none ∧ (v.station k).lastIssue ≠ some (v.cycle h.p) ∧
      dispatch v k (v.cycle h.p) = some j.val ∧
      leastOf (r.check v k j h ++ reasonsOf [(boundElsewhere (v.station k) j (Dep.waits h.word), 4)]) = some reason)) →
    ∃ u, exec i s = .next u ∧ (u.slot h.c).state = .stopped ∧ u.stations = s.stations ∧
      (s.evt.enable = false → s.evt.buffer.length < 64 →
        ∃ x, u.evt.buffer = s.evt.buffer ++ [x] ∧ x.family = 1 ∧ x.code = 3 ∧ x.context = h.c ∧ x.lstation = k.val ∧
          x.line = j.val ∧ x.sect = h.sect ∧ x.index = h.index ∧ x.loc = reason)

/-- R181: a `CONTRACT_FAULT` stops its context and leaves the context's state in place; of a context that has stopped no departure
issues, no section boundary follows and no Right-away is applied, and a departure that has issued still completes. -/
def Obligations.StoppedContextsStand : Prop :=
  (∀ (s : State) (c subtype : Nat) (r : EvtRec),
    let u := s.contractFault c subtype r
    u.slot c = { s.slot c with state := .stopped } ∧ u.stations = s.stations ∧ u.coll = s.coll ∧ u.tiers = s.tiers ∧
      (s.oneRuns → s.runSlot = some c → u.runSlot = none)) ∧
  (∀ (s : State) (c : Nat), c < 8 → (s.slot c).state = .stopped → s.runSlot = none →
    (∀ i k j t r, i.departure = some (k, j, t, r) → ∃ u, exec i s = .next u ∧ u = { s with time := u.time }) ∧
    (∀ now, ∃ u, exec (.sectionBoundary now) s = .next u ∧ u = { s with time := u.time }) ∧
    (∀ now, ∃ u, exec (.rightAwayCommit now) s = .next u ∧ u = { s with time := u.time }) ∧
    (∀ now, ∃ u, exec (.rightAwayReject now) s = .next u ∧ u = { s with time := u.time }) ∧
    (∀ (k : Fin 128) (j : Fin 4) (sect index lt sc p : Nat) (pr : Prog),
      s.power.compStopped = false → s.phys k = some p →
      (s.station k).progs.find? (fun x => x.id.line == j.val && x.sect == sect && x.id.index == index && x.doneSc.isSome) = some pr →
      pr.doneSc.getD 0 ≤ max (s.cycle p) sc →
      ∃ u, exec (.departureComplete k j sect index lt sc) s = .next u ∧ (∀ x ∈ (u.station k).progs, x.id ≠ pr.id) ∧
        (u.slot c).state = .stopped ∧ (u.slot c).run = (s.slot c).run ∧ (u.slot c).step = (s.slot c).step))

/-- R154, R157, R174, R287, R300: `TOKEN`, `SECTION_END`, `WARNING_BOARD`, `SIDING_SET` and `SIDING_EXPECT` fire their signals at
issue; `SECTION_END` ends its line, a board starts `LEAD` after its issue and holds for its duration, `SIDING_SET` gives a Siding its
ring and line, and `SIDING_EXPECT` reserves one position more. No store changes. The signals of the last two at issue are DEDUCED:
notes/assumptions/24.md. -/
def Obligations.SignallingDepartures : Prop :=
  ∀ (k : Fin 128) (j : Fin 4) (t : IssueTick) (s : State) (h : Head),
    (s.issues k j t tokenRule h →
      ∃ u, exec (.token k j t) s = .next u ∧ s.departed u ∧ u.fired k j h ∧ s.sameStores u) ∧
    (s.issues k j t sectionEndRule h →
      ∃ u, exec (.sectionEnd k j t) s = .next u ∧ u.fired k j h ∧ ((u.station k).line j).ended = true ∧ s.sameStores u) ∧
    (s.issues k j t boardRule h →
      let o := boardOps h.word
      ∃ u b, exec (.warningBoard k j t) s = .next u ∧ s.departed u ∧ u.fired k j h ∧ s.sameStores u ∧
        u.power.boards = s.power.boards ++ [b] ∧ b.startLt = u.time.lt + o.lead ∧ b.endLt = b.startLt + 1000 * o.duration ∧
        b.target = min o.level s.power.capW ∧ b.raised = []) ∧
    (s.issues k j t sidingSetRule h →
      let o := sidingSetOps h.word
      ∃ u, exec (.sidingSet k j t) s = .next u ∧ s.departed u ∧ u.fired k j h ∧ s.sameStores u ∧
        (u.station k).siding o.siding =
          { (s.station k).siding o.siding with isSet := true, base := o.base, size := o.size, line := j.val, fillAt := 0 } ∧
        ∀ n, n ≠ o.siding → (u.station k).siding n = (s.station k).siding n) ∧
    (s.issues k j t expectRule h →
      let o := expectOps h.word
      let d := (s.station k).siding o.siding
      ∃ u x, exec (.sidingExpect k j t) s = .next u ∧ s.departed u ∧ u.fired k j h ∧ s.sameStores u ∧
        (u.station k).siding o.siding = { d with slots := d.slots ++ [x], next := d.next + 1 } ∧ x.num = d.next ∧
        x.state = .reserved ∧ x.source = .expect o.fmt false)

/-- R172: `POINTS` reads its selector word at issue and selects nothing yet; POINTS_SELECT broadcasts the sections that it names, which
completes it. -/
def Obligations.PointsSelect : Prop :=
  (∀ (k : Fin 128) (j : Fin 4) (t : IssueTick) (s : State) (h : Head), s.issues k j t pointsRule h →
    let o := pointsOps h.word
    ∃ u r p, exec (.points k j t) s = .next u ∧ (u.slot h.c).run = some r ∧ r.points = some p ∧ p.station = k.val ∧
      p.line = j.val ∧ p.value = memReadNat (s.station k).store (4 * o.sel) 4 ∧ p.base = o.base ∧ p.targets = o.targets ∧
      p.mask = o.mask ∧ p.join = o.join ∧ p.selected = none ∧ s.sameStores u) ∧
  (∀ (t : Tick) (s : State) (c p : Nat) (run : Run) (x : PointsSel), s.runSlot = some c → (s.slot c).state = .running →
    (s.slot c).run = some run → run.points = some x → x.selected = none → run.cancelled = none → s.phys x.station = some p →
    ∃ u r, exec (.pointsSelect t) s = .next u ∧ (u.slot c).run = some r ∧ r.sect = run.sect ∧
      r.points = some { x with selected := some x.targetsOf } ∧
      ∀ q ∈ (u.station x.station).progs, Dep.opcode q.word = opPoints → q.id.line = x.line → q.id.index = x.index →
        q.sect = run.sect → q.doneSc ≠ none)

/-- R187, R190, R194, R197, R206: a `STAGE` takes the shadow plane to STAGING, with the record of the store at hand until the cycle of
R70, with a claim on its Siding, or waiting for the Consist of its tag; a multiply enters the array's queue and its rows count in
flight in its groups; a complex one stages its first tile, once the wait of R71 is over; a `BALLAST` enters the queue alone. No store changes. -/
def Obligations.MultipliesEnterTheArray : Prop :=
  ∀ (k : Fin 128) (j : Fin 4) (t : IssueTick) (s : State) (h : Head),
    (s.issues k j t stageRule h → (stageOps h.word).kind = 0 →
      let o := stageOps h.word
      ∃ u pl, exec (.stage k j t) s = .next u ∧ (u.station k).shadow =
            .staging o.tag o.sfmt (s.depId k j h) (some pl) (u.cycle h.p + stagingSc o.sfmt) ∧ pl.desc = o.sfmt ∧ pl.tag = o.tag ∧
            pl.bytes = storeRead (s.station k) (64 * o.src) (64 * recGran o.sfmt) ∧ s.sameStores u) ∧
    (s.issues k j t stageRule h → (stageOps h.word).kind = 1 →
      let o := stageOps h.word
      ∃ u, exec (.stage k j t) s = .next u ∧
        ((u.station k).siding (o.src % 16)).claimed = ((s.station k).siding (o.src % 16)).claimed + 1 ∧ s.sameStores u) ∧
    (s.issues k j t stageRule h → 2 ≤ (stageOps h.word).kind →
      let o := stageOps h.word
      ((s.hop h.p (o.kind - 2)).held = none ∨ (s.hop h.p (o.kind - 2)).mode ≠ .holding) →
      ∃ u, exec (.stage k j t) s = .next u ∧
          (u.station k).takes = (s.station k).takes ++ [(s.depId k j h, o.kind - 2, o.src % 65536)] ∧
          (u.station k).shadow = .staging o.tag o.sfmt (s.depId k j h) none 0 ∧ s.sameStores u) ∧
    (s.issues k j t mmaRule h →
      let o := mmaOps h.word
      ∃ u, exec (.mma k j t) s = .next u ∧ (u.station k).mulq = (s.station k).mulq ++ [s.depId k j h] ∧
        ((u.station k).group o.group).inFlight = ((s.station k).group o.group).inFlight + o.nrows ∧
        (∀ g, g ≠ o.group → (u.station k).group g = (s.station k).group g) ∧
        (o.kind = 0 → s.sameStores u ∧ (u.station k).sidings = (s.station k).sidings) ∧
        (o.kind = 1 → ((u.station k).siding (o.src % 16)).claimed =
          ((s.station k).siding (o.src % 16)).claimed + ceilDiv o.nrows 256)) ∧
    (s.issues k j t cplxRule h →
      let o := cplxOps h.word
      ∃ u pl, exec (.mmaCplx k j t) s = .next u ∧ (u.station k).mulq = (s.station k).mulq ++ [s.depId k j h] ∧
        (∀ g ∈ cplxGroups o, ((u.station k).group g).inFlight =
          ((s.station k).group g).inFlight + cplxRows o (g - o.group)) ∧
        (u.station k).shadow =
          .staging 0 o.sfmt (s.depId k j h) (some pl) ((s.station k).mayStage (u.cycle h.p) + stagingSc o.sfmt) ∧
        pl.bytes = storeRead (s.station k) (64 * o.stat) (64 * recGran o.sfmt) ∧ s.sameStores u) ∧
    (s.issues k j t ballastRule h →
      ∃ u, exec (.ballast k j t) s = .next u ∧ s.departed u ∧ (u.station k).mulq = (s.station k).mulq ++ [s.depId k j h] ∧
        (u.station k).groups = (s.station k).groups ∧ s.sameStores u)

/-- R96, R203 to R205: `LOOP_SEND` from the store puts the Consist of its record among the Station's own on its line, and from a
Siding claims the next position; `LOOP_TAKE` waits for its tag, and of a Consist of that tag and format held at the line's input the
flits that have come are written into the store, those bytes alone: all of them, and the take is done after its flits, where the whole
Consist has come and the Loop carries nothing else. A Consist of another format stops the context (R184). -/
def Obligations.LoopDepartures : Prop :=
  ∀ (k : Fin 128) (j : Fin 4) (t : IssueTick) (s : State) (h : Head),
    (s.issues k j t sendRule h →
      let o := sendOps h.word
      (o.siding = false → ∃ u row col poison, exec (.loopSend k j t) s = .next u ∧ s.sameStores u ∧
          (o.cind = false → row = o.trow ∧ col = o.tcol) ∧
          (u.hop h.p o.line).own = (s.hop h.p o.line).own ++
            [sendConsist o k h.sect row col o.object (storeRead (s.station k) (64 * o.src) (64 * recGran o.fmt)) poison
              (s.depId k j h)] ∧
          ∀ p l, 2 * p + l ≠ 2 * h.p + o.line → u.hop p l = s.hop p l) ∧
      (o.siding = true → ∃ u, exec (.loopSend k j t) s = .next u ∧ s.sameStores u ∧
        ((u.station k).siding (o.src % 16)).claimed = ((s.station k).siding (o.src % 16)).claimed + 1)) ∧
    (s.issues k j t takeRule h →
      let o := takeOps h.word
      let hop := s.hop h.p o.line
      (hop.held = none ∨ hop.mode ≠ .holding →
        ∃ u, exec (.loopTake k j t) s = .next u ∧ s.departed u ∧ s.sameStores u ∧
          (u.station k).takes = (s.station k).takes ++ [(s.depId k j h, o.line, o.tag)]) ∧
      (∀ c, hop.held = some c → hop.mode = .holding → hop.read = 0 → c.tag = o.tag → c.fmt = o.fmt → (s.station k).takes = [] →
        (s.station k).prog (s.depId k j h) = none → c.size = c.data.length / 256 + 1 →
        ∃ u, exec (.loopTake k j t) s = .next u ∧
          (∀ i < c.data.length, memRead (u.station k).store (64 * o.addr + i) = c.data.getD i 0 ∨
            memRead (u.station k).store (64 * o.addr + i) = memRead (s.station k).store (64 * o.addr + i)) ∧
          ∀ a, a < 64 * o.addr ∨ 64 * o.addr + c.data.length ≤ a →
            memRead (u.station k).store a = memRead (s.station k).store a) ∧
      (∀ c, hop.held = some c → hop.mode = .holding → hop.read = 0 → c.tag = o.tag → c.fmt = o.fmt → (s.station k).takes = [] →
        (s.station k).prog (s.depId k j h) = none → c.size = c.data.length / 256 + 1 → c.data.length % 256 = 0 → c.hops ≤ c.dist →
        c.flits + 1 = c.size → (∀ n l, (s.hop n l).moving = none ∧ (s.hop n l).own = []) →
        (s.hop (prevNode s.flash.retired h.p o.line) o.line).occupied = c.size →
        ∃ u, exec (.loopTake k j t) s = .next u ∧
          u.doneAt k (s.depId k j h) (u.cycle h.p + c.flits) ∧ (u.station k).takes = [] ∧ (u.hop h.p o.line).held = none ∧
          (∀ i < c.data.length, memRead (u.station k).store (64 * o.addr + i) = c.data.getD i 0) ∧
          ∀ a, a < 64 * o.addr ∨ 64 * o.addr + c.data.length ≤ a →
            memRead (u.station k).store a = memRead (s.station k).store a) ∧
      (∀ c, hop.held = some c → hop.mode = .holding → c.tag = o.tag → c.fmt ≠ o.fmt → (s.station k).takes = [] →
        (s.station k).prog (s.depId k j h) = none →
        ∃ u, exec (.loopTake k j t) s = .next u ∧ (u.slot h.c).state = .stopped ∧ s.sameStores u))

/-- R115, R131, R132, R207, R208: `GROUP_OPEN` fills the slot's state record, and with `CLEAR` sets `CLEAR` in its tile rows, and is
done one cycle later; `GROUP_CLOSE` frees a slot with nothing in flight at once, and else holds the interlock. -/
def Obligations.GroupDepartures : Prop :=
  ∀ (k : Fin 128) (j : Fin 4) (t : IssueTick) (s : State) (h : Head),
    (s.issues k j t openRule h →
      let o := openOps h.word
      ∃ u, exec (.groupOpen k j t) s = .next u ∧ s.departed u ∧ s.sameStores u ∧
        (u.station k).group o.slot = openGroup o j h.sect false ∧
        (o.cascade = true → (u.station k).group o.partner = openGroup o j h.sect true) ∧
        (∀ g, g ≠ o.slot → (o.cascade = true → g ≠ o.partner) → (u.station k).group g = (s.station k).group g) ∧
        (o.clear = true → ∀ r, o.base ≤ r → r < o.base + o.count → (u.station k).row r = RowStatus.init) ∧
        (o.clear = false → (u.station k).rows = (s.station k).rows) ∧ (u.station k).acc = (s.station k).acc ∧
        u.doneAt k (s.depId k j h) (u.cycle h.p + 1)) ∧
    (s.issues k j t closeRule h →
      let o := closeOps h.word
      (((s.station k).group o.slot).inFlight = 0 →
        ∃ u, exec (.groupClose k j t) s = .next u ∧ s.departed u ∧ s.sameStores u ∧ (u.station k).group o.slot = Group.init ∧
          u.doneAt k (s.depId k j h) (u.cycle h.p)) ∧
      (((s.station k).group o.slot).inFlight ≠ 0 →
        ∃ u, exec (.groupClose k j t) s = .next u ∧ s.departed u ∧ s.sameStores u ∧ ((u.station k).group o.slot).closing = true ∧
          ((u.station k).group o.slot).isOpen = ((s.station k).group o.slot).isOpen ∧
          ∃ w, (u.station k).waits = (s.station k).waits ++ [w] ∧ w.dep = s.depId k j h ∧ w.isClose = true ∧
            w.groups = [o.slot]))

/-- R130, R213, R216, R221, R226: a drain whose groups have rows in flight waits on the interlock and writes nothing; one whose groups
are quiet writes no store but its destination extent, and is done at a cycle fixed by its schedule. -/
def Obligations.DrainsWriteTheirDestination : Prop :=
  ∀ (k : Fin 128) (j : Fin 4) (t : IssueTick) (s : State) (h : Head),
    let o := drainOps h.word
    (s.issues k j t (drainRule t.acc) h →
      (((s.station k).group o.group).inFlight ≠ 0 →
        ∃ u w, exec (.drain k j t) s = .next u ∧ (t.bad = [] → s.departed u) ∧ s.sameStores u ∧
          (u.station k).waits = (s.station k).waits ++ [w] ∧ w.dep = s.depId k j h ∧ w.isClose = false ∧ w.groups = [o.group]) ∧
      (((s.station k).group o.group).inFlight = 0 →
        ∃ u sc, exec (.drain k j t) s = .next u ∧ s.storesIn u k o.dst (o.valueGran + o.redGran) ∧
          (u.station k).waits = (s.station k).waits ∧ u.doneAt k (s.depId k j h) sc ∧ u.cycle h.p < sc)) ∧
    (s.issues k j t (drainCplxRule t.acc) h →
      let quiet := (s.station k).quiet [o.group, o.group + 1, o.group + 2]
      (quiet = false →
        ∃ u w, exec (.drainCplx k j t) s = .next u ∧ s.departed u ∧ s.sameStores u ∧
          (u.station k).waits = (s.station k).waits ++ [w] ∧ w.dep = s.depId k j h ∧ w.isClose = false ∧
            w.groups = [o.group, o.group + 1, o.group + 2]) ∧
      (quiet = true →
        ∃ u sc, exec (.drainCplx k j t) s = .next u ∧ s.storesIn u k o.dst (2 * rowsGran o.ofmt o.nrows) ∧
          (u.station k).waits = (s.station k).waits ∧ u.doneAt k (s.depId k j h) sc ∧ u.cycle h.p < sc))

/-- R213 to R215, R227, R230 to R233: a vector departure leaves the store as its rows leave it, each read, converted and written in
turn; no byte outside its destination changes; and a `CONVERT` that finds the drain path idle, with no read of the feeder ahead, is done
at the cycle of R218. -/
def Obligations.VectorDepartures : Prop :=
  ∀ (k : Fin 128) (j : Fin 4) (t : IssueTick) (s : State) (h : Head),
    (s.issues k j t convertRule h →
      let o := convertOps h.word
      ∃ u, exec (.convert k j t) s = .next u ∧ s.storesIn u k o.dst (rowsGran o.ofmt o.nrows) ∧
        (u.station k).store = ((s.station k).withErrors t.bad).rowsOut s.srInputs k o.out o.nrows o.row ∧
        ((s.station k).drainLast ≤ u.cycle h.p → (s.station k).feeds = [] → u.doneAt k (s.depId k j h)
          (u.cycle h.p + (o.nrows - 1) * pace (rowSc o.ifmt) (rowSc o.ofmt) + s.pathLatency + (rowSc o.ofmt - 1)))) ∧
    (s.issues k j t actRule h →
      let o := actOps h.word
      ∃ u, exec (.act k j t) s = .next u ∧ s.storesIn u k o.v.dst (rowsGran o.v.ofmt o.v.nrows) ∧
        (u.station k).store =
          ((s.station k).withErrors t.bad).rowsOut s.srInputs k o.v.out o.v.nrows (o.row ((s.station k).withErrors t.bad)) ∧
        ∃ sc, u.doneAt k (s.depId k j h) sc) ∧
    (s.issues k j t ewRule h →
      let o := ewOps h.word
      ∃ u, exec (.ew k j t) s = .next u ∧ s.storesIn u k o.v.dst (rowsGran o.v.ofmt o.v.nrows) ∧
        (u.station k).store =
          ((s.station k).withErrors t.bad).rowsOut s.srInputs k o.v.out o.v.nrows (o.row (o.fixed ((s.station k).withErrors t.bad))) ∧
        ∃ sc, u.doneAt k (s.depId k j h) sc) ∧
    (s.issues k j t normRule h →
      let o := normOps h.word
      ∃ u, exec (.norm k j t) s = .next u ∧ s.storesIn u k o.v.dst (rowsGran o.v.ofmt o.v.nrows) ∧
        (u.station k).store =
          ((s.station k).withErrors t.bad).rowsOut s.srInputs k o.v.out o.v.nrows (o.row ((s.station k).withErrors t.bad)) ∧
        ∃ sc, u.doneAt k (s.depId k j h) sc) ∧
    (s.issues k j t vstatsRule h →
      let o := vstatsOps h.word
      ∃ u, exec (.vstats k j t) s = .next u ∧ s.storesIn u k o.dst (redVectors o.red * redVecGran o.cols o.r64 o.nrows) ∧
        ∃ sc, u.doneAt k (s.depId k j h) sc)

/-- R245, R288, R293, R343, R362: `MANIFEST` enters the Pilot queue, and a fill reserves a position for each Waybill; `TURN` enters the
queue of its Sector's Turntable, behind those accepted before it; `COLL` is issued once in a step; `RIGHT_AWAY` ends the step's issues and hands its Class P pages to
the holders. -/
def Obligations.JobDepartures : Prop :=
  ∀ (k : Fin 128) (j : Fin 4) (t : IssueTick) (s : State) (h : Head),
    (s.issues k j t manifestRule h →
      let o := manifestOps h.word
      ∃ u m, exec (.manifest k j t) s = .next u ∧ s.departed u ∧ s.sameStores u ∧
        (u.station k).pilot = (s.station k).pilot ++ [m] ∧ m.dep = s.depId k j h ∧ m.object = o.object ∧ m.first = o.first ∧
        m.count = o.count ∧ m.writeBack = o.back ∧ m.forSect = o.forSect ∧ m.token = o.token ∧ m.fetched = 0 ∧ m.wbs = [] ∧
        (o.back = true → (u.station k).sidings = (s.station k).sidings) ∧
        (o.back = false → ((u.station k).siding o.siding).next = ((s.station k).siding o.siding).next + o.count ∧
          ((u.station k).siding o.siding).slots.length = ((s.station k).siding o.siding).slots.length + o.count)) ∧
    (s.issues k j t turnRule h →
      ∃ u q, exec (.turn k j t) s = .next u ∧ s.sameStores u ∧
        tget [] u.turns (turnOf k) = queueTurn q (tget [] s.turns (turnOf k)) ∧ q.station = k.val ∧ q.dep = s.depId k j h ∧
        q.word = h.word ∧ q.sc = u.cycle h.p ∧
        ((∀ x ∈ tget [] s.turns (turnOf k), x.sc ≠ q.sc) →
          tget [] u.turns (turnOf k) = tget [] s.turns (turnOf k) ++ [q]) ∧ ((turnOps h.word).cind = false → q.row = (turnOps h.word).trow ∧ q.col = (turnOps h.word).tcol) ∧
        ∀ n, n ≠ turnOf k → tget [] u.turns n = tget [] s.turns n) ∧
    (∀ errs, s.issues k j t (collRule errs) h → (s.slot h.c).binding ≠ none →
      ∃ u, exec (.coll k j ⟨t, errs⟩) s = .next u ∧
        (u.slot h.c).step.collIssued = (s.slot h.c).step.collIssued ++ [collId h.word] ∧ s.sameStores u) ∧
    (s.issues k j t rightAwayRule h → (s.slot h.c).binding ≠ none →
      ∃ u, exec (.rightAway k j t) s = .next u ∧
        (u.slot h.c).step.raIssued = some (j.val, h.index, (s.station k).issued) ∧ (u.slot h.c).step.dirty = [] ∧
        (u.slot h.c).step.pushed = (s.slot h.c).step.pushed ++ (s.slot h.c).step.dirty ∧ s.sameStores u)

/-! ## Events of the Timetable, the array, the accumulators and the Loop -/

/-- R157, R159, R160, R166, R168, R170, R180, R303, R405: a departure that has reached its completion leaves the Station with its signals
fired, and is logged if the delay of its issue and its stalls make it late by 1 lt or more beyond its allowance; the oldest visible signal
to a Token lands, or overflows it; a wait, a take or a fill that has lasted `WAIT_TIMEOUT` stops its context with the fault that R178 or
R405 names. -/
def Obligations.TimetableEvents : Prop :=
  (∀ (k : Fin 128) (j : Fin 4) (sect index lt sc p : Nat) (s : State) (pr : Prog),
    s.power.compStopped = false → s.phys k = some p →
    (s.station k).progs.find? (fun x => x.id.line == j.val && x.sect == sect && x.id.index == index && x.doneSc.isSome) = some pr →
    pr.doneSc.getD 0 ≤ max (s.cycle p) sc →
    let v := (s.advance lt).advanceSc p sc
    let stalls := pr.stallParts (v.copy p - pr.issueAt) (v.cycle p - pr.issueSc)
    let late := (chargeSum pr.waits + chargeSum stalls - 16 * Dep.allowance pr.word) / 16
    ∃ u, exec (.departureComplete k j sect index lt sc) s = .next u ∧ s.sameStores u ∧
      (∀ x ∈ (u.station k).progs, x.id ≠ pr.id) ∧
      (∀ x ∈ (s.station k).progs, x.id ≠ pr.id → x ∈ (u.station k).progs) ∧
      (pr.fired = false → ∀ g ∈ Dep.sigs pr.word, ∃ x ∈ (u.station g.station).transit,
        x.token = g.tok ∧ x.count = g.count ∧ x.bySt = k.val ∧ x.byIx = pr.id.index) ∧
      (late = 0 → u.slots = s.slots) ∧
      (∀ c, s.workSlot = some c → late ≠ 0 →
        ((u.slot c).log.entries.length = (s.slot c).log.entries.length + 1 ∧ (u.slot c).log.lost = (s.slot c).log.lost) ∨
        ((u.slot c).log.entries = (s.slot c).log.entries ∧ (u.slot c).log.lost = (s.slot c).log.lost + 1))) ∧
  (∀ (k : Fin 128) (tok : Fin 256) (t : Tick) (s : State) (pre post : List Signal) (g : Signal),
    let seen := fun (x : Signal) => ∀ p, s.phys k = some p → x.visible (max (s.cycle p) t.sc) = true
    s.power.compStopped = false → (s.station k).transit = pre ++ g :: post → g.token = tok.val → seen g →
    (∀ x ∈ pre, x.token = tok.val → ¬ seen x) →
    ((s.station k).token tok + g.count ≤ 65535 →
      ∃ u, exec (.tokenSignalLand k tok t) s = .next u ∧
        u = { s with time := u.time, cycles := u.cycles, stations := u.stations } ∧
        u.station k = { s.station k with
          transit := pre ++ post, tokens := tset (s.station k).tokens tok ((s.station k).token tok + g.count),
          lines := (u.station k).lines } ∧
        (∀ j, ((u.station k).line j).next = ((s.station k).line j).next ∧
          ((u.station k).line j).ended = ((s.station k).line j).ended) ∧
        ∀ n, n ≠ k.val → u.station n = s.station n) ∧
    (∀ c, 65535 < (s.station k).token tok + g.count → s.workSlot = some c →
      ∃ u, exec (.tokenSignalLand k tok t) s = .next u ∧ (u.slot c).state = .stopped ∧
        (u.station k).tokens = (s.station k).tokens ∧ (u.station k).transit = pre ++ post)) ∧
  (∀ (k : Fin 128) (j : Fin 4) (now c p : Nat) (s : State) (img : Image), s.runSlot = some c → s.phys k = some p →
    (s.slot c).image = some img →
    let v := s.advance now
    let limit := 1000 * img.waitTimeout
    (∀ h w, v.headOf k j = .head h → v.waitExpired k j h limit = some w →
      ∃ u, exec (.waitTimeout k j now) s = .next u ∧ v.stoppedBy u c 1 2 ∧ (u.slot c).timedOut = some w) ∧
    (∀ pr, (∀ h, v.headOf k j = .head h → v.waitExpired k j h limit = none) → v.tagExpired k p j limit = some pr →
      ∃ u, exec (.waitTimeout k j now) s = .next u ∧ v.stoppedBy u c 1 2 ∧ (u.slot c).timedOut = some 5) ∧
    (∀ h, v.headOf k j = .head h → waitsMet (v.station k) (Dep.waits h.word) = true → gseqWaits (v.station k) h.word = false →
      (∀ w ∈ (v.station k).waits, w.dep.line ≠ j.val) → (v.watchSpan k j h).1 ≤ (v.watchSpan k j h).2 →
      limit ≤ (v.watchSpan k j h).2 - (v.watchSpan k j h).1 -
        suspended v.coll.suspends (v.watchSpan k j h).1 (v.watchSpan k j h).2 →
      ∃ u, exec (.watchdogExpiry k j now) s = .next u ∧ v.stoppedBy u c 2 5)) ∧
  (∀ (k : Fin 128) (sid : Fin 16) (now c : Nat) (s : State) (img : Image), s.runSlot = some c → (s.slot c).image = some img →
    let v := (s.advance now).noteFills k
    let limit := 1000 * img.waitTimeout
    let d := (v.station k).siding sid
    (∀ pr, (v.station k).hungTake sid = some pr → pr.reachLt + limit ≤ v.time.lt →
      ∃ u, exec (.sidingOverflow k sid now) s = .next u ∧ v.stoppedBy u c 1 5 ∧ (u.slot c).overSiding = some sid.val) ∧
    (∀ w x a q, (v.station k).hungTake sid = none → d.wait = some w → d.oldest = some x → w.num = x.num → w.hungLt = some a →
      a + limit ≤ v.time.lt → v.fillDep k sid x = some q →
      ∃ u, exec (.sidingOverflow k sid now) s = .next u ∧ v.stoppedBy u c 1 5 ∧ (u.slot c).overSiding = some sid.val))

/-- R149, R150, R172, R441 to R443: at a section boundary the next section begins at its first departures with its Tokens reset and
its epoch, or the run ends and the slot is `BOUND`; a `PREEMPT` that waited for it cancels the new section. At its run epoch the run
that waits begins, and its `START` is replied; an `ADOPT` begins once the result of the step is known. -/
def Obligations.SectionsFollow : Prop :=
  (∀ (now c succ : Nat) (follow : List Nat) (s : State) (img : Image) (run : Run),
    let v := (s.advance now).reachEpoch
    v.runSlot = some c → (v.slot c).image = some img → (v.slot c).run = some run → v.boundaryReady c img run = true →
    nextSection img run = (succ, follow) →
    let begins := fun (u : State) (r : Run) => (u.slot c).run = some r ∧ r.sect = succ ∧ r.began = v.time.lt ∧ r.points = none ∧
      r.sectEpoch = (epochOf (img.sect succ) run.epoch v.time.lt run.floatPast).1 ∧ r.follow = follow ∧
      ∀ k, (u.station k).lines = []
    (∃ u, exec (.sectionBoundary now) s = .next u ∧
      ∀ k < 128, (s.phys k).isSome = true → (s.station k).zeroAt = [] → ∀ i < (img.sect run.sect).tresetCount,
        (u.station k).token ((img.sect run.sect).tresetBase + i) = img.tokenInit k ((img.sect run.sect).tresetBase + i)) ∧
    (succ = 0xFFFF → ∃ u, exec (.sectionBoundary now) s = .next u ∧ (u.slot c).state = .bound ∧ (u.slot c).run = none) ∧
    (succ ≠ 0xFFFF → run.preemptAt = none →
      ∃ u r, exec (.sectionBoundary now) s = .next u ∧ begins u r ∧ r.cancelled = none) ∧
    (succ ≠ 0xFFFF → run.preemptAt ≠ none →
      ∃ u r, exec (.sectionBoundary now) s = .next u ∧ begins u r ∧ r.cancelled = some succ ∧ r.switching = true ∧
        r.preemptAt = none)) ∧
  (∀ (now c : Nat) (s : State) (img : Image) (b : Binding) (run : Run), s.runSlot = some c → (s.slot c).image = some img →
    (s.slot c).binding = some b → (s.slot c).run = some run → run.waiting = true → run.epoch ≤ (s.advance now).time.lt →
    (s.coll.adopt = none →
      ∃ u, exec (.runEpoch now) s = .next u ∧ (u.slot c).run = some { run with waiting := false } ∧ u.stations = s.stations ∧
        ∀ q < 9, ∀ x ∈ (u.queue q).cmds, ¬(x.accepted = true ∧ x.opcode = 0x13 ∧ x.context = c)) ∧
    (s.coll.adopt = some .known →
      ∃ u r, exec (.runEpoch now) s = .next u ∧ (u.slot c).run = some r ∧ r.waiting = false ∧ r.sect = img.stepFirst ∧
        u.coll.adopt = none ∧ ∀ q < 9, ∀ x ∈ (u.queue q).cmds, ¬(x.accepted = true ∧ x.opcode = 0x19 ∧ x.context = c)))

/-- R68 to R74, R80 to R83, R187, R206: a valid row enters with its terms, behind those in the array, and switches its tile in where it
is the first to use it; a Ballast row or a bubble takes a free entrance and leaves the array as it is; staging that is complete makes
the shadow plane FULL; a good verdict lets its row go on, a first mismatch takes it and every row behind it back, and a second one is
a `STATION_CHECK`; the oldest row judged good goes to the adder tree. -/
def Obligations.ArrayRows : Prop :=
  ∀ (k : Fin 128) (s : State) (p : Nat), s.power.compStopped = false → s.phys k = some p →
    (∀ sc bad pr pass r g x pc path neg isat w strm sw frees sf xf,
      let v := s.advanceSc p sc
      let f := (v.nextRow k p (v.cycle p)).found v k bad
      entranceFree (s.station k) (v.cycle p) = true → k.val ∈ s.power.active →
      f.nextRow k p (v.cycle p) = .row pr pass r g x pc path neg isat w strm sw frees →
      Fmt.ofDesc w.desc = some sf → Fmt.ofDesc strm.desc = some xf →
      ∃ u row, exec (.rowEntry k sc bad) s = .next u ∧ (u.station k).inArray = (s.station k).inArray ++ [row] ∧
        row.dep = pr.id ∧ row.t = pr.next ∧ row.pass = pass ∧ row.group = g ∧ row.tileRow = r ∧ row.c = pc ∧
        row.dup = rowTwice path sf xf w strm.bytes x ∧ row.sums = rowSums path sf xf w.bytes strm.bytes x ∧ row.entry = u.cycle p + (if row.dup then pc else 0) ∧
        row.judged = false ∧ row.terms = rowTerms path sf xf w.bytes strm.bytes x neg ∧
        (u.station k).lastEntry = some (row.entry, pc) ∧
        ((Dep.opcode pr.word = opMma → (mmaOps pr.word).kind < 2) → s.sameStores u) ∧
        (sw = true → (u.station k).active = some w ∧ (u.station k).switchSc = some (u.cycle p)) ∧
        (sw = false → (u.station k).active = (s.station k).active)) ∧
    (∀ sc,
      let v := s.advanceSc p sc
      entranceFree (s.station k) (v.cycle p) = true →
      (∀ a c, (s.station k).lastInvalid = some (a, c) → a + c ≤ v.cycle p) →
      ((v.nextRow k p (v.cycle p)).granted (s.power.active.contains k.val)).some = false →
      ∃ u, exec (.invalidRowEntry k sc) s = .next u ∧
        u = { s with cycles := u.cycles, stations := u.stations, ctrs := u.ctrs, evt := u.evt, hostMem := u.hostMem,
                     vectors := u.vectors } ∧
        (u.station k).lastInvalid = some (u.cycle p, invalidCycles (s.station k)) ∧
        (u.station k).inArray = (s.station k).inArray ∧ s.sameStores u) ∧
    (∀ sc pr,
      let v := s.advanceSc p sc
      entranceFree (s.station k) (v.cycle p) = true →
      (∀ a c, (s.station k).lastInvalid = some (a, c) → a + c ≤ v.cycle p) →
      ((v.nextRow k p (v.cycle p)).granted (s.power.active.contains k.val)).some = false →
      k.val ∈ s.power.active → ballastAt (s.station k) = some pr → pr.next + 1 = (ballastOps pr.word).nrows →
      ∃ u, exec (.invalidRowEntry k sc) s = .next u ∧ u.doneAt k pr.id (u.cycle p) ∧
        (u.station k).mulq = (s.station k).mulq.drop 1) ∧
    (∀ sc tag desc dep pl d, (s.station k).shadow = .staging tag desc dep (some pl) d → d ≤ max (s.cycle p) sc →
      (∃ u, exec (.stagingComplete k sc) s = .next u ∧
        u = { s with cycles := u.cycles, stations := u.stations, ctrs := u.ctrs, evt := u.evt, hostMem := u.hostMem,
                     vectors := u.vectors } ∧ s.sameStores u) ∧
      ((s.station k).prog dep = none → ∃ u, exec (.stagingComplete k sc) s = .next u ∧ (u.station k).shadow = .empty) ∧
      (∀ pr, (s.station k).prog dep = some pr →
        ∃ u, exec (.stagingComplete k sc) s = .next u ∧ (u.station k).shadow = .full pl d) ∧
      (∀ pr, (s.station k).prog dep = some pr → Dep.opcode pr.word = opStage →
        ∃ u, exec (.stagingComplete k sc) s = .next u ∧ u.doneAt k dep d)) ∧
    (∀ faults now r rest, (s.station k).inArray.filter (fun x => !x.judged) = r :: rest →
      ((r.verdict faults).1 = false →
        ∃ u, exec (.checkVerdict k faults now) s = .next u ∧
          (u.station k).inArray =
            (s.station k).inArray.filter (fun x => x.judged) ++ { r with judged := true, terms := (r.verdict faults).2 } :: rest) ∧
      ((r.verdict faults).1 = true → r.retried = false →
        ∃ u again, exec (.checkVerdict k faults now) s = .next u ∧
          (u.station k).inArray = (s.station k).inArray.filter (fun x => x.judged) ∧
          (u.station k).redo = { r with retried := true, judged := false } :: again ++ (s.station k).redo ∧
          again.length = rest.length ∧ (u.station k).redoFrom = r.entry + 516 + r.c + 4) ∧
      ((r.verdict faults).1 = true → r.retried = true →
        ∃ u, exec (.checkVerdict k faults now) s = .next u ∧ p ∈ u.retireQ ∧
          ∀ c, s.runSlot = some c → (u.slot c).state = .recovering ∧ u.replay = true)) ∧
    (∀ r rest, (s.station k).inArray = r :: rest → r.judged = true →
      ∃ u, exec (.rowRelease k) s = .next u ∧ (u.station k).inArray = rest ∧
        (u.station k).tree = (s.station k).tree ++ [(r.entry + 520 + r.c, r)] ∧ (u.station k).acc = (s.station k).acc ∧
        s.sameStores u)

/-- R113, R119 to R123, R127, R129, R130, R132, R136: the oldest released row is added into its tile row, column by column, to what the
errors of the read leave there, and no longer counts in flight; a residue that fails again on a retry is a `STATION_CHECK` and adds
nothing; a spill is added into the partner's tile row; the oldest drain or close whose groups are quiet goes on; and a Station of a context
that is being switched out saves its accumulators, groups and Tokens. -/
def Obligations.AccumulatorEvents : Prop :=
  ∀ (k : Fin 128) (s : State) (p : Nat), s.phys k = some p →
    (∀ retries errs now a r rest, s.power.compStopped = false → (s.station k).tree = (a, r) :: rest →
      ((s.station k).group r.group).cascade = false →
      let kind := ((s.station k).group r.group).kind
      let m := (s.accErrors k p kind [r.tileRow] errs).station k
      let sums := (List.zip (m.accVals kind r.tileRow) r.terms).map (fun q => accTerms kind r.isat q.1 q.2)
      ∃ u, exec (.accTermWrite k retries false errs now) s = .next u ∧ (u.station k).tree = rest ∧
          (u.station k).acc = (m.accWrite kind r.tileRow sums []).acc ∧
          ((u.station k).row r.tileRow).termCount =
            (((s.station k).row r.tileRow).addTerms r.nterms).termCount ∧
          ((u.station k).row r.tileRow).clear = false ∧
          ((u.station k).group r.group).inFlight = ((s.station k).group r.group).inFlight - 1 ∧
          (∀ g, g ≠ r.group → (u.station k).group g = (s.station k).group g) ∧ s.sameStores u) ∧
    (∀ retries errs now a r rest, s.power.compStopped = false → (s.station k).tree = (a, r) :: rest →
      ∃ u, exec (.accTermWrite k retries true errs now) s = .next u ∧ (u.station k).tree = rest ∧ p ∈ u.retireQ ∧
          (u.station k).acc = (s.station k).acc) ∧
    (∀ retries errs x rest, s.power.compStopped = false → (s.station k).spills = x :: rest →
      let g := (s.station k).group x.slot
      let r := ((s.station k).group g.partner).base + (x.tileRow - g.base)
      let m := (s.accErrors k p g.kind [r] errs).station k
      let sums := (List.zip (m.accVals g.kind r) (x.read g.kind errs).values).map (fun v => accAdd g.kind false v.1 v.2)
      ∃ u, exec (.cascadeSpill ⟨k, retries, false, errs⟩) s = .next u ∧ (u.station k).spills = rest ∧
        (u.station k).acc = (m.accWrite g.kind r sums []).acc ∧
        ((u.station k).group x.slot).inFlight = g.inFlight - 1 ∧ s.sameStores u) ∧
    (∀ retries errs x rest, s.power.compStopped = false → (s.station k).spills = x :: rest →
      ∃ u, exec (.cascadeSpill ⟨k, retries, true, errs⟩) s = .next u ∧ (u.station k).spills = rest ∧ p ∈ u.retireQ ∧
        (u.station k).acc = (s.station k).acc) ∧
    (∀ sc acc w pr, s.power.compStopped = false → (s.station k).waits.find? (fun w => (s.station k).quiet w.groups) = some w →
      (s.station k).prog w.dep = some pr →
      (∃ u, exec (.drainInterlockEnd k sc acc) s = .next u ∧
        (u.station k).waits = (s.station k).waits.filter (fun x => x.dep != w.dep) ∧ (∃ d, u.doneAt k w.dep d)) ∧
      (w.isClose = true →
        ∃ u, exec (.drainInterlockEnd k sc acc) s = .next u ∧ s.sameStores u ∧ ∀ g ∈ w.groups, (u.station k).group g = Group.init) ∧
      (w.isClose = false → Dep.opcode pr.word ≠ opDrainCplx →
        ∃ u, exec (.drainInterlockEnd k sc acc) s = .next u ∧
          s.storesIn u k (drainOps pr.word).dst ((drainOps pr.word).valueGran + (drainOps pr.word).redGran)) ∧
      (w.isClose = false → Dep.opcode pr.word = opDrainCplx →
        ∃ u, exec (.drainInterlockEnd k sc acc) s = .next u ∧
          s.storesIn u k (drainOps pr.word).dst (2 * rowsGran (drainOps pr.word).ofmt (drainOps pr.word).nrows))) ∧
    (∀ t acc c run, s.runSlot = some c → (s.slot c).run = some run → run.switching = true → (s.station k).saved = false →
      (s.station k).still = true → (s.station k).quiet (List.range 8) = true →
      (s.station k).workEnds + 2056 ≤ max (s.cycle p) t.sc →
      ∃ u v, exec (.accSave k t acc) s = .next u ∧ (k.val, v) ∈ (u.slot c).saved ∧ v.groups = (s.station k).groups ∧
        v.tokens = (s.station k).zeroedTokens ∧ (acc = [] → v = (s.station k).save) ∧
        ((u.station k).saved = true ∨ (u.slot c).state = .preempted) ∧ s.sameStores u)

/-- R90, R92, R94 to R96, R99 to R101, R105, R403: a Station inserts its own Consist between others, and as many of its flits leave as
there are credits; a Consist whose header arrives is held where its Station uses it, goes on elsewhere, and is discarded where it has come
to its end or is of a cancelled section; a flit with bad parity is discarded with every later flit of its hop, their credits returned, and
a replay asked for up to eight times; the replay takes a credit for each flit; and the ninth failure takes the hop down and names a Station
to retire. -/
def Obligations.LoopEvents : Prop :=
  (∀ (p : Fin 136) (l : Fin 2) (s : State) (c : Consist) (rest : List Consist), s.power.compStopped = false →
    (s.hop p l).own = c :: rest → (s.hop p l).open = true →
    (∀ x, (s.hop p l).held = some x → x.goesOn (s.hop p l).mode = true → (s.hop p l).read ≠ 0) →
    let n := min c.size ((s.hop p l).credits + (s.hop p l).retCred)
    ∃ u, exec (.consistInsert p l) s = .next u ∧ (u.hop p l).own = rest ∧ (u.hop p l).moving = some c ∧ (u.hop p l).sent = n ∧
      (u.hop p l).credits = (s.hop p l).credits + (s.hop p l).retCred - n ∧ (u.hop p l).retCred = 0 ∧
      (u.hop p l).inFlight = (s.hop p l).inFlight + n ∧ (u.hop p l).seq = ((s.hop p l).seq + n) % 32 ∧ s.sameStores u ∧
      ∀ i m, 2 * i + m ≠ 2 * p.val + l.val → u.hop i m = s.hop i m) ∧
  (∀ (p : Fin 144) (l : Fin 2) (flits now : Nat) (s : State) (c : Consist), s.power.compStopped = false →
    let q := prevNode s.flash.retired p l
    (s.hop q l).moving = some c → (s.hop q l).arrived = false → (s.hop q l).blocked = false → (s.hop q l).inFlight ≠ 0 →
    (s.hop p l).held = none → p.val ∉ s.flash.retired → q ≠ p.val → c.size ≠ 0 → (∀ n id m, (s.hop n l).mode ≠ .given id m) →
    let here := decide (p.val < 136) && (s.logical p).isSome
    let x := if here then { c with dist := c.dist + 1 } else c
    (here = true → s.discards c.sect = false → x.usedAt x.dist = true → (∀ k, s.logical p = some k → (s.station k).takes = []) →
      ∃ u, exec (.consistArrive p l ⟨flits, now⟩) s = .next u ∧ (u.hop p l).held = some x ∧ (u.hop p l).mode = .holding ∧
        s.sameStores u) ∧
    ((p.val < 136 → s.discards c.sect = false) → (here = true → x.usedAt x.dist = false ∧ x.dist < x.hops) →
      (s.hop p l).open = true →
      ∃ u, exec (.consistArrive p l ⟨flits, now⟩) s = .next u ∧ (u.hop p l).moving = some { x with dep := none } ∧
        (u.hop p l).passes = true ∧ 1 ≤ (u.hop p l).sent ∧ s.sameStores u) ∧
    (here = true → (s.discards c.sect = true ∨ x.usedAt x.dist = false ∧ x.hops ≤ x.dist) → (s.hop p l).moving = none →
      ∃ u, exec (.consistArrive p l ⟨flits, now⟩) s = .next u ∧ s.sameStores u ∧ (u.hop p l).moving = none)) ∧
  (∀ (p : Fin 144) (l : Fin 2) (flips : List (Fin 2092)) (s : State) (c : Consist) (i n : Nat) (rest : List Nat),
    s.power.compStopped = false → s.oldestFlit p l = some (c, i) → (s.hop p l).replay = n :: rest → (s.hop p l).blocked = false →
    (s.hop p l).inFlight ≠ 0 → parityBad (c.arrives i n flips).1 (c.arrives i n flips).2 = true →
    ∃ u, exec (.loopFlitParityError p ⟨l, flips⟩) s = .next u ∧
      u = { s with hops := u.hops, ctrs := u.ctrs, evt := u.evt, hostMem := u.hostMem, vectors := u.vectors } ∧
      u.hop p l = { s.hop p l with
        inFlight := 0, retCred := (s.hop p l).retCred + (s.hop p l).inFlight, fails := (s.hop p l).fails + 1,
        request := if (s.hop p l).fails + 1 ≤ 8 then some n else none }) ∧
  (∀ (p : Fin 144) (l : Fin 2) (s : State), s.power.compStopped = false → (s.hop p l).request.isSome = true →
    let n := (s.hop p l).replay.length
    ∃ u, exec (.loopReplayRequest p l) s = .next u ∧ u = { s with hops := u.hops } ∧
      u.hop p l = { s.hop p l with
        request := none, inFlight := (s.hop p l).inFlight + n, credits := (s.hop p l).credits + (s.hop p l).retCred - n,
        retCred := 0 }) ∧
  (∀ (p : Fin 144) (l : Fin 2) (now : Nat) (s : State), s.power.compStopped = false → (s.hop p l).fails = 9 →
    (s.hop p l).down = false →
    ∃ u, exec (.loopHopDown p l now) s = .next u ∧ u.hop p l = { s.hop p l with down := true } ∧
      hopVictim s.flash.retired p l ∈ u.retireQ ∧ u.stations = s.stations)

/-- R106, R403, R406 to R408: a Station that a `STATION_CHECK` named is retired for good and the Loop reconfigured; with no spare left
for its number every running context stops. A recovering context then replays its step at once where no Class P page has been
written, asks a holder that is `CURRENT`, or stops. -/
def Obligations.RetirementAndReplay : Prop :=
  (∀ (p : Fin 136) (now : Nat) (s : State), s.power.compStopped = false → p.val ∈ s.retireQ → p.val ∉ s.flash.retired →
    (∀ q c a r, s.census ≠ .triggered q c a r) →
    ∃ u, exec (.stationRetire p now) s = .next u ∧ u.flash.retired = s.flash.retired ++ [p.val] ∧ p.val ∉ u.retireQ ∧
      (∀ n m, m < 2 → (u.hop n m).moving = none ∧ (u.hop n m).held = none ∧ (u.hop n m).own = [] ∧
        (u.hop n m).credits = hopCredits u.flash.retired n m) ∧
      u.stations = s.stations ∧
      ((s.logical p = none ∨ hasSpare s.flash.retired (p.val / 17) = true) → u.slots = s.slots ∧ u.modState = s.modState) ∧
      (s.logical p ≠ none → hasSpare s.flash.retired (p.val / 17) = false →
        u.oneRuns ∧ (∀ c < 8, u.busy c = false) ∧ (s.modState = .ready → u.modState = .noSpare))) ∧
  (∀ (now c : Nat) (s : State) (img : Image) (b : Binding) (run : Run), s.runSlot = some c → (s.slot c).state = .recovering →
    (s.slot c).image = some img → (s.slot c).binding = some b → (s.slot c).run = some run → s.replay = true → s.retireQ = [] →
    (∀ q c a r, s.census ≠ .triggered q c a r) → s.coll.asked = none →
    (s.dirtyPages c = [] →
      ∃ u r, exec (.stepReplay now) s = .next u ∧ (u.slot c).run = some r ∧ r.sect = img.stepFirst ∧ r.cancelled = none ∧
        (u.slot c).step.committed = (s.slot c).step.committed ∧ (u.slot c).step.raIssued = none ∧ u.replay = false) ∧
    (∀ i, s.dirtyPages c ≠ [] → s.currentFrom b 1 = some i →
      ∃ u a, exec (.stepReplay now) s = .next u ∧ u.coll.asked = some a ∧ a.purpose = 0 ∧ a.holder = i ∧ u.replay = false ∧
        u.tiers.map = s.tiers.map) ∧
    (s.dirtyPages c ≠ [] → s.currentFrom b 1 = none →
      ∃ u, exec (.stepReplay now) s = .next u ∧ (u.slot c).state = .stopped))

/-! ## The Pilot, the Turntables and the Shunter -/

/-- R290, R294, R296 to R299, R301, R302, R304, R307: a burst is fetched once its slots are free; one whose Waybills pass their checks
arrives, and its `MANIFEST` is done 16 sc after the last; one that fails a check, or has an uncorrected error, stops its context; a fill
starts at the ring's fill point, and its record lands in the ring, but that of an Aborting object with an error; a fill cut off goes back;
a write-back starts in order, and writes its bytes to its object. -/
def Obligations.PilotEvents : Prop :=
  ∀ (k : Fin 128) (s : State), s.power.compStopped = false →
    (∀ now c img m, s.workSlot = some c → (s.slot c).image = some img →
      (s.station k).pilot.find? (fun m => decide (m.fetched < m.count) && !m.cancelled && !m.failed) = some m →
      (s.station k).wbHeld + m.burst ≤ 64 →
      ∃ u, exec (.waybillBurstFetch ⟨k, now⟩) s = .next u ∧ u = { s with time := u.time, stations := u.stations } ∧ s.sameStores u ∧
        (u.station k).wbHeld = (s.station k).wbHeld + m.burst ∧
        ∃ x ∈ (u.station k).pilot, x.dep = m.dep ∧ x.fetched = m.fetched + m.burst ∧
          ∃ b, x.bursts = m.bursts ++ [b] ∧
            b.firstLt = u.time.lt + s.readLatency img (s.readsOf c m.object (m.wbByte m.fetched) (64 * m.burst))) ∧
    (∀ errs now c p img m b rest,
      let v := s.advance now
      let n := min 16 (m.count - m.arrived)
      let grans := granulesOf (m.wbByte m.arrived) (64 * n)
      let data := v.objReadFrom c m.object b.reads (m.wbByte m.arrived) (64 * n)
      let word := fun i => Waybill.ofNat (leNat (sliceBytes data.1 (64 * i) 64))
      let passes := fun i => leastOf (waybillReasons v c img m.writeBack ((s.station k).siding m.siding).size (word i)) = none
      s.workSlot = some c → s.phys k = some p → (s.slot c).image = some img →
      (s.station k).pilot.find? (fun m => m.bursts != [] && !m.cancelled && !m.failed) = some m →
      (s.station k).manifest m.dep = some m → m.bursts = b :: rest → b.firstLt ≤ v.time.lt →
      (errs = [] → data.2 = [] → (∀ base, s.mapBase c m.object = some base → v.foundIn base b.reads grans [] = []) →
        ((∀ i < n, passes i) →
          ∃ u x, exec (.waybillBurstArrive k errs now) s = .next u ∧ x ∈ (u.station k).pilot ∧ x.dep = m.dep ∧
            x.arrived = m.arrived + n ∧ x.wbs.length = m.wbs.length + n ∧ x.bursts = rest) ∧
        (∀ pr, (∀ i < n, passes i) → m.arrived + n = m.count → (s.station k).prog m.dep = some pr →
          ∃ u, exec (.waybillBurstArrive k errs now) s = .next u ∧ u.doneAt k m.dep (s.cycle p + 16)) ∧
        (∀ i < n, ¬ passes i →
          ∃ u, exec (.waybillBurstArrive k errs now) s = .next u ∧ (u.slot c).state = .stopped)) ∧
      (∀ base g, s.mapBase c m.object = some base → g ∈ ReadError.pick errs false grans →
        ((v.correctedReads c m.object b.reads (ReadError.pick errs true grans)).served b.reads (base + g / pageGran)).zero = false →
        ∃ u, exec (.waybillBurstArrive k errs now) s = .next u ∧ (u.slot c).state = .stopped)) ∧
    (∀ (sid : Fin 16) (t : Tick) p c img x id i m w od len,
      let v := ((s.advance t.lt).advanceSc p t.sc).noteFills k
      let d := (v.station k).siding sid
      s.phys k = some p → s.workSlot = some c → (s.slot c).image = some img → d.oldest = some x → x.source = .waybill id i →
      v.fillAsked k sid x = some len → (s.station k).manifest id = some m → m.wbs.find? (fun w => w.index == i) = some w →
      img.obj (Waybill.ofNat w.word).object = some od → d.mayStart x.num len = true →
      let reads := ((Waybill.ofNat w.word).spans od).flatMap (fun q => v.readsOf c (Waybill.ofNat w.word).object q.1 q.2)
      ∃ u y, exec (.sidingFillStart k ⟨sid, t⟩) s = .next u ∧ s.departed u ∧ s.sameStores u ∧
        y ∈ ((u.station k).siding sid).slots ∧ y.num = x.num ∧ y.state = .inFlight ∧ y.ringAt = d.fillAt ∧
        y.len = len ∧ y.reads = reads ∧ y.firstLt = u.time.lt + v.readLatency img reads ∧ y.beganSc = u.cycle p ∧
        ((u.station k).siding sid).fillAt = (d.fillAt + len) % d.size) ∧
    (∀ (sid : Fin 16) i errs ring (t : Tick) x p,
      let v := (s.advance t.lt).advanceSc p t.sc
      let d := (s.station k).siding sid
      s.phys k = some p → (d.slots.filter (fun x => x.state == .inFlight))[i]? = some x → d.pos x.num = some x → x.reads ≠ [] →
      x.firstLt ≤ v.time.lt → x.beganSc + ceilDiv x.len 4 ≤ v.cycle p →
      (x.cut = true →
        ∃ u, exec (.sidingFillLand k sid i ⟨errs, ring⟩ t) s = .next u ∧ s.sameStores u ∧
          ∃ y ∈ ((u.station k).siding sid).slots, y.num = x.num ∧ y.state = .returning) ∧
      (∀ id wi m w c img od, x.cut = false → x.source = .waybill id wi → s.workSlot = some c →
        (s.slot c).image = some img →
        (s.station k).manifest id = some m → m.wbs.find? (fun w => w.index == wi) = some w →
        img.obj (Waybill.ofNat w.word).object = some od →
        let wb := Waybill.ofNat w.word
        let r := (v.readBack c wb.object x.reads (wb.spans od) errs).2
        let data := if wb.kind = 1 then (zf12Record (wb.offset / 8) 8192 r.bytes r.bad).1 else r.bytes
        ((od.aborting = false ∨ r.bad = []) → data.length = 64 * x.len → x.len ≤ d.size → x.ringAt < d.size →
          ∃ u y, exec (.sidingFillLand k sid i ⟨errs, ring⟩ t) s = .next u ∧ y ∈ ((u.station k).siding sid).slots ∧
            y.num = x.num ∧ y.state = .filled ∧ s.storesIn u k d.base d.size ∧
            ∀ a < data.length, memRead (u.station k).store (64 * d.base + (64 * x.ringAt + a) % (64 * d.size)) = data.getD a 0) ∧
        (∀ base, od.aborting = true → r.bad ≠ [] → s.mapBase c wb.object = some base →
          ∃ u, exec (.sidingFillLand k sid i ⟨errs, ring⟩ t) s = .next u ∧ (u.slot c).state = .stopped ∧ s.sameStores u))) ∧
    (∀ m w c, (s.station k).nextBack 0 = some (m, w) → s.workSlot = some c → m.cancelled = false → s.sectionOpen c m = true →
      ∃ u, exec (.writebackStart k) s = .next u ∧ u = { s with stations := u.stations } ∧ s.sameStores u ∧
        ∃ x ∈ (u.station k).pilot, x.dep = m.dep ∧ ∃ y ∈ x.wbs, y.index = w.index ∧ y.stage = 1) ∧
    (∀ bad now m w c p img d, (s.station k).nextBack 1 = some (m, w) → s.workSlot = some c → s.phys k = some p →
      (s.slot c).image = some img → img.obj (Waybill.ofNat w.word).object = some d →
      let wb := Waybill.ofNat w.word
      let found := bad.filter (fun g => decide (g < wb.gran))
      let st := { s.station k with storePoison := found.foldl (fun q g => numInsert q (wb.store + g)) (s.station k).storePoison }
      let data := storeRead st (64 * wb.store) (64 * wb.gran)
      let poison := (storePoisoned st (64 * wb.store) (64 * wb.gran)).map (fun g => g - wb.store)
      ((d.aborting = false ∨ poison = []) →
        ∃ u, exec (.writebackDone k bad now) s = .next u ∧ s.sameStores u ∧
          u.tiers = (if wb.kind = 3 ∧ d.layout = 1 then (s.advance now).zf12Back c wb.object wb.offset data poison wb.groups
            else (s.advance now).objWrite c wb.object (wb.destByte d 0) data
              (fun g => poison.contains (g - wb.destByte d 0 / 64))).tiers) ∧
      (d.aborting = true → poison ≠ [] →
        ∃ u, exec (.writebackDone k bad now) s = .next u ∧ s.sameStores u ∧ (u.slot c).state = .stopped ∧ u.tiers = s.tiers))

/-- R239, R241 to R245, R175: with a buffer free and its position free to start, a Turntable takes its oldest `TURN`: it puts the
Consist of the transposed record on the lines named, to leave from the cycle of R244 on, or the record into its Siding, where it is done
at that cycle. An error in an Aborting record stops the context. -/
def Obligations.TurntableServes : Prop :=
  ∀ (t : Fin 8) (feed : Nat) (errs : List ReadError) (ring : List Nat) (sc now : Nat) (s : State) (q : TurnReq)
    (rest : List TurnReq) (c : Nat) (img : Image) (od : ObjDesc) (inF outF : Fmt) (mode : Round),
    let o := turnOps q.word
    let w := (((s.advance now).turnTick t sc).pump (136 + t.val) 0).pump (136 + t.val) 1
    let v := if o.dest = 0 then w.noteFills o.dstStation else w
    let b := (q.row * od.cols + q.col) * od.recordBytes
    let back := v.readBack c o.object (v.readsOf c o.object b inF.recordBytes) [(b, inF.recordBytes)] errs
    let out := transpose inF outF mode back.1.srInputs q.station back.2.bytes (back.2.bad.map (fun g => g - back.2.grans.headD 0))
    let first := back.1.stationCycle q.station + 255 + feed + back.1.turnLatency
    s.power.compStopped = false → tget [] w.turns t = q :: rest → w.workSlot = some c → (w.slot c).image = some img →
    (v.turnBuffers t).length < 2 → img.obj o.object = some od → Fmt.ofDesc o.ifmt = some inF →
    Fmt.ofDesc o.ofmt = some outF → Round.ofCode o.round = some mode →
    (∀ pr, od.aborting = false ∨ back.2.bad = [] → o.dest = 0 → (v.station q.station).prog q.dep = some pr →
      ((v.station o.dstStation).siding o.siding).mayStart pr.claim (recGran o.ofmt) = true →
      ∃ u, exec (.turnRecordServe t ⟨feed, errs, ring⟩ ⟨now, sc⟩) s = .next u ∧ tget [] u.turns t = rest ∧
        u.doneAt q.station q.dep (first + out.1.length / 256 - 1)) ∧
    (∀ l, od.aborting = false ∨ back.2.bad = [] → o.dest ≠ 0 → ((o.dest = 1 ∧ l = 0) ∨ (o.dest = 2 ∧ l = 1) ∨ (3 ≤ o.dest ∧ l < 2)) →
      ∃ u, exec (.turnRecordServe t ⟨feed, errs, ring⟩ ⟨now, sc⟩) s = .next u ∧ tget [] u.turns t = rest ∧ w.sameStores u ∧
        (u.hop (136 + t.val) l).own = (w.hop (136 + t.val) l).own ++ [turnConsist o q out.1 out.2 first]) ∧
    (∀ base, od.aborting = true → back.2.bad ≠ [] → v.mapBase c o.object = some base →
      (o.dest ≠ 0 ∨ ∃ pr, (v.station q.station).prog q.dep = some pr ∧
        ((v.station o.dstStation).siding o.siding).mayStart pr.claim (recGran o.ofmt) = true) →
      ∃ u, exec (.turnRecordServe t ⟨feed, errs, ring⟩ ⟨now, sc⟩) s = .next u ∧ tget [] u.turns t = rest ∧
        (u.slot c).state = .stopped)

/-- R265, R267, R272 to R275, R278, R281, R282, R402: the first move of the queue starts, or the demotion that it needs; it holds both
frames, and ends with the page in its new frame reading as before and with an error that it found; a page that reads as zero moves by its
entry alone; an object's Token gains one count for a use; the scrub counts what it corrects, a frame without data retires at an
uncorrected error or at its sixteenth corrected one, and an error in the Placement Map stops the contexts concerned. -/
def Obligations.ShunterEvents : Prop :=
  (∀ (s : State) (e t c n e' tier frame : Nat) (rest : List (Nat × Nat)),
    let v := s.reachEpoch
    let m := v.mapEntry e
    let m' := v.mapEntry e'
    v.shunter.queued = (e, t) :: rest → v.shunter.moving.length < 256 → m.state = 1 → m.pinned = false →
    v.ownerOf e = some (c, n) →
    ((frameKey m.tier m.frame ∈ v.shunter.retiring ∧ e' = e ∧
        v.placePage c (orderFrom (v.homeOrderOf c n) m.tier) = some (tier, frame)) ∨
      (frameKey m.tier m.frame ∉ v.shunter.retiring ∧ e' = e ∧ tier = t ∧ v.freeFrame c t = some frame) ∨
      (frameKey m.tier m.frame ∉ v.shunter.retiring ∧ v.freeFrame c t = none ∧ v.leaving t = false ∧
        ∃ vc vn, v.victim c t = some (e', vc, vn) ∧ v.placePage vc (v.demoteOrder e' vc vn t) = some (tier, frame))) →
    (m'.zero = false →
      ∃ u, exec .pageMoveStart s = .next u ∧ u.stations = s.stations ∧ e' ∈ u.shunter.moving ∧
        u.mapEntry e' = { m' with state := 2, destTier := tier, destFrame := frame } ∧ u.tiers.mem = s.tiers.mem) ∧
    (m'.zero = true →
      ∃ u, exec .pageMoveStart s = .next u ∧ u.stations = s.stations ∧
        u.mapEntry e' = { m' with tier := tier, frame := frame, destTier := 0, destFrame := 0, state := 1 })) ∧
  (∀ (s : State) (i now e : Nat) (errs : List ReadError),
    let v := (s.advance now).reachEpoch
    let m := s.mapEntry e
    s.shunter.moving[i]? = some e → m.state = 2 → m.zero = false → (m.tier, m.frame) ≠ (m.destTier, m.destFrame) →
    m.tier ≤ 3 → m.destTier ≤ 3 → m.frame < 2 ^ 21 → m.destFrame < 2 ^ 21 →
    (errs = [] → (m.tier = 3 → s.tier3Up = true) →
      (m.destTier = 3 → s.poisonListed + (if m.tier = 3 then 0 else (s.wholePoison e).length) ≤ 65536) →
      (∃ u, exec (.pageMoveComplete i errs now) s = .next u ∧ e ∉ u.shunter.moving ∧ u.stations = s.stations ∧
        u.mapEntry e = { m with tier := m.destTier, frame := m.destFrame, destTier := 0, destFrame := 0, state := 1 }) ∧
      (∀ off n, m.tier ≠ 3 → m.destTier ≠ 3 → off + n ≤ pageBytes →
        ∃ u, exec (.pageMoveComplete i errs now) s = .next u ∧ u.pageRead e off n = s.pageRead e off n) ∧
      (∀ off n, v.calm → off + n ≤ pageBytes → (v.ctr .shuntMoves 0).value + 1 < Ctr.shuntMoves.top →
        (v.ctr .shuntMoveGran 0).value + 32768 < Ctr.shuntMoveGran.top →
        ∃ u, exec (.pageMoveComplete i errs now) s = .next u ∧ u.pageRead e off n = v.pageRead e off n)) ∧
    (∀ x c n, x ∈ errs → x.corrected = false → x.gran < pageGran → m.tier ≠ 3 → m.destTier ≠ 3 → s.ownerOf e = some (c, n) →
      ∃ u, exec (.pageMoveComplete i errs now) s = .next u ∧ (u.mapEntry e).tier = m.destTier ∧
        (u.mapEntry e).frame = m.destFrame ∧ u.granPoisoned e x.gran = true)) ∧
  (∀ (s : State) (object now c use : Nat) (img : Image) (o : ObjDesc),
    let v := (s.advance now).reachEpoch
    v.runSlot = some c → (v.slot c).state = .running → (v.slot c).image = some img → img.obj object = some o → o.readyEn = true →
    v.readyUse c object o = some use →
    ∃ u, exec (.shuntReadySignal object now) s = .next u ∧ (object, use) ∈ (u.slot c).step.signalled ∧
      (∃ x, (u.station o.readyStation).transit = (s.station o.readyStation).transit ++ [x] ∧ x.token = 0xF8 + o.readyToken ∧
        x.count = 1) ∧ s.sameStores u) ∧
  (∀ (s : State) (tier : Fin 3) (frame gran now : Nat), frame < s.tierFrames tier → gran < pageGran →
    let v := s.advance now
    let near := (tget [] s.tiers.errors (frameKey tier frame)).filter (fun t => decide (v.time.lt < t + dayLt))
    (∃ u, exec (.scrubRead tier frame gran .clean now) s = .next u ∧ u.tiers.mem = s.tiers.mem ∧
      u.tiers.poison = s.tiers.poison ∧ u.flash = s.flash ∧ u.slots = s.slots) ∧
    (near.length < 15 →
      ∃ u, exec (.scrubRead tier frame gran .corrected now) s = .next u ∧ u.tiers.mem = s.tiers.mem ∧ u.flash = s.flash ∧
        tget [] u.tiers.errors (frameKey tier frame) = near ++ [u.time.lt]) ∧
    (15 ≤ near.length → s.entryAt tier frame = none → frameKey tier frame ∉ s.tiers.draining →
      ∃ u, exec (.scrubRead tier frame gran .corrected now) s = .next u ∧ frameKey tier frame ∈ u.flash.retiredFrames) ∧
    (systemFrames tier ≤ frame → s.entryAt tier frame = none → frameKey tier frame ∉ s.tiers.draining →
      ∃ u, exec (.scrubRead tier frame gran .uncorrected now) s = .next u ∧ frameKey tier frame ∈ u.flash.retiredFrames) ∧
    (∀ c, frame < systemFrames tier → c ∈ s.mapVictims frame gran →
      ∃ u, exec (.scrubRead tier frame gran .uncorrected now) s = .next u ∧ (u.slot c).state = .stopped))

/-! ## The network -/

/-- R313 to R315, R320: an arriving frame with a bad FCS, or larger than the MTU, is counted and does nothing else; a Bililjo packet that
passes the checks that come before its tag is queued on its flow where the tag is right and is a stranger where it is not; requests to a
port's own address are answered, and the gateways' addresses are kept. -/
def Obligations.FramesArrive : Prop :=
  (∀ (port : Fin 48) (frame : Frame) (now : Nat) (s : State), s.portUp port = true →
    (frame.good = false ∨ frameSize (s.port port).entry (portMtu (s.port port).entry) < frame.size) →
    ∃ u, exec (.ethFrameReceive port frame now) s = .next u ∧
      ({ s with time := u.time } : State).onlyLogged u) ∧
  (∀ (port : Fin 48) (frame : Frame) (now : Nat) (s : State) (key : Key),
    let h := Hdr.ofBits frame.hdr
    let fl := s.flow h.flow
    let e := (s.port port).entry
    s.portUp port = true → frame.good = true → frame.size ≤ frameSize e (portMtu e) → frame.kind = .udp →
    frame.dstMac.toNat = s.portMac port →
    portOwns e frame.dstIp.toNat = true → frame.plain = true → sumGood frame = true → frame.udpDst.toNat = portUdp e →
    frame.crc.toNat = crc32c (leBytes 48 frame.hdr.toNat ++ frame.body ++ leBytes 16 frame.tag.toNat) →
    h.version = 1 → 1 ≤ h.type → h.type ≤ 3 → h.reserved = false → flowDie h.flow = portDie port → (fl.state = 1 ∨ fl.state = 2) →
    frame.srcIp.toNat = fl.peerAddr → fl.rxKeys.find? (fun k => k.id == h.keyId) = some key →
    tget 0 fl.seen (h.keyId * 256 + h.path) ≤ h.txSeq → (h.type = 1 → psnGap h.psn fl.rcvNxt < 384 ∨ psnBelow h.psn fl.rcvNxt = true) →
    let plain := if h.type = 1 then Config.gcmOpen key.key (BitVec.ofNat 96 h.txSeq) frame.body else []
    let tag := Config.gcmTag key.key (BitVec.ofNat 96 h.txSeq)
      (if h.type = 2 then leBytes 48 frame.hdr.toNat ++ frame.body else leBytes 48 frame.hdr.toNat) plain
    (tag = frame.tag →
      ∃ u, exec (.ethFrameReceive port frame now) s = .next u ∧
        ({ s with time := u.time, flows := u.flows } : State).onlyLogged u ∧ (∀ f, f ≠ h.flow → u.flow f = s.flow f) ∧
        u.flow h.flow = { fl with
          rxq := fl.rxq ++ [{ hdr := frame.hdr, body := if h.type = 1 then plain else frame.body, ce := frame.ce }],
          seen := tset fl.seen (h.keyId * 256 + h.path) (h.txSeq + 1),
          heard := if h.type = 2 then u.time.lt else fl.heard }) ∧
    (tag ≠ frame.tag →
      ∃ u, exec (.ethFrameReceive port frame now) s = .next u ∧ ({ s with time := u.time } : State).onlyLogged u)) ∧
  (∀ (port : Fin 48) (mac : BitVec 48) (ip src dst : BitVec 128) (data : List Byte) (s : State),
    let e := (s.port port).entry
    let v4 := isV4 dst.toNat
    s.portUp port = true →
    (portOwns e ip.toNat = true →
      ∃ u fr, exec (.arpNdpRequest port mac ip) s = .next u ∧
        ({ s with txFrames := u.txFrames, ports := u.ports } : State).onlyLogged u ∧ u.txFrames = s.txFrames ++ [fr] ∧
        fr.port = port.val ∧ fr.dst = some mac.toNat ∧ fr.vlan = portVlan e ∧ fr.body = .arpReply mac.toNat ip.toNat) ∧
    (portOwns e dst.toNat = true → (if v4 then 20 else 40) + 8 + data.length ≤ portMtu e →
      ∃ u fr, exec (.icmpEchoRequest port src dst data) s = .next u ∧
        ({ s with txFrames := u.txFrames, ports := u.ports } : State).onlyLogged u ∧ u.txFrames = s.txFrames ++ [fr] ∧
        fr.port = port.val ∧ fr.vlan = portVlan e ∧ fr.body = .echoReply dst.toNat src.toNat data)) ∧
  (∀ (port : Fin 48) (mac : BitVec 48) (now : Nat) (s : State),
    let q := s.port port
    let v := s.advance now
    s.portUp port = true →
    (bit q.entry.toNat 111 = true → resolveDue v.time.lt q.gw6 = true →
      ∃ u, exec (.gatewayRefresh port mac now) s = .next u ∧ (u.port port).gw6 = some (mac.toNat, u.time.lt) ∧
        (u.port port).gw4 = q.gw4 ∧ (u.port port).entry = q.entry ∧ u.flows = s.flows) ∧
    ((bit q.entry.toNat 111 = false ∨ resolveDue v.time.lt q.gw6 = false) → bit q.entry.toNat 110 = true →
      resolveDue v.time.lt q.gw4 = true →
      ∃ u, exec (.gatewayRefresh port mac now) s = .next u ∧ (u.port port).gw4 = some (mac.toNat, u.time.lt) ∧
        (u.port port).gw6 = q.gw6 ∧ (u.port port).entry = q.entry ∧ u.flows = s.flows))

/-- R322, R324, R326 to R330: a flow takes the packet at the front of its queue. A `DATA` packet that is new is recorded and `RCV_NXT`
moves past what has come in order, a duplicate changes neither; an `ACK` takes the packets below its `ACK_PSN` off the books, and the
last of a `DRAINING` flow closes it; an `ACK` that is due, and may go, goes and clears what waited for it. -/
def Obligations.FlowsReceive : Prop :=
  ∀ (flow : Fin 262144) (now : Nat) (s : State) (h : Hdr) (r : RxPkt),
    let f := flow.val
    let fl := s.flow f
    (fl.front 1 = some (h, r) →
      let dup := psnBelow h.psn fl.rcvNxt || fl.rcvMap.contains h.psn
      let now' := h.ackNow || r.ce || (h.psn != fl.rcvNxt && !fl.rcvMap.contains (psnGap h.psn 1)) || dup ||
        decide (4 ≤ fl.unacked + 1)
      (∃ u, exec (.bililjoDataReceive flow now) s = .next u ∧ (∀ n, n ≠ f → u.flow n = s.flow n) ∧
        (u.flow f).rxq = fl.rxq.drop 1) ∧
      (dup = true →
        ∃ u, exec (.bililjoDataReceive flow now) s = .next u ∧ (u.flow f).rcvNxt = fl.rcvNxt ∧
          (u.flow f).rcvMap = fl.rcvMap ∧ (u.flow f).inbox = fl.inbox ∧ (u.flow f).delivered = fl.delivered) ∧
      (dup = false → h.psn = fl.rcvNxt → fl.rcvMap = [] →
        ∃ u, exec (.bililjoDataReceive flow now) s = .next u ∧ (u.flow f).rcvNxt = psnNext h.psn ∧ (u.flow f).rcvMap = []) ∧
      ((now' = false ∨ s.mayAck f h.path = false) →
        ∃ u, exec (.bililjoDataReceive flow now) s = .next u ∧ (u.flow f).unacked = fl.unacked + 1 ∧
          u.txFrames = s.txFrames) ∧
      (now' = true → s.mayAck f h.path = true → fl.txSeq < 2 ^ 48 →
        ∃ u fr, exec (.bililjoDataReceive flow now) s = .next u ∧ (u.flow f).unacked = 0 ∧ (u.flow f).ackFrom = none ∧
          u.txFrames = s.txFrames ++ [fr] ∧ fr.port = fl.pathPort f h.path ∧ (u.flow f).txSeq = fl.txSeq + 1)) ∧
    (fl.front 3 = some (h, r) →
      (h.ackNow = false →
        ∃ u, exec (.bililjoProbeReceive flow now) s = .next u ∧ (u.flow f).rxq = fl.rxq.drop 1 ∧ u.txFrames = s.txFrames) ∧
      (h.ackNow = true → s.mayAck f h.path = true → fl.txSeq < 2 ^ 48 →
        ∃ u fr, exec (.bililjoProbeReceive flow now) s = .next u ∧ (u.flow f).rxq = fl.rxq.drop 1 ∧
          u.txFrames = s.txFrames ++ [fr] ∧ fr.port = fl.pathPort f h.path)) ∧
    (fl.front 2 = some (h, r) →
      (∃ u, exec (.bililjoAckReceive flow now) s = .next u ∧ ∀ x ∈ (u.flow f).sent, psnBelow x.psn h.ackPsn = false) ∧
      (fl.state = 1 → ∃ u, exec (.bililjoAckReceive flow now) s = .next u ∧ (u.flow f).rxq = fl.rxq.drop 1) ∧
      (fl.state = 1 → psnBelow fl.sndUna h.ackPsn = true → psnBelow fl.sndNxt h.ackPsn = false →
        ∃ u, exec (.bililjoAckReceive flow now) s = .next u ∧ (u.flow f).sndUna = h.ackPsn) ∧
      (fl.state = 2 → (∀ x ∈ fl.sent, psnBelow x.psn h.ackPsn = true) → fl.nextOut = none →
        ∃ u, exec (.bililjoAckReceive flow now) s = .next u ∧ (u.flow f).state = 0)) ∧
    (∀ a, fl.ackFrom = some a → (fl.state = 1 ∨ fl.state = 2) → s.mayAck f fl.ackPath = true → fl.txSeq < 2 ^ 48 →
      ∃ u fr, exec (.ackDelayExpiry flow now) s = .next u ∧ (u.flow f).ackFrom = none ∧ (u.flow f).unacked = 0 ∧
        u.txFrames = s.txFrames ++ [fr] ∧ fr.port = fl.pathPort f fl.ackPath)

/-- R322, R324, R325, R327 to R330, R334: a flow with a window, a pace and a path sends the next packet of its oldest message, under the
next `PSN`, or retransmits one that was lost; a packet in flight for `RTO` is lost, and the eighth timeout in a row fails the flow; a
suspended path is probed after 1,000,000 lt, and is suspended again where no `ACK` answers within `RTO`. -/
def Obligations.FlowsSend : Prop :=
  ∀ (flow : Fin 262144) (path : Fin 256) (now : Nat) (s : State),
    let f := flow.val
    let fl := s.flow f
    let v := s.advance now
    (∀ m way, (fl.state = 1 ∨ fl.state = 2) → fl.txLive = true → fl.txKeys ≠ [] → fl.txSeq < 2 ^ 48 →
      (∀ x ∈ fl.sent, x.state ≠ 2) → fl.nextOut = some m → v.nextPath f fl.rotation = some way →
      64 * (fl.sent.filter (fun x => x.state == 0)).length < fl.cwnd → psnGap fl.sndNxt fl.sndUna < 384 → v.slotAllows f = true →
      v.paceAllows f = true →
      ∃ u x fr, exec (.bililjoDataSend flow now) s = .next u ∧ (u.flow f).sent = fl.sent ++ [x] ∧ x.psn = fl.sndNxt ∧
        x.msg = m.num ∧ x.off = m.off ∧ x.path = way ∧ x.state = 0 ∧ x.last = (m.off + x.len == m.data.length) ∧
        (u.flow f).sndNxt = psnNext fl.sndNxt ∧ (u.flow f).txSeq = fl.txSeq + 1 ∧
        u.txFrames = s.txFrames ++ [fr] ∧ fr.port = fl.pathPort f way) ∧
    (∀ x m way, (fl.state = 1 ∨ fl.state = 2) → fl.txLive = true → fl.txKeys ≠ [] → fl.txSeq < 2 ^ 48 →
      fl.sent.find? (fun x => x.state == 2) = some x → v.nextPath f (x.path + 1) = some way →
      fl.out.find? (fun m => m.num == x.msg) = some m →
      ∃ u fr, exec (.bililjoDataSend flow now) s = .next u ∧ (u.flow f).sndNxt = fl.sndNxt ∧
        { x with state := 0, path := way, lastLt := v.leaveLt (fl.pathPort f way) } ∈ (u.flow f).sent ∧
        u.txFrames = s.txFrames ++ [fr] ∧ fr.port = fl.pathPort f way) ∧
    (∀ x, (fl.state = 1 ∨ fl.state = 2) →
      fl.sent.find? (fun x => x.state == 0 && decide (x.lastLt + fl.rto ≤ v.time.lt)) = some x →
      ∃ u, exec (.rtoExpiry flow now) s = .next u ∧ { x with state := 2 } ∈ (u.flow f).sent ∧
        (u.flow f).rtoRun = fl.rtoRun + 1 ∧ (u.flow f).state = if fl.rtoRun + 1 = 8 then 3 else fl.state) ∧
    (∀ a, fl.suspended.find? (fun q => q.1 == path.val) = some (path.val, a) → path.val ∉ fl.probing → a + 1000000 ≤ v.time.lt →
      s.portUp (fl.pathPort f path) = true → (fl.state = 1 ∨ fl.state = 2) → fl.txLive = true → fl.txKeys ≠ [] →
      fl.txSeq < 2 ^ 48 →
      ∃ u fr, exec (.pathSuspendExpiry flow path now) s = .next u ∧ path.val ∈ (u.flow f).probing ∧
        u.txFrames = s.txFrames ++ [fr] ∧ fr.port = fl.pathPort f path) ∧
    (∀ a, fl.suspended.find? (fun q => q.1 == path.val) = some (path.val, a) → path.val ∈ fl.probing →
      a + fl.rto ≤ v.time.lt →
      ∃ u, exec (.pathProbeTimeout flow path now) s = .next u ∧ path.val ∉ (u.flow f).probing ∧
        (path.val, u.time.lt) ∈ (u.flow f).suspended ∧ u.txFrames = s.txFrames)

/-- R312, R322, R323, R328, R334, R335, R480: a port that has lost its lock is down, and rejoins once it has held it; a slot window opens
and closes at its times, or is ignored for the time state; the send key whose activation has come takes over and `TX_SEQ` restarts, and
an older receive key goes with what was accepted under it; a `DRAINING` flow closes; a cage trains; and a module in a cage that draws
more than 18 W, or leaves, takes its ports down. -/
def Obligations.PortsAndKeys : Prop :=
  (∀ (port : Fin 48) (now : Nat) (s : State),
    ((s.port port).lock = true →
      ∃ u, exec (.portLockLoss port now) s = .next u ∧ (u.port port).lock = false ∧
        (u.port port).entry = (s.port port).entry ∧ u.stations = s.stations) ∧
    ((s.port port).lock = false → s.portExists port = true → (s.cage (portCage port)).trained = true →
      ∃ u, exec (.portRejoin port now) s = .next u ∧ (u.port port).lock = true ∧ (u.port port).lockAt = u.time.lt)) ∧
  (∀ (flow : Fin 262144) (i now : Nat) (s : State),
    let f := flow.val
    let v := s.advance now
    (∀ a b, (v.windows f).find? (fun w => w.1 == i) = some (i, a, b) → a ≤ v.time.lt → v.time.lt < b → (s.flow f).window ≠ some i →
      (s.flow f).ignored ≠ some a →
      (s.timed = true → ∃ u, exec (.slotWindowOpen flow i now) s = .next u ∧
        u = { s with time := u.time, flows := u.flows } ∧ u.flow f = { s.flow f with window := some i }) ∧
      (s.timed = false → ∃ u, exec (.slotWindowOpen flow i now) s = .next u ∧
        ({ s with time := u.time, flows := u.flows } : State).onlyLogged u ∧ u.flow f = { s.flow f with ignored := some a })) ∧
    ((s.flow f).window = some i → (∀ w ∈ v.windows f, w.1 = i → w.2.2 ≤ v.time.lt) →
      ∃ u, exec (.slotWindowClose flow i now) s = .next u ∧ u.flow f = { s.flow f with window := none })) ∧
  (∀ (flow : Fin 262144) (now : Nat) (s : State) (x y : Key) (rest : List Key),
    let f := flow.val
    let fl := s.flow f
    (fl.nextKey = some x → x.since ≤ (s.advance now).time.lt →
      ∃ u, exec (.keyActivate flow now) s = .next u ∧ u = { s with time := u.time, flows := u.flows } ∧
        u.flow f = { fl with
          txKeys := x :: (if fl.txLive then fl.txKeys.drop 1 else fl.txKeys).filter (fun k => k.id != x.id),
          txLive := true, keyIdTx := x.id, txSeq := 0 }) ∧
    (fl.rxKeys = x :: y :: rest → y.since + 10000000 ≤ (s.advance now).time.lt →
      ∃ u, exec (.keyWithdraw flow now) s = .next u ∧ u = { s with time := u.time, flows := u.flows } ∧
        u.flow f = { fl with rxKeys := y :: rest, seen := fl.seen.filter (fun q => q.1 / 256 != x.id) }) ∧
    (fl.state = 2 → (fl.drainedOut = true ∨ fl.drainFrom + 100000000 ≤ (s.advance now).time.lt) →
      ∃ u, exec (.flowDrainTimeout flow now) s = .next u ∧ u = { s with time := u.time, flows := u.flows } ∧
        u.flow f = Flow.init)) ∧
  (∀ (cage : Fin 12) (watts now : Nat) (s : State),
    ((s.cage cage).mode ≠ none → (s.cage cage).trained = false → (∀ w, (s.cage cage).watts = some w → w ≤ 18) →
      ∃ u, exec (.cageTrainComplete cage now) s = .next u ∧ (u.cage cage).trained = true ∧
        (∀ p ∈ s.cagePorts cage, (u.port p).lock = true)) ∧
    ((s.cage cage).mode ≠ none → (s.cage cage).trained = false → (∀ w, (s.cage cage).watts = some w → w ≤ 18) →
      (∀ i < 12, i ≠ cage.val → (s.cage i).trained = true) →
      ∃ u, exec (.cageTrainComplete cage now) s = .next u ∧
        ∀ q < 9, ∀ x ∈ (u.queue q).cmds, ¬(x.accepted = true ∧ x.opcode = 0x0B)) ∧
    (18 < watts →
      ∃ u, exec (.osfpInsert cage watts now) s = .next u ∧ (u.cage cage).watts = some watts ∧
        (u.cage cage).trained = false ∧ ∀ p ∈ s.cagePorts cage, (u.port p).lock = false) ∧
    (watts ≤ 18 →
      ∃ u, exec (.osfpInsert cage watts now) s = .next u ∧ (u.cage cage).watts = some watts ∧
        (u.cage cage).trained = (s.cage cage).trained ∧ u.ports = s.ports) ∧
    (∃ u, exec (.osfpRemove cage now) s = .next u ∧ (u.cage cage).watts = none ∧
      ∀ p ∈ s.cagePorts cage, (u.port p).lock = false))

/-! ## Line time -/

/-- R140 to R145, R315: a measurement from the source in use moves `TIME_STATE` by R140's rules, and is recorded; a lost source takes
LOCKED to HOLDOVER, or the secondary port takes over; HOLDOVER ends in LOST; an edge of the reference measures against the second that
it marks; and a Station takes up what its copy differs by. The rate of the correction is a free value within R143's bound, and which
message makes a measurement is the model's choice: notes/assumptions/6.md and 30.md. -/
def Obligations.LineTimeStates : Prop :=
  (∀ (port : Fin 48) (dom transport : Nat) (msg : PtpMsg) (now : Nat) (s : State) (m : Int),
    let o := m + s.portAsym port
    s.portUp port = true → s.time.accepts port dom transport msg = true → s.time.measured port msg = some m →
    (port.val = s.time.port →
      (∃ u, exec (.ptpMessageReceive port ⟨dom, transport⟩ msg now) s = .next u ∧ u.time.offset = o ∧
        (-100 ≤ u.time.slewPpm ∧ u.time.slewPpm ≤ 100)) ∧
      (s.time.state = .free →
        ∃ u, exec (.ptpMessageReceive port ⟨dom, transport⟩ msg now) s = .next u ∧ u.time.state = .free) ∧
      (s.time.state = .acquiring → within o 10 = true → s.time.goodRun < 15 →
        ∃ u, exec (.ptpMessageReceive port ⟨dom, transport⟩ msg now) s = .next u ∧ u.time.state = .acquiring ∧
          u.time.goodRun = s.time.goodRun + 1) ∧
      (s.time.state = .acquiring → within o 10 = true → 15 ≤ s.time.goodRun →
        ∃ u, exec (.ptpMessageReceive port ⟨dom, transport⟩ msg now) s = .next u ∧ u.time.state = .locked) ∧
      (s.time.state = .acquiring → within o 10 = false →
        ∃ u, exec (.ptpMessageReceive port ⟨dom, transport⟩ msg now) s = .next u ∧ u.time.state = .acquiring ∧
          u.time.goodRun = 0) ∧
      (s.time.state = .locked →
        ∃ u, exec (.ptpMessageReceive port ⟨dom, transport⟩ msg now) s = .next u ∧
          u.time.state = if within o 100 then .locked else .lost) ∧
      ((s.time.state = .holdover ∨ s.time.state = .lost) →
        ∃ u, exec (.ptpMessageReceive port ⟨dom, transport⟩ msg now) s = .next u ∧ u.time.state = .acquiring)) ∧
    (port.val ≠ s.time.port →
      ∃ u, exec (.ptpMessageReceive port ⟨dom, transport⟩ msg now) s = .next u ∧ u.time.state = s.time.state ∧
        u.time.secGood = within o 10 ∧ u.time.offset = s.time.offset)) ∧
  (∀ (port : Fin 48) (dom transport : Nat) (msg : PtpMsg) (now : Nat) (s : State), s.portUp port = true →
    (s.time.accepts port dom transport msg = true → s.time.measured port msg = none →
      ∃ u, exec (.ptpMessageReceive port ⟨dom, transport⟩ msg now) s = .next u ∧ u.time.state = s.time.state ∧
        u.time.offset = s.time.offset ∧ u.time.goodRun = s.time.goodRun) ∧
    (s.time.accepts port dom transport msg = false →
      ∃ u, exec (.ptpMessageReceive port ⟨dom, transport⟩ msg now) s = .next u ∧ ({ s with time := u.time } : State).onlyLogged u ∧
        u.time = (s.advance now).time)) ∧
  (∀ (now : Nat) (s : State),
    let v := s.advance now
    let handsOver := !s.time.onSecondary && s.time.secondary != 0xFF && s.time.secGood
    (s.time.source = 1 → s.portUp s.time.port = true →
      ∃ u fr, exec (.ptpDelayReqSend now) s = .next u ∧ u.txFrames = s.txFrames ++ [fr] ∧ fr.port = s.time.port ∧
        fr.body = .delayReq ∧ u.time.state = s.time.state) ∧
    (s.time.source = 1 → s.time.syncLt + 3 * s.time.syncInterval ≤ v.time.lt → handsOver = true →
      ∃ u, exec (.ptpSyncLoss now) s = .next u ∧ u.time.onSecondary = true ∧ u.time.state = s.time.state) ∧
    (s.time.source = 1 → s.time.syncLt + 3 * s.time.syncInterval ≤ v.time.lt → handsOver = false →
      ∃ u, exec (.ptpSyncLoss now) s = .next u ∧
        u.time.state = (if s.time.state = .locked then .holdover else s.time.state)) ∧
    (s.time.source = 2 →
      ∃ u, exec (.referenceLoss now) s = .next u ∧
        u.time.state = (if s.time.state = .locked then .holdover else s.time.state)) ∧
    (s.time.state = .holdover → s.time.holdoverFrom + 1000000 * s.time.holdoverMs ≤ v.time.lt →
      (∃ u, exec (.holdoverExpire now) s = .next u ∧ u.time.state = .lost) ∧
      ((s.ctr .timeLostEvents 0).value + 1 < Ctr.timeLostEvents.top →
        ∃ u, exec (.holdoverExpire now) s = .next u ∧
          (u.ctr .timeLostEvents 0).value = (s.ctr .timeLostEvents 0).value + 1)) ∧
    (∀ sub : Fin 4, s.time.source = 2 →
      let at4 := 4 * v.time.lt + sub.val
      ∃ u, exec (.ppsEdge sub now) s = .next u ∧ u.time.ppsLt = s.time.secondMark at4 / 4 + 10 ^ 9 ∧
        u.time.offset = (at4 : Int) - s.time.secondMark at4) ∧
    (∀ (p : Fin 136) err sc, s.timeRuns = true → p.val ∉ s.flash.retired →
      (tget { err := 0, since := 0 } s.time.copies p).since + 1024 ≤ max (s.cycle p) sc →
      ∃ u, exec (.lineTimeCorrect p ⟨err, sc⟩) s = .next u ∧
        u = { s.advanceSc p sc with
          time := { s.time with copies := tset s.time.copies p { err := -err, since := max (s.cycle p) sc } } }))

/-! ## Collectives, the Right-away and the Depot -/

/-- R324, R346, R347, R351, R354, R356, R358, R363, R365, R366: a delivered collective message is taken off its flow, and is discarded
where it is no message of this job; a contribution that is on time is kept; a close of stage 1 gives the group sum of what was on time,
and a close of stage 2 completes the log; the Update Engine takes its units in order, and a program that breaks the rules stops the
context; a Right-away that is decided writes the commit record, and moves the count of commits only where the result is commit. -/
def Obligations.CollectiveEvents : Prop :=
  (∀ (flow : Fin 262144) (now : Nat) (s : State) (m : InMsg) (rest : List InMsg), (s.flow flow).delivered = m :: rest →
    let v := s.advance now
    let h := CollHdr.ofNat (leAt m.data 0 64)
    (∃ u, exec (.collMessageDeliver flow now) s = .next u ∧ (u.flow flow).delivered = rest) ∧
    (s.job = none ∨ m.data.length < 64 ∨ h.sender ≠ (s.flow flow).peerRank ∨ h.stage = 6 ∨ h.stage = 7 →
      ∃ u, exec (.collMessageDeliver flow now) s = .next u ∧ ({ v with flows := u.flows } : State).onlyLogged u ∧
        ∀ f, f ≠ flow.val → u.flow f = s.flow f) ∧
    (∀ c img b, s.job = some (c, img, b) → 64 ≤ m.data.length → hdrForm (leAt m.data 0 64) = true →
      h.sender = (s.flow flow).peerRank → flow.val ∈ b.flows → h.stage = 0 →
      let d := img.coll h.coll
      let w := img.unit h.unit
      h.fits img (fun q => chunkBytes h.wire h.comp d.topk (w.chunkLen q)) (m.data.length - 64) = true → d.kind ≠ 1 → h.wire = d.wire →
      h.comp = d.comp → w.groupOwner b.g b.jobRank = b.jobRank → h.sender / b.g = b.jobRank / b.g → w.heldBy b.g h.sender = true →
      h.sender ≠ b.jobRank → d.sect ∉ s.coll.cut → h.epoch = s.stepEpoch c →
      v.mayClose c img b h.coll h.unit 0 = false →
      (∀ x ∈ s.coll.late, x.same h.epoch h.coll h.unit 0 h.sender = false) → (∀ q ∈ s.coll.groupSums, q.1 ≠ h.unit) →
      (∀ x ∈ s.coll.arrivals, x.same h.epoch h.coll h.unit 0 h.sender = true → ∀ i < h.nchunk, h.chunk + i ∉ x.got) →
      ∃ u x, exec (.collMessageDeliver flow now) s = .next u ∧ x ∈ u.coll.arrivals ∧
        x.same h.epoch h.coll h.unit 0 h.sender = true ∧ ∀ i < h.nchunk, h.chunk + i ∈ x.got)) ∧
  (∀ (coll unit : Nat) (stage : Fin 2) (now : Nat) (s : State) (c : Nat) (img : Image) (b : Binding), s.job = some (c, img, b) →
    let v := s.advance now
    let w := img.unit unit
    let cs := ((b.group b.jobRank).filter (w.heldBy b.g)).map
      (fun r => s.coll.arrivals.find? (fun x => x.same (s.stepEpoch c) coll unit 0 r && x.full w))
    v.mayClose c img b coll unit stage = true →
    (stage = 1 →
      ∃ u, exec (.stageClose coll unit stage now) s = .next u ∧ unit ∈ u.coll.logged ∧ u.coll.groupSums = s.coll.groupSums) ∧
    (stage = 0 →
      ∃ u g, exec (.stageClose coll unit stage now) s = .next u ∧ (unit, g) ∈ u.coll.groupSums ∧ g.codes.length = w.size) ∧
    (stage = 0 → s.coll.folds = [] →
      ∃ u g, exec (.stageClose coll unit stage now) s = .next u ∧ (unit, g) ∈ u.coll.groupSums ∧
        ∀ i < w.size, g.codes.getD i 0 = accCode .acc48 (closedSum (onTimeVals cs i) []))) ∧
  (∀ (die : Fin 2) (errs : List ObjError) (upset : Bool) (now : Nat) (s : State) (c : Nat) (img : Image) (b : Binding) (j : UeJob)
      (rest : List UeJob),
    let v := s.advance now
    s.job = some (c, img, b) → die.val ∉ s.power.dieStopped → (s.engine die).queue = j :: rest →
    (v.jobProgram c img j = none → s.runSlot = some c →
      ∃ u, exec (.ueUnitRun die ⟨errs, upset, now⟩) s = .next u ∧ (u.engine die).queue = rest ∧ v.stoppedBy u c 1 3) ∧
    (∀ items, v.jobProgram c img j = some items → v.jobOver die c img j items = false →
      exec (.ueUnitRun die ⟨errs, upset, now⟩) s = .next v) ∧
    (∀ items, v.jobProgram c img j = some items → v.jobOver die c img j items = true → errs = [] → (s.slot c).state ≠ .stopped →
      (j.rank = none →
        ∃ u, exec (.ueUnitRun die ⟨errs, upset, now⟩) s = .next u ∧ (u.engine die).queue = rest ∧ j.unit ∈ u.coll.updated) ∧
      (∀ r log, j.rank = some r → (s.shard r).logs.find? (fun l => l.unit == j.unit) = some log →
        ∃ u, exec (.ueUnitRun die ⟨errs, upset, now⟩) s = .next u ∧ (u.engine die).queue = rest ∧ j.unit ∈ (u.shard r).updated))) ∧
  (∀ (now : Nat) (s : State) (c : Nat) (img : Image) (b : Binding) (r : VoteRec), s.power.compStopped = false →
    s.resultReady = some (c, img, b, r) →
    let e := s.stepEpoch c
    let done := fun (u : State) => (u.slot c).state = (s.slot c).state ∧ (u.slot c).step.raIssued = none ∧
      (u.slot c).step.collIssued = [] ∧ (u.slot c).step.bad = false ∧ (u.slot c).step.pushed = [] ∧ u.coll.arrivals = [] ∧
      u.coll.groupSums = [] ∧ u.coll.result = none ∧ (∀ n, n ≠ c → u.slot n = s.slot n) ∧
      (∀ k, k ≠ 0 → (u.station k).store = (s.station k).store) ∧
      ∀ j i n p, (s.slot c).step.raIssued = some (j, i, n) → (s.station 0).prog { line := j, index := i, uid := n } = some p →
        (∀ a < 64, memRead (u.station 0).store (64 * rightAwayAddr p.word + a) = (leBytes 64 (r.word e)).getD a 0) ∧
        ∀ a, a < 64 * rightAwayAddr p.word ∨ 64 * rightAwayAddr p.word + 64 ≤ a →
          memRead (u.station 0).store a = memRead (s.station 0).store a
    (r.result = 0 →
      ∃ u, exec (.rightAwayCommit now) s = .next u ∧ done u ∧ (u.slot c).step.committed = e) ∧
    (r.result = 0 → (s.ctr .raCommits 0).value + 1 < Ctr.raCommits.top →
      ∃ u, exec (.rightAwayCommit now) s = .next u ∧ (u.ctr .raCommits 0).value = (s.ctr .raCommits 0).value + 1) ∧
    (r.result ≠ 0 →
      ∃ u, exec (.rightAwayReject now) s = .next u ∧ done u ∧ (u.slot c).step.committed = (s.slot c).step.committed ∧
        (u.slot c).step.dirty = (s.slot c).step.pushed ++ (s.slot c).step.dirty) ∧
    (r.result ≠ 0 → (s.ctr .raRejects 0).value + 1 < Ctr.raRejects.top →
      ∃ u, exec (.rightAwayReject now) s = .next u ∧ (u.ctr .raRejects 0).value = (s.ctr .raRejects 0).value + 1))

/-- R408, R413 to R415, R417, R419, R420: a Depot message is taken off its flow; a page for a shard that this member holds is staged or
kept, unless it exceeds the declared size; a replica is seeded page by page and is `CURRENT` once every page is acknowledged; a request
that the first holder does not answer goes to the next, or ends; a silent peer is probed, and one that stays silent is lost, with the
replica that it holds. The format of a Depot message is an operand: notes/assumptions/19.md. -/
def Obligations.DepotEvents : Prop :=
  (∀ (rank : Nat) (msg : DepotMsg) (now : Nat) (s : State) (c f : Nat) (img : Image) (b : Binding),
    let v := s.advance now
    v.depotJob (fun _ b _ => b.flows.any (fun f => (v.flow f).peerRank == rank && (v.flow f).delivered != [])) = some (c, img, b) →
    b.flows.find? (fun f => (v.flow f).peerRank == rank && (v.flow f).delivered != []) = some f →
    let sh := (v.withSlot c).shard rank
    (∃ u, exec (.depotMessageReceive rank msg now) s = .next u ∧ (u.flow f).delivered = (s.flow f).delivered.drop 1) ∧
    (∀ i size, b.ward rank = some (i, size) → sh.lost = false →
      (msg = .seedEnd →
        ∃ u, exec (.depotMessageReceive rank msg now) s = .next u ∧ ((u.withSlot c).shard rank).ready = true ∧
          ((u.withSlot c).shard rank).pages = sh.pages) ∧
      (∀ o p data, msg = .classP o p data → sh.used img < size →
        ∃ u, exec (.depotMessageReceive rank msg now) s = .next u ∧ ((u.withSlot c).shard rank).pages = sh.pages ∧
          ∃ x ∈ ((u.withSlot c).shard rank).staged, x.object = o ∧ x.page = p ∧ x.data = data) ∧
      (∀ o p e data, msg = .shard o p e data → sh.used img < size →
        ∃ u, exec (.depotMessageReceive rank msg now) s = .next u ∧ ((u.withSlot c).shard rank).staged = sh.staged ∧
          ∃ x ∈ ((u.withSlot c).shard rank).pages, x.object = o ∧ x.page = p ∧ x.epoch = e ∧ x.data = data) ∧
      (∀ o p data, msg = .classP o p data → size ≤ sh.used img → (∀ x ∈ sh.staged, x.object = o → x.page ≠ p) →
        ∃ u, exec (.depotMessageReceive rank msg now) s = .next u ∧ ((u.withSlot c).shard rank).lost = true))) ∧
  (∀ (replica : Fin 2) (now : Nat) (s : State) (c f : Nat) (img : Image) (b : Binding),
    let v := s.advance now
    let i := replica.val + 1
    v.depotJob (fun _ _ l => tget .absent l.replicas i == .seeding) = some (c, img, b) → i ≤ b.rho →
    s.flowTo b (b.holder i) = some f →
    (∀ q, q ∈ shardPages img b → q ∉ tget [] (v.withSlot c).coll.seeded i →
      ∃ u, exec (.depotSeed replica (some q) now) s = .next u ∧ q ∈ tget [] (u.withSlot c).coll.seeded i ∧
        (u.flow f).out.length = (s.flow f).out.length + 1 ∧ tget .absent (u.withSlot c).coll.replicas i = .seeding) ∧
    ((∀ q ∈ shardPages img b, q ∈ tget [] (v.withSlot c).coll.seeded i) →
      (∀ q ∈ (v.withSlot c).coll.depotPending, q.1 = i → (v.withSlot c).acked q.2.1 q.2.2 = true) →
      ∃ u, exec (.depotSeed replica none now) s = .next u ∧ tget .absent (u.withSlot c).coll.replicas i = .current)) ∧
  (∀ (now : Nat) (s : State) (c : Nat) (img : Image) (b : Binding) (a : Ask),
    let v := s.advance now
    v.depotJob (fun _ _ l => l.asked.isSome) = some (c, img, b) → (v.withSlot c).coll.asked = some a →
    a.since + b.peerLt ≤ v.time.lt →
    (∀ i, (if a.purpose = 1 then (if a.holder < b.rho then some (a.holder + 1) else none)
           else (v.withSlot c).currentFrom b (a.holder + 1)) = some i →
      ∃ u, exec (.holderAnswerTimeout now) s = .next u ∧
        (u.withSlot c).coll.asked = some { purpose := a.purpose, holder := i, since := v.time.lt }) ∧
    (a.purpose = 1 → b.rho ≤ a.holder →
      ∃ u, exec (.holderAnswerTimeout now) s = .next u ∧ (u.slot c).state = .bound ∧ (u.slot c).run = none ∧
        (u.withSlot c).coll.asked = none) ∧
    (a.purpose = 0 → (v.withSlot c).currentFrom b (a.holder + 1) = none → (s.slot c).state = .recovering →
      ∃ u, exec (.holderAnswerTimeout now) s = .next u ∧ (u.slot c).state = .stopped)) ∧
  (∀ (rank now : Nat) (s : State) (c : Nat) (img : Image) (b : Binding),
    let v := s.advance now
    (∀ f p, v.depotJob (fun _ b _ => b.probed.contains rank &&
        (match v.flowTo b rank with | some f => (v.flow f).state == 1 | none => false)) = some (c, img, b) →
      s.flowTo b rank = some f → (s.flow f).txLive = true → (s.flow f).txKeys ≠ [] → (s.flow f).txSeq < 2 ^ 48 →
      v.nextPath f (s.flow f).rotation = some p →
      ∃ u fr, exec (.peerProbe rank now) s = .next u ∧ (u.flow f).txSeq = (s.flow f).txSeq + 1 ∧
        u.txFrames = s.txFrames ++ [fr] ∧ fr.port = (s.flow f).pathPort f p ∧ ∃ q ∈ (u.withSlot c).coll.probedAt, q.1 = rank) ∧
    (v.depotJob (fun _ b l => !l.lostPeers.contains rank && v.peerGone b l rank) = some (c, img, b) →
      ∃ u, exec (.peerLost rank now) s = .next u ∧ rank ∈ (u.withSlot c).coll.lostPeers ∧
        (∀ i ∈ b.replicaIx, b.holder i = rank → tget .absent (v.withSlot c).coll.replicas i ≠ .absent →
          tget .absent (u.withSlot c).coll.replicas i = .lost)) ∧
    (v.depotJob (fun _ b l => !l.lostPeers.contains rank && v.peerGone b l rank) = some (c, img, b) →
      (s.ctr .peerLost 0).value + 1 < Ctr.peerLost.top →
      ∃ u, exec (.peerLost rank now) s = .next u ∧ (u.ctr .peerLost 0).value = (s.ctr .peerLost 0).value + 1))

/-! ## Power, clocks and temperature -/

/-- R378, R379, R381 to R390: the limit loops move their own ceiling by the steps that the window calls for, at the ends of their windows; a region's
clock is stretched, at most twice in 16 periods, and a refused stretch drops the fast ceiling by a step; a margin that stays low earns
its Sector +5 mV for 10 ms, and age earns lifetime trims, then a lower top operating point. A ceiling that does not limit stands at
`F_MAX`: the model's choice, notes/assumptions/20.md. -/
def Obligations.LimitLoops : Prop :=
  ∀ (now : Nat) (s : State),
    let v := s.advance now
    let p := s.power
    let moved := fun (u : State) => ({ v with power := u.power } : State).onlyLogged u
    (s.power.compStopped = false →
      (∀ avg surge, v.windowEnds 2000 = true →
        (1100 * p.capW < avg ∨ surge = true →
          ∃ u, exec (.fastLimitWindow avg surge now) s = .next u ∧ moved u ∧ u.power.fastOn = true ∧
            u.power.fastCeil = max 800 (min p.fastCeil p.fMax - 200) ∧ u.power.fSet = min p.fSet u.power.fastCeil ∧
            u.power.capCeil = p.capCeil ∧ u.power.thermCeil = p.thermCeil ∧ u.power.avgFast = avg) ∧
        ((1100 * p.capW < avg ∨ surge = true) → 800 < p.fMax →
          ∃ u, exec (.fastLimitWindow avg surge now) s = .next u ∧ u.power.tight = true) ∧
        (avg ≤ 1100 * p.capW → surge = false →
          ∃ u, exec (.fastLimitWindow avg surge now) s = .next u ∧
            u = { v with power := { p with avgFast := avg, fastOn := false } })) ∧
      (∀ avg, v.timeRuns = true → (if v.windowEnds 2000 then avg else p.avgFast) ≤ 1000 * p.capW → p.fastCeil < p.fMax → p.fastRose + 10000 ≤ v.time.lt →
        ∃ u, exec (.fastCeilingRise avg now) s = .next u ∧ moved u ∧ u.power.fastRose = v.time.lt ∧ u.power.fSet = p.fSet ∧
          u.power.fastCeil = (if p.fMax ≤ p.fastCeil + 50 then max p.fastCeil 2000 else p.fastCeil + 50)) ∧
      (∀ (region : Fin 152) margin0 period, v.timeRuns = true → region.val ∉ s.flash.retired →
        let recent := (tget [] p.stretches region).filter (fun q => decide (period < q + 16))
        (recent.length ≤ 1 →
          ∃ u, exec (.clockStretchRequest region margin0 period now) s = .next u ∧ moved u ∧
            tget [] u.power.stretches region = recent ++ [period] ∧ u.power.fastCeil = p.fastCeil ∧ u.power.fSet = p.fSet) ∧
        (2 ≤ recent.length →
          ∃ u, exec (.clockStretchRequest region margin0 period now) s = .next u ∧ moved u ∧ u.power.stretches = p.stretches ∧
            u.power.fastCeil = max 800 (min p.fastCeil p.fMax - 50) ∧ u.power.fSet = min p.fSet u.power.fastCeil)) ∧
      (∀ q : Fin 136, v.timeRuns = true → q.val ∉ s.flash.retired →
        ∃ u, exec (.marginWarn q now) s = .next u ∧ moved u ∧
          v.time.lt + 10000000 ∈ tget [] u.power.tempTrims (q / 17) ∧
          (tget [] u.power.tempTrims (q / 17)).length = (if (tget [] p.tempTrims (q / 17)).length < 4 then
            (tget [] p.tempTrims (q / 17)).length + 1 else (tget [] p.tempTrims (q / 17)).length) ∧
          (∀ x, x ≠ q / 17 → tget [] u.power.tempTrims x = tget [] p.tempTrims x) ∧ u.power.fSet = p.fSet)) ∧
    (∀ avg rail island comp joules, v.windowEnds 50000 = true →
      (∃ u, exec (.capWindow avg rail island comp joules now) s = .next u ∧ moved u ∧ u.power.fSet = p.fSet ∧
        u.power.lastAvg = avg ∧ u.power.sumMs = p.sumMs + avg ∧ u.power.energyPrev = p.energyWin ∧ u.power.energyWin = 0 ∧
        u.power.qBase = (avg - rail - island + 7999) / 8000 ∧ u.power.qComp = (comp + 7999) / 8000) ∧
      (1000 * p.capW < avg →
        ∃ u, exec (.capWindow avg rail island comp joules now) s = .next u ∧
          u.power.capCeil = max 800 (min p.capCeil p.fMax - 50 * ((avg - 1000 * p.capW + 109999) / 110000)) ∧
          u.power.admTarget ≤ max 8 p.admTarget) ∧
      (avg ≤ 1000 * p.capW → 950 * p.capW ≤ avg →
        ∃ u, exec (.capWindow avg rail island comp joules now) s = .next u ∧ u.power.capCeil = p.capCeil ∧
          u.power.admTarget = p.admTarget) ∧
      (avg < 950 * p.capW → p.admTarget < 16 →
        ∃ u, exec (.capWindow avg rail island comp joules now) s = .next u ∧ u.power.capCeil = p.capCeil ∧
          u.power.admTarget = p.admTarget + 1) ∧
      (avg < 950 * p.capW → 16 ≤ p.admTarget →
        ∃ u, exec (.capWindow avg rail island comp joules now) s = .next u ∧ u.power.admTarget = p.admTarget ∧
          u.power.capCeil = (if p.energyPrev + 2500 * p.capW < p.energyWin ∨ p.fMax ≤ p.capCeil then p.capCeil
            else if p.fMax ≤ p.capCeil + 50 then max p.capCeil 2000 else p.capCeil + 50))) ∧
    (v.windowEnds 1000000 = true →
      ∃ u, exec (.thermalWindow now) s = .next u ∧ moved u ∧ u.power.fSet = p.fSet ∧ u.power.avgMs = p.sumMs / 20 ∧
        u.power.sumMs = 0 ∧
        u.power.thermCeil = (if 824 ≤ p.hottest then max 800 (min p.thermCeil p.fMax - 200)
          else if 800 ≤ p.hottest then max 800 (min p.thermCeil p.fMax - 50)
          else if 776 < p.hottest then p.thermCeil
          else if p.fMax ≤ p.thermCeil then p.thermCeil
          else if p.fMax ≤ p.thermCeil + 50 then max p.thermCeil 2000 else p.thermCeil + 50)) ∧
    (∀ sector : Fin 8,
      ∃ u, exec (.trimLapse sector now) s = .next u ∧ u = { v with power := { p with tempTrims := u.power.tempTrims } } ∧
        tget [] u.power.tempTrims sector = (tget [] p.tempTrims sector).filter (fun t => decide (v.time.lt < t)) ∧
        ∀ x, x ≠ sector.val → tget [] u.power.tempTrims x = tget [] p.tempTrims x) ∧
    (∀ (sector : Fin 8) steps,
      let fresh := steps - tget 0 s.flash.slowdown sector
      let room := 16 - tget 0 s.flash.lifeTrim sector
      ∃ u, exec (.ageingMeasure sector steps now) s = .next u ∧
        ({ v with power := u.power, flash := u.flash } : State).onlyLogged u ∧
        tget 0 u.flash.lifeTrim sector = tget 0 s.flash.lifeTrim sector + min fresh room ∧
        u.flash.topOpMhz = max 800 (s.flash.topOpMhz - 50 * (fresh - room)) ∧ u.power.fMax = min p.fMax u.flash.topOpMhz ∧
        u.power.fSet = p.fSet)

/-- R377, R378, R390, R391, R393, R394, R396 to R399: the ramp meter grants the first waiting change whose schedule is free: an
operating-point step, an admission step, then a Station change, and the next in that direction waits for its cost; a Station that has
been idle asks to fall, and a quiet one that has work asks to rise; a point outside its range fails; and a point at or above its limit,
or a power fault, stops the module with every running context. -/
def Obligations.MeterAndStops : Prop :=
  ∀ (now : Nat) (s : State),
    let v := s.advance now
    let p := s.power
    let lt := v.time.lt
    (s.power.compStopped = false → s.startup.phase = .up →
      (p.voltMhz ≤ p.fSet → p.lowest < p.fSet → p.meterDown ≤ lt →
        ∃ u, exec (.rampMeterGrant now) s = .next u ∧ ({ v with power := u.power } : State).onlyLogged u ∧
          u.power = { p with fSet := p.fSet - 50, voltMhz := p.fSet - 50, meterDown := lt + p.meterWait 110 }) ∧
      (p.voltMhz ≤ p.fSet → p.fSet < p.lowest → p.meterUp ≤ lt →
        ∃ u, exec (.rampMeterGrant now) s = .next u ∧
          u = { v with power := { p with voltMhz := p.fSet + 50, voltAt := lt, meterUp := lt + p.meterWait 110 } }) ∧
      (p.fSet < p.voltMhz → p.voltMhz ≤ p.lowest → p.voltAt + 1000 ≤ lt →
        ∃ u, exec (.rampMeterGrant now) s = .next u ∧ ({ v with power := u.power } : State).onlyLogged u ∧
          u.power = { p with fSet := p.voltMhz }) ∧
      (p.fSet < p.voltMhz → p.lowest < p.voltMhz →
        ∃ u, exec (.rampMeterGrant now) s = .next u ∧ u = { v with power := { p with voltMhz := p.fSet } }) ∧
      (p.voltMhz ≤ p.fSet → p.lowest = p.fSet → p.admTarget < p.admission → p.meterDown ≤ lt →
        ∃ u, exec (.rampMeterGrant now) s = .next u ∧
          u = { v with power := { p with admission := p.admission - 1, meterDown := lt + p.meterWait 20 } }) ∧
      (p.voltMhz ≤ p.fSet → p.lowest = p.fSet → p.admission < p.admTarget → p.meterUp ≤ lt →
        ∃ u, exec (.rampMeterGrant now) s = .next u ∧
          u = { v with power := { p with admission := p.admission + 1, meterUp := lt + p.meterWait 20 } }) ∧
      (∀ r rest, p.voltMhz ≤ p.fSet → p.lowest = p.fSet → p.admission = p.admTarget → p.meterQ = r :: rest → r ∉ rest →
        (if r.rise then p.meterUp else p.meterDown) ≤ lt →
        ∃ u, exec (.rampMeterGrant now) s = .next u ∧ u = { v with power := u.power } ∧ u.power.meterQ = rest ∧
          (r.k ∈ u.power.active ↔ r.rise = true) ∧
          u.power.meterUp = (if r.rise then lt + p.meterWait 20 else p.meterUp) ∧
          u.power.meterDown = (if r.rise then p.meterDown else lt + p.meterWait 20))) ∧
    (∀ (k : Fin 128) (t : Tick) n, s.power.compStopped = false → s.phys k = some n →
      let w := (s.advance t.lt).advanceSc n t.sc
      k.val ∈ p.active → p.asked k = false → w.heldActive k = false → w.straggleHeld = false →
      tget 0 p.validSc k + 2048 ≤ w.cycle n →
      ∃ u, exec (.stationFallRequest k t) s = .next u ∧ u = { w with power := { p with meterQ := u.power.meterQ } } ∧
        { since := w.time.lt, k := k.val, rise := false } ∈ u.power.meterQ ∧ ∀ r ∈ p.meterQ, r ∈ u.power.meterQ) ∧
    (∀ (k : Fin 128) n, s.power.compStopped = false → v.timeRuns = true → s.phys k = some n → k.val ∉ p.active →
      p.asked k = false →
      ((v.nextRow k n (v.cycle n)).some = true ∨ (ballastAt (v.station k)).isSome = true ∨ floorPos k < p.floor ∨
        ∃ b ∈ p.boards, v.preRamps k b = true) →
      ∃ u, exec (.stationRiseRequest k now) s = .next u ∧
        u = { v with power := { p with meterQ := u.power.meterQ, boards := u.power.boards } } ∧
        { since := lt, k := k.val, rise := true } ∈ u.power.meterQ ∧ ∀ r ∈ p.meterQ, r ∈ u.power.meterQ) ∧
    (∀ t, p.calmSince = some t → t + 200000 ≤ lt →
      ∃ u, exec (.powerStateRelax now) s = .next u ∧
        u = { v with power := { p with tight := false, calmSince := none }, stations := u.stations } ∧ s.sameStores u ∧
        ∀ k j, ((u.station k).line j).passedFrom = none) ∧
    (∃ u, exec (.preRampHoldEnd now) s = .next u ∧
      u = { v with power := { p with boards := p.boards.filter (fun b => decide (lt < b.endLt)) } }) ∧
    (∀ point : Fin 1280,
      let x := tget Point.init p.points point
      v.timeRuns = true → x.failed = false →
      (∀ r : Int, -320 ≤ r → r ≤ 1200 →
        ∃ u, exec (.tempConversion point (some r) now) s = .next u ∧
          u = { v with power := { p with points := u.power.points } } ∧
          tget Point.init u.power.points point = { x with reading := r, missed := 0, peak := max x.peak r } ∧
          ∀ i, i ≠ point.val → tget Point.init u.power.points i = tget Point.init p.points i) ∧
      (∀ r : Int, r < -320 ∨ 1200 < r →
        (∃ u, exec (.tempConversion point (some r) now) s = .next u ∧ (tget Point.init u.power.points point).failed = true) ∧
        (1088 ≤ point.val →
          ∃ u, exec (.tempConversion point (some r) now) s = .next u ∧
            ({ v with power := { p with points := u.power.points } } : State).onlyLogged u)) ∧
      (x.missed < 2 → ∃ u, exec (.tempConversion point none now) s = .next u ∧
        tget Point.init u.power.points point = { x with missed := x.missed + 1 }) ∧
      (2 ≤ x.missed → ∃ u, exec (.tempConversion point none now) s = .next u ∧
        (tget Point.init u.power.points point).failed = true)) ∧
    (let stopped := fun (u : State) (dies : List Nat) (family why : Nat) =>
       u.modState = .stopped ∧ u.power.compStopped = true ∧ (∀ d ∈ dies, d ∈ u.power.dieStopped) ∧ u.stations = s.stations ∧
       (∀ c < 8, (u.slot c).state = (if s.busy c then .stopped else (s.slot c).state)) ∧
       (s.evt.enable = false → s.evt.buffer.length < 64 →
         ∃ x, u.evt.buffer = s.evt.buffer ++ [x] ∧ x.family = family ∧ x.code = 0 ∧ x.scope = scopeModule ∧ x.loc = why)
     v.timeRuns = true →
      (∀ point : Fin 1280, (tget Point.init p.points point).failed = false →
        ∃ u, exec (.thermalTrip point now) s = .next u ∧ stopped u (pointDie point).toList 6 point ∧
          u.power.powerStop = p.powerStop) ∧
      (∀ mv, (mv < 48000 ∨ 58000 < mv → ∃ u, exec (.powerFault 1 mv now) s = .next u ∧ stopped u [0, 1] 7 1 ∧
          u.power.powerStop = true) ∧
        (∃ u, exec (.powerFault 2 mv now) s = .next u ∧ stopped u [0, 1] 7 2 ∧ u.power.powerStop = true) ∧
        (2 ≤ p.booksBad → ∃ u, exec (.powerFault 3 mv now) s = .next u ∧ stopped u [0, 1] 7 3 ∧ u.power.powerStop = true)))

/-! ## Start-up, resets, links and pins -/

/-- R397, R398, R407, R459 to R463, R474, R475, R478: power-up goes through its phases in order; the module is `READY` once Stations and
tiers are done, and `NO_SPARE` where a logical number has no Station; an input below 46 V or above 60 V shuts every rail down, and
MOD_RESET# low for 10 µs holds the module in standby; flash is kept through all of them. -/
def Obligations.PowerUpRuns : Prop :=
  ∀ s : State,
    let cold := fun (u : State) => u.flash.retired = s.flash.retired ∧ u.flash.retiredFrames = s.flash.retiredFrames ∧
      u.flash.ownerKey = s.flash.ownerKey ∧ u.pending = s.pending ∧ u.part = s.part ∧ u.modState = .resetting ∧
      u.time = TimeKeeper.init ∧ (∀ c, (u.slot c).state = .empty) ∧ (∀ f, (u.flow f).state = 0)
    (∀ mv, s.startup.phase = .off → 48000 ≤ mv → mv ≤ 58000 → s.startup.modResetLow = false →
      ∃ u, exec (.powerUpBegin mv) s = .next u ∧ u = { s with startup := { s.startup with phase := .inrush, inputMv := mv } }) ∧
    (s.startup.phase = .inrush →
      ∃ u, exec .inrushComplete s = .next u ∧ u = { s with startup := { s.startup with phase := .standby } }) ∧
    (s.startup.phase = .standby → s.startup.modResetLow = false →
      ∃ u, exec .standbyComplete s = .next u ∧ u = { s with startup := { s.startup with phase := .mainRails } }) ∧
    (s.startup.phase = .mainRails →
      ∃ u, exec .mainRailsComplete s = .next u ∧ u.startup = { s.startup with phase := .training } ∧ u.modState = .training ∧
        u.time.lt = 0 ∧ u.time.state = .free ∧ u = { s with startup := u.startup, modState := u.modState, time := u.time, pcie := u.pcie } ∧
        ∀ i < 2, (s.link i).perstLow = false → (u.link i).readyFrom = some 0) ∧
    (∀ fails hot now, s.startup.phase = .training → s.startup.selfTest = false →
      (∃ u, exec (.selftestComplete fails hot now) s = .next u ∧ u.startup.selfTest = true ∧
        (∀ q ∈ fails, 1 ≤ q.2.val → q.2.val ≤ 4 → q.1.val ∈ u.flash.retired) ∧
        (∀ i ∈ hot, (tget Point.init u.power.points i).failed = true ∧ (i.val < 1088 → i.val / 8 ∈ u.flash.retired))) ∧
      (fails = [] → hot = [] → (∀ n < 3, n ∈ s.startup.tierDone) → s.startup.needNoSpare = false →
        (∀ k < 128, s.phys k ≠ none) →
        ∃ u, exec (.selftestComplete fails hot now) s = .next u ∧ u.modState = .ready ∧ u.startup.phase = .up) ∧
      (fails = [] → hot = [] → (∀ n < 3, n ∈ s.startup.tierDone) → (∃ k < 128, s.phys k = none) →
        ∃ u, exec (.selftestComplete fails hot now) s = .next u ∧ u.modState = .noSpare ∧ u.startup.phase = .up)) ∧
    (∀ (tier : Fin 3) bad now, s.startup.phase = .training → tier.val ∉ s.startup.tierDone →
      (∀ f ∈ bad, f < s.tierFrames tier) →
      (∃ u, exec (.tierTrainingComplete tier bad now) s = .next u ∧ tier.val ∈ u.startup.tierDone ∧
        (∀ f ∈ bad, frameKey tier f ∈ u.flash.retiredFrames) ∧ u.tiers = s.tiers) ∧
      ((∃ n < 3, n ≠ tier.val ∧ n ∉ s.startup.tierDone) →
        ∃ u, exec (.tierTrainingComplete tier bad now) s = .next u ∧ u.modState = s.modState)) ∧
    (∀ mv, s.startup.phase ≠ .off → mv < 46000 ∨ 60000 < mv →
      ∃ u, exec (.inputShutdown mv) s = .next u ∧ cold u ∧ u.startup.phase = .off ∧ u.startup.inputMv = mv ∧
        u.startup.i3cDyn = none) ∧
    (∀ ns held, (ns < 10000 → exec (.modReset ns held) s = .next s) ∧
      (10000 ≤ ns → s.startup.phase ≠ .off → s.startup.phase ≠ .inrush →
        ∃ u, exec (.modReset ns held) s = .next u ∧ cold u ∧ u.startup.phase = .standby ∧ u.startup.modResetLow = held) ∧
      (10000 ≤ ns → (s.startup.phase = .off ∨ s.startup.phase = .inrush) →
        exec (.modReset ns held) s = .next { s with startup := { s.startup with modResetLow := held } }))

/-- R284, R438, R466, R467, R478: a link leaves Detect once PERST# is deasserted with the rails up, and answers configuration requests
100 ms later; a link that goes down leaves Tier 3 to the other, and with both down `LINK_DOWN` is raised; a PCIe reset of the primary
function is a warm reset where the module is past its power-up, one of the secondary function touches link 1 alone; and the module
takes an I3C address. What a warm reset keeps is R468's: the tiers' contents, policies, flash and line time. -/
def Obligations.LinksAndResets : Prop :=
  ∀ (now : Nat) (s : State),
    let v := s.advance now
    (∀ link : Fin 2, v.timeRuns = true →
      ((s.link link).perstLow = true →
        ∃ u, exec (.perstDeassert link now) s = .next u ∧ u = { v with pcie := u.pcie } ∧
          u.link link = { s.link link with perstLow := false, readyFrom := some v.time.lt } ∧
          ∀ i, i ≠ link.val → u.link i = s.link i) ∧
      (∀ a, (s.link link).readyFrom = some a → a + 100000000 ≤ v.time.lt →
        ∃ u, exec (.pcieConfigRequest link now) s = .next u ∧ u = { v with pcie := u.pcie } ∧
          u.link link = { s.link link with up := true, configured := true } ∧ ∀ i, i ≠ link.val → u.link i = s.link i) ∧
      (∀ a, (s.link link).readyFrom = some a →
        ∃ u, exec (.pcieLinkUp link now) s = .next u ∧ u = { v with pcie := u.pcie } ∧
          u.link link = { s.link link with up := true } ∧ ∀ i, i ≠ link.val → u.link i = s.link i)) ∧
    (∀ link : Fin 2, (s.link link).up = true →
      (∃ u, exec (.pcieLinkDown link now) s = .next u ∧ u.link link = { s.link link with up := false } ∧
        u.slots = s.slots ∧ u.stations = s.stations ∧ u.flows = s.flows) ∧
      ((∃ i < 2, i ≠ link.val ∧ (s.link i).up = true) →
        ∃ u, exec (.pcieLinkDown link now) s = .next u ∧ u = { v with pcie := u.pcie }) ∧
      ((∀ i < 2, i ≠ link.val → (s.link i).up = false) → s.evt.enable = false → s.evt.buffer.length < 64 →
        ∃ u x, exec (.pcieLinkDown link now) s = .next u ∧ u.evt.buffer = s.evt.buffer ++ [x] ∧ x.family = 4 ∧ x.code = 0 ∧
          x.scope = scopeNone)) ∧
    (∀ cause : Fin 3,
      (∃ u, exec (.pcieResetSecondary cause now) s = .next u ∧ u.slots = s.slots ∧ u.flows = s.flows ∧ u.queues = s.queues ∧
        u.modState = s.modState ∧ u.flash.lastReset = 3 ∧ u.link 0 = s.link 0 ∧ (u.link 1).configured = false) ∧
      (s.modState = .ready ∨ s.modState = .noSpare →
        ∃ u, exec (.pcieResetPrimary cause now) s = .next u ∧ u.modState = .training ∧ u.startup.phase = .training ∧
          (∀ c, (u.slot c).state = .empty) ∧ (∀ f, (u.flow f).state = 0) ∧ u.queues = [] ∧ u.census = .idle ∧ u.tiers.map = [] ∧
          u.tiers.mem = s.tiers.mem ∧ u.policies = s.policies ∧ u.time = v.time ∧ u.flash.retired = s.flash.retired ∧
          u.flash.lastReset = 1 ∧ u.link 1 = s.link 1 ∧ (u.link 0).configured = false) ∧
      (s.modState = .resetting ∨ s.modState = .training →
        ∃ u, exec (.pcieResetPrimary cause now) s = .next u ∧ u.modState = s.modState ∧ u.slots = s.slots ∧
          u.queues = s.queues ∧ u.startup = s.startup ∧ (u.link 0).configured = false)) ∧
    (∀ a : BitVec 7, s.startup.phase ≠ .off → s.startup.phase ≠ .inrush →
      ∃ u, exec (.i3cDynamicAddress a) s = .next u ∧ u = { s with startup := { s.startup with i3cDyn := some a.toNat } })
end

