-- ==== Sys2Proof/Laws/Tables.lean ====
section
/-! SUPPORT. Laws of the sparse tables and of byte order. -/

namespace Sys2Proof.Laws

open Sys2Proof Sys2Proof.Machine

variable {α : Type}

@[simp] theorem tget_nil (d : α) (k : Nat) : tget d [] k = d := rfl

/-- What an entry reads as after a write of one entry. -/
theorem tget_tset (d : α) (t : Table α) (k i : Nat) (v : α) : tget d (tset t k v) i = if i = k then v else tget d t i := by
  induction t with
  | nil =>
    by_cases h : i = k
    · simp [tset, tget, h]
    · simp [tset, tget, h, Ne.symm h]
  | cons e t ih =>
    obtain ⟨a, w⟩ := e
    by_cases hi : i = k
    · subst hi
      by_cases h1 : i = a
      · simp [tset, tget, h1]
      · by_cases h2 : i < a <;> simp [tset, tget, h1, h2, ih, Ne.symm h1]
    · by_cases h1 : k = a
      · subst h1; simp [tset, tget, hi, Ne.symm hi]
      · by_cases h2 : k < a
        · by_cases h3 : a = i
          · subst h3; simp [tset, tget, h1, h2, hi]
          · simp [tset, tget, h1, h2, h3, hi, Ne.symm hi]
        · by_cases h3 : a = i
          · subst h3; simp [tset, tget, h1, h2, hi]
          · simp [tset, tget, h1, h2, h3, ih, hi]

@[simp] theorem tget_tset_self (d : α) (t : Table α) (k : Nat) (v : α) : tget d (tset t k v) k = v := by
  simp [tget_tset]

theorem tget_tset_ne (d : α) (t : Table α) (k i : Nat) (v : α) (h : i ≠ k) : tget d (tset t k v) i = tget d t i := by
  simp [tget_tset, h]

/-- What an entry reads as after another, or the same, has been erased. -/
theorem tget_terase (d : α) (t : Table α) (k i : Nat) : tget d (terase t k) i = if i = k then d else tget d t i := by
  induction t with
  | nil => simp [terase]
  | cons e t ih =>
    obtain ⟨a, w⟩ := e
    by_cases h1 : a = k
    · subst h1
      by_cases h2 : i = a
      · subst h2; simp [terase, ih]
      · simp [terase, tget, ih, h2, Ne.symm h2]
    · by_cases h2 : i = k
      · subst h2; simp [terase, tget, h1, ih]
      · by_cases h3 : a = i <;> simp [terase, tget, h1, h2, h3, ih]

/-- A number set holds what was put in, and what it held. -/
theorem mem_numInsert (l : List Nat) (n m : Nat) : m ∈ numInsert l n ↔ m = n ∨ m ∈ l := by
  induction l with
  | nil => simp [numInsert]
  | cons a t ih =>
    by_cases h1 : n = a
    · simp [numInsert, h1]
    · by_cases h2 : n < a
      · simp [numInsert, h1, h2]
      · simp only [numInsert, h1, h2, if_false, List.mem_cons, ih]; tauto

@[simp] theorem leBytes_length (n v : Nat) : (leBytes n v).length = n := by
  induction n generalizing v with
  | zero => rfl
  | succ n ih => simp [leBytes, ih]

/-- The bytes of a number spell it again, as far as they go. -/
theorem leNat_leBytes (n v : Nat) : leNat (leBytes n v) = v % 256 ^ n := by
  induction n generalizing v with
  | zero => simp [leBytes, leNat, Nat.mod_one]
  | succ n ih =>
    have h : (BitVec.ofNat 8 v).toNat = v % 256 := rfl
    rw [leBytes, leNat, ih, h, pow_succ', Nat.mod_mul]

end Sys2Proof.Laws
end

