-- ==== Sys2Proof/Laws/Issue.lean ====
section
/-! SUPPORT. Everything that the issue of a departure can do, and what the watchdog's notes leave as it was. -/

namespace Sys2Proof.Laws

open Sys2Proof Sys2Proof.Machine

/-- A fold that keeps a relation to its first value at each step keeps it. -/
theorem foldl_keeps {α β : Type} (R : β → Prop) (f : β → α → β) (h : ∀ b a, R b → R (f b a)) :
    ∀ (l : List α) (b : β), R b → R (l.foldl f b)
  | [], _, hb => hb
  | a :: l, b, hb => foldl_keeps R f h l (f b a) (h b a hb)

/-- The watchdog's notes change nothing of a line but its note. -/
theorem metLines_line (s : State) (b : Station) (k i : Nat) :
    ∃ m, tget RunLine.init (s.metLines b k) i = { (s.station k).line i with metLt := m } := by
  refine foldl_keeps (fun t => ∃ m, tget RunLine.init t i = { (s.station k).line i with metLt := m }) _ ?_ _ _ ⟨_, rfl⟩
  rintro t j ⟨m, hm⟩
  dsimp only
  split
  · split
    · rw [tget_tset]
      split
      · rename_i e
        subst e
        exact ⟨some s.time.lt, by rw [hm]⟩
      · exact ⟨m, hm⟩
    · exact ⟨m, hm⟩
  · exact ⟨m, hm⟩

@[simp] theorem noteMet_next (s : State) (b : Station) (k i : Nat) :
    (tget RunLine.init (s.metLines b k) i).next = ((s.station k).line i).next := by
  obtain ⟨m, h⟩ := metLines_line s b k i
  rw [h]

/-- The notes are one change of one Station's lines. -/
theorem noteMet_eq (s : State) (b : Station) (k : Nat) :
    s.noteMet b k = s.setStation k { s.station k with lines := s.metLines b k } := rfl

/-- What an issue row does: nothing but time where the line has no head or it may not issue now, a `MALFORMED` fault, or the issue
and the departure's own effect. -/
theorem issue_cases (r : DepRule) (k j : Nat) (t : IssueTick) (s : State) :
    ((s.advance t.lt).headOf k j = .none ∧ issue r k j t s = s.advance t.lt) ∨
    (∃ c x n, (s.advance t.lt).headOf k j = .runsOut c x n ∧ issue r k j t s = (s.advance t.lt).malformed c k j x n 0x0C) ∨
    (∃ h, (s.advance t.lt).headOf k j = .head h ∧
      let v := (s.advance t.lt).advanceSc h.p t.sc
      (issue r k j t s = v ∨ (∃ reason, issue r k j t s = v.malformed h.c k j h.sect h.index reason) ∨
        (Dep.opcode h.word = r.op ∧ dispatch v k (v.cycle h.p) = some j ∧
          issue r k j t s =
            (r.effect ((issueCommon v k j h (v.cycle h.p)).storeErrors k j h.sect h.index (if readsStore r.op then t.bad else []))
              k h (newProg v k j h (v.cycle h.p))).note (v.station k) k))) := by
  unfold issue
  dsimp only
  cases e : (s.advance t.lt).headOf k j with
  | none => exact .inl ⟨rfl, rfl⟩
  | runsOut c x n => exact .inr (.inl ⟨c, x, n, rfl, rfl⟩)
  | head h =>
    refine .inr (.inr ⟨h, rfl, ?_⟩)
    dsimp only
    split
    · exact .inr (.inl ⟨_, rfl⟩)
    · split
      · exact .inl rfl
      · split
        · exact .inr (.inl ⟨_, rfl⟩)
        · rename_i hn _ _
          refine .inr (.inr ⟨?_, ?_, rfl⟩)
          · simp_all
          · simp_all

end Sys2Proof.Laws
end

