-- ==== Sys2Proof/Laws/Memory.lean ====
section
/-! SUPPORT. Laws of addressed memory: what a byte reads as after a write, a clear and a copy, and that each keeps the
canonical form. -/

namespace Sys2Proof.Laws

open Sys2Proof Sys2Proof.Machine

/-- The canonical form from `lo` on: keys rise strictly, none below `lo`, and no byte is one that is not kept. -/
theorem memWfFrom_iff (lo : Nat) (m : List Host.Cell) :
    memWfFrom lo m = true ↔
      m.Pairwise (fun x y => x.1 < y.1) ∧ (∀ c ∈ m, c.2 ≠ memEmpty) ∧ ∀ c ∈ m, lo ≤ c.1 := by
  induction m generalizing lo with
  | nil => simp [memWfFrom]
  | cons e t ih =>
    obtain ⟨k, v⟩ := e
    simp only [memWfFrom, Bool.and_eq_true, decide_eq_true_eq, ih, List.pairwise_cons, List.mem_cons, forall_eq_or_imp]
    constructor
    · rintro ⟨⟨h1, h2⟩, h3, h4, h5⟩
      exact ⟨⟨fun c hc => h5 c hc, h3⟩, ⟨h2, h4⟩, h1, fun c hc => by have := h5 c hc; omega⟩
    · rintro ⟨⟨h1, h2⟩, ⟨h3, h4⟩, h5, _⟩
      exact ⟨⟨h5, h3⟩, h2, h4, fun c hc => h1 c hc⟩

theorem memory_wf_iff (m : List Host.Cell) :
    Memory.wf m = true ↔ m.Pairwise (fun x y => x.1 < y.1) ∧ ∀ c ∈ m, c.2 ≠ memEmpty := by
  simp [Memory.wf, memWfFrom_iff]

@[simp] theorem memory_wf_nil : Memory.wf [] = true := rfl

theorem cellsAt_keys (a : Nat) (bs : List Byte) : ∀ c ∈ cellsAt a bs, a ≤ c.1 ∧ c.1 < a + bs.length := by
  induction bs generalizing a with
  | nil => simp [cellsAt]
  | cons b t ih =>
    intro c hc
    by_cases h : b = memEmpty
    · simp only [cellsAt, h, if_true] at hc
      have := ih (a + 1) c hc; simp; omega
    · simp only [cellsAt, h, if_false, List.mem_cons] at hc
      rcases hc with rfl | hc
      · simp
      · have := ih (a + 1) c hc; simp; omega

theorem cellsAt_wf (a : Nat) (bs : List Byte) : Memory.wf (cellsAt a bs) = true := by
  rw [memory_wf_iff]
  induction bs generalizing a with
  | nil => simp [cellsAt]
  | cons b t ih =>
    by_cases h : b = memEmpty
    · simpa [cellsAt, h] using ih (a + 1)
    · simp only [cellsAt, h, if_false, List.pairwise_cons, List.mem_cons, forall_eq_or_imp]
      exact ⟨⟨fun c hc => by have := cellsAt_keys (a + 1) t c hc; simp; omega, (ih (a + 1)).1⟩, h, (ih (a + 1)).2⟩

/-- A splice of canonical cells that lie in its range keeps the canonical form. -/
theorem memSplice_wf (m : List Host.Cell) (a e : Nat) (c : List Host.Cell) (hm : Memory.wf m = true)
    (hc : Memory.wf c = true) (hr : ∀ x ∈ c, a ≤ x.1 ∧ x.1 < e) (hae : a ≤ e) : Memory.wf (memSplice m a e c) = true := by
  rw [memory_wf_iff] at *
  constructor
  · simp only [memSplice, List.append_assoc, List.pairwise_append, List.mem_append, List.mem_filter, decide_eq_true_eq]
    refine ⟨hm.1.filter _, ⟨hc.1, hm.1.filter _, ?_⟩, ?_⟩
    · rintro x hx y ⟨_, hy⟩; have := hr x hx; omega
    · rintro x ⟨_, hx⟩ y (hy | ⟨_, hy⟩)
      · have := hr y hy; omega
      · omega
  · intro x hx
    simp only [memSplice, List.mem_append, List.mem_filter] at hx
    rcases hx with (hx | hx) | hx
    · exact hm.2 x hx.1
    · exact hc.2 x hx
    · exact hm.2 x hx.1

/-- A write keeps the canonical form. -/
theorem memWriteBytes_wf (m : List Host.Cell) (a : Nat) (bs : List Byte) (h : Memory.wf m = true) :
    Memory.wf (memWriteBytes m a bs) = true :=
  memSplice_wf m a _ _ h (cellsAt_wf a bs) (cellsAt_keys a bs) (by omega)

/-- So does a clear. -/
theorem memClear_wf (m : List Host.Cell) (a n : Nat) (h : Memory.wf m = true) : Memory.wf (memClear m a n) = true :=
  memSplice_wf m a _ _ h rfl (by simp) (by omega)

theorem memCells_keys (m : List Host.Cell) (a n b : Nat) : ∀ c ∈ memCells m a n b, b ≤ c.1 ∧ c.1 < b + n := by
  intro c hc
  simp only [memCells, List.mem_map, List.mem_filter, decide_eq_true_eq] at hc
  obtain ⟨x, ⟨_, h1⟩, rfl⟩ := hc
  simp; omega

theorem memCells_wf (m : List Host.Cell) (a n b : Nat) (h : Memory.wf m = true) : Memory.wf (memCells m a n b) = true := by
  rw [memory_wf_iff] at *
  constructor
  · simp only [memCells, List.pairwise_map]
    refine List.Pairwise.imp_of_mem ?_ (h.1.filter _)
    intro x y hx hy hxy
    simp only [List.mem_filter, decide_eq_true_eq] at hx hy
    simp; omega
  · intro c hc
    simp only [memCells, List.mem_map, List.mem_filter] at hc
    obtain ⟨x, ⟨h1, _⟩, rfl⟩ := hc
    exact h.2 x h1

/-- So does a copy, whether or not its ranges overlap. -/
theorem memCopy_wf (m : List Host.Cell) (a b n : Nat) (h : Memory.wf m = true) : Memory.wf (memCopy m a b n) = true :=
  memSplice_wf m b _ _ h (memCells_wf m a n b h) (memCells_keys m a n b) (by omega)

/-- Keeping only some addresses leaves those as they were. -/
theorem memRead_filter (m : List Host.Cell) (p : Nat → Bool) (x : Nat) :
    memRead (m.filter (fun c => p c.1)) x = if p x then memRead m x else memEmpty := by
  induction m with
  | nil => simp [memRead]
  | cons e t ih =>
    obtain ⟨k, v⟩ := e
    by_cases hk : p k = true
    · by_cases hx : k = x
      · subst hx; simp [memRead, hk]
      · simp [memRead, hk, hx, ih]
    · by_cases hx : k = x
      · subst hx; simp [hk, ih]
      · simp [memRead, hk, hx, ih]

theorem memRead_absent (m : List Host.Cell) (x : Nat) (h : ∀ c ∈ m, c.1 ≠ x) : memRead m x = memEmpty := by
  induction m with
  | nil => rfl
  | cons e t ih => simp_all [memRead]

theorem memRead_append (l m : List Host.Cell) (x : Nat) :
    memRead (l ++ m) x = if l.any (fun c => c.1 == x) then memRead l x else memRead m x := by
  induction l with
  | nil => simp
  | cons e t ih =>
    obtain ⟨k, v⟩ := e
    by_cases h : k = x
    · simp [memRead, h]
    · simp only [List.cons_append, memRead, h, if_false, ih, List.any_cons, Bool.false_or,
        show (k == x) = false by simp [h]]

/-- What a byte reads as after a splice whose cells lie in its range. -/
theorem memRead_splice (m : List Host.Cell) (a e : Nat) (c : List Host.Cell) (x : Nat) (hr : ∀ y ∈ c, a ≤ y.1 ∧ y.1 < e)
    (hae : a ≤ e) : memRead (memSplice m a e c) x = if a ≤ x ∧ x < e then memRead c x else memRead m x := by
  have hf := memRead_filter m (fun k => decide (k < a)) x
  have hg := memRead_filter m (fun k => decide (e ≤ k)) x
  simp only [memSplice, List.append_assoc, memRead_append, hf, hg]
  by_cases h1 : x < a
  · have hc : c.any (fun y => y.1 == x) = false := by
      simp only [List.any_eq_false, beq_iff_eq]; intro y hy; have := hr y hy; omega
    have : ¬ (e ≤ x) := by omega
    have h3 : ¬ (a ≤ x ∧ x < e) := by omega
    simp only [h1, hc, this, h3, decide_true, if_true, if_false, decide_false]
    split
    · rfl
    · rename_i h
      simp only [Bool.not_eq_true, List.any_eq_false, List.mem_filter, decide_eq_true_eq, beq_iff_eq, and_imp] at h
      simpa using (memRead_absent m x (fun y hy he => h y hy (by omega) he)).symm
  · have hl : (m.filter (fun y => decide (y.1 < a))).any (fun y => y.1 == x) = false := by
      simp only [List.any_eq_false, List.mem_filter, decide_eq_true_eq, beq_iff_eq, and_imp]; intro y _ _; omega
    simp only [h1, hl, decide_false]
    by_cases h2 : x < e
    · have h3 : a ≤ x ∧ x < e := by omega
      simp only [h3, show ¬ e ≤ x by omega, decide_false, and_self, if_true]
      by_cases hc : c.any (fun y => y.1 == x) = true
      · simp [hc]
      · have : memRead c x = memEmpty := memRead_absent c x (fun y hy he => hc (List.any_eq_true.2 ⟨y, hy, by simpa using he⟩))
        simp [hc, this]
    · have hc : c.any (fun y => y.1 == x) = false := by
        simp only [List.any_eq_false, beq_iff_eq]; intro y hy; have := hr y hy; omega
      have h3 : ¬ (a ≤ x ∧ x < e) := by omega
      simp [hc, h2, show e ≤ x by omega]

theorem memRead_cellsAt (a : Nat) (bs : List Byte) (x : Nat) (h : a ≤ x) :
    memRead (cellsAt a bs) x = bs.getD (x - a) memEmpty := by
  induction bs generalizing a with
  | nil => simp [cellsAt, memRead]
  | cons b t ih =>
    by_cases hx : x = a
    · subst hx
      by_cases hb : b = memEmpty
      · simp only [cellsAt, hb, if_true]
        rw [memRead_absent _ _ (fun c hc => by have := cellsAt_keys (x + 1) t c hc; omega)]
        simp
      · simp [cellsAt, hb, memRead]
    · have hs : x - a = (x - (a + 1)) + 1 := by omega
      by_cases hb : b = memEmpty
      · simp only [cellsAt, hb, if_true, ih (a + 1) (by omega), hs, List.getD_cons_succ]
      · simp only [cellsAt, hb, if_false, memRead, Ne.symm hx, ih (a + 1) (by omega), hs, List.getD_cons_succ]

/-- What a byte reads as after a write: the byte written, or what it read as before. -/
theorem memRead_writeBytes (m : List Host.Cell) (a : Nat) (bs : List Byte) (x : Nat) :
    memRead (memWriteBytes m a bs) x = if a ≤ x ∧ x < a + bs.length then bs.getD (x - a) memEmpty else memRead m x := by
  rw [memWriteBytes, memRead_splice m a _ _ x (cellsAt_keys a bs) (by omega)]
  split
  · rename_i h; exact memRead_cellsAt a bs x h.1
  · rfl

theorem memRead_empty_below (m : List Host.Cell) (k x : Nat) (h : ∀ c ∈ m, k < c.1) (hx : x ≤ k) : memRead m x = memEmpty :=
  memRead_absent m x (fun c hc he => by have := h c hc; omega)

theorem map_memRead_empty (m : List Host.Cell) (a n k : Nat) (h : ∀ c ∈ m, k < c.1) (hx : a + n ≤ k + 1) :
    (List.range' a n).map (memRead m) = List.replicate n memEmpty := by
  rw [List.eq_replicate_iff]
  refine ⟨by simp, fun b hb => ?_⟩
  simp only [List.mem_map, List.mem_range'_1] at hb
  obtain ⟨x, hx', rfl⟩ := hb
  exact memRead_empty_below m k x h (by omega)

/-- A read of many bytes is a read of each, in a canonical memory. -/
theorem memSpread_eq (m : List Host.Cell) (a e : Nat) (h : m.Pairwise (fun x y => x.1 < y.1)) :
    memSpread m a e = (List.range' a (e - a)).map (memRead m) := by
  induction m generalizing a with
  | nil =>
    rw [map_memRead_empty [] a (e - a) (a + e) (by simp) (by omega)]; rfl
  | cons c t ih =>
    obtain ⟨k, v⟩ := c
    have ht := (List.pairwise_cons.1 h).1
    have hp := (List.pairwise_cons.1 h).2
    by_cases h1 : k < a
    · rw [memSpread, if_pos h1, ih a hp]
      refine List.map_congr_left (fun x hx => ?_)
      have := (List.mem_range'_1.1 hx).1
      rw [memRead, if_neg (by omega)]
    · by_cases h2 : k < e
      · have hr : List.range' a (e - a) = List.range' a (k - a) ++ k :: List.range' (k + 1) (e - (k + 1)) := by
          rw [show e - a = (k - a) + ((e - (k + 1)) + 1) by omega, ← List.range'_append_1, List.range'_succ,
            show a + (k - a) = k by omega]
        rw [memSpread, if_neg h1, if_pos h2, hr, List.map_append, List.map_cons, ih (k + 1) hp]
        congr 1
        · rw [eq_comm, List.eq_replicate_iff]
          refine ⟨by simp, fun b hb => ?_⟩
          simp only [List.mem_map, List.mem_range'_1] at hb
          obtain ⟨x, hx, rfl⟩ := hb
          rw [memRead, if_neg (by omega)]
          exact memRead_empty_below t k x ht (by omega)
        · congr 1
          · simp [memRead]
          · refine List.map_congr_left (fun x hx => ?_)
            have := (List.mem_range'_1.1 hx).1
            rw [memRead, if_neg (by omega)]
      · rw [memSpread, if_neg h1, if_neg h2, eq_comm, List.eq_replicate_iff]
        refine ⟨by simp, fun b hb => ?_⟩
        simp only [List.mem_map, List.mem_range'_1] at hb
        obtain ⟨x, hx, rfl⟩ := hb
        rw [memRead, if_neg (by omega)]
        exact memRead_empty_below t k x ht (by omega)

/-- Byte `i` of a read of `n` bytes. -/
theorem memReadBytes_getD (m : List Host.Cell) (a n i : Nat) (h : Memory.wf m = true) (hi : i < n) :
    (memReadBytes m a n).getD i memEmpty = memRead m (a + i) := by
  rw [memReadBytes, memSpread_eq m a _ ((memory_wf_iff m).1 h).1]
  simp [List.getD_eq_getElem?_getD, hi]

/-- What a byte reads as after a clear. -/
theorem memRead_clear (m : List Host.Cell) (a n x : Nat) :
    memRead (memClear m a n) x = if a ≤ x ∧ x < a + n then memEmpty else memRead m x := by
  rw [memClear, memRead_splice m a _ _ x (by simp) (by omega)]
  rfl

end Sys2Proof.Laws
end

