-- ==== Sys2Proof/Laws/State.lean ====
section
/-! SUPPORT. What each named update of State leaves in each of its fields, true by unfolding once, so that no later proof unfolds a
record update; and what the entries of a table read as after it. -/

namespace Sys2Proof.Laws

open Sys2Proof Sys2Proof.Machine

variable (s : State)

@[simp] theorem setSlot_fields (c : Nat) (v : Slot) :
    (s.setSlot c v).pending = s.pending ∧ (s.setSlot c v).part = s.part ∧ (s.setSlot c v).modState = s.modState ∧
    (s.setSlot c v).startup = s.startup ∧ (s.setSlot c v).flash = s.flash ∧ (s.setSlot c v).time = s.time ∧
    (s.setSlot c v).policies = s.policies ∧ (s.setSlot c v).power = s.power ∧ (s.setSlot c v).queues = s.queues ∧
    (s.setSlot c v).fetchSeq = s.fetchSeq ∧ (s.setSlot c v).pass = s.pass ∧ (s.setSlot c v).evt = s.evt ∧
    (s.setSlot c v).vectors = s.vectors ∧ (s.setSlot c v).census = s.census ∧ (s.setSlot c v).ctrs = s.ctrs ∧
    (s.setSlot c v).pcie = s.pcie ∧ (s.setSlot c v).slots = tset s.slots c v ∧ (s.setSlot c v).stations = s.stations ∧
    (s.setSlot c v).cycles = s.cycles ∧ (s.setSlot c v).hops = s.hops ∧ (s.setSlot c v).turns = s.turns ∧
    (s.setSlot c v).turnOut = s.turnOut ∧ (s.setSlot c v).tiers = s.tiers ∧ (s.setSlot c v).shunter = s.shunter ∧
    (s.setSlot c v).cages = s.cages ∧ (s.setSlot c v).ports = s.ports ∧ (s.setSlot c v).flows = s.flows ∧
    (s.setSlot c v).coll = s.coll ∧ (s.setSlot c v).collSlot = s.collSlot ∧ (s.setSlot c v).parked = s.parked ∧
    (s.setSlot c v).retireQ = s.retireQ ∧ (s.setSlot c v).replay = s.replay ∧ (s.setSlot c v).hostMem = s.hostMem ∧
    (s.setSlot c v).txFrames = s.txFrames ∧ (s.setSlot c v).msixSent = s.msixSent ∧
    (s.setSlot c v).mctpSent = s.mctpSent ∧ (s.setSlot c v).mctpData = s.mctpData ∧ (s.setSlot c v).freeIx = s.freeIx :=
  ⟨rfl, rfl, rfl, rfl, rfl, rfl, rfl, rfl, rfl, rfl, rfl, rfl, rfl, rfl, rfl, rfl, rfl, rfl, rfl, rfl, rfl, rfl, rfl, rfl, rfl, rfl, rfl, rfl, rfl, rfl, rfl, rfl, rfl, rfl, rfl, rfl, rfl, rfl⟩

@[simp] theorem modSlot_fields (c : Nat) (f : Slot → Slot) :
    (s.modSlot c f).pending = s.pending ∧ (s.modSlot c f).part = s.part ∧ (s.modSlot c f).modState = s.modState ∧
    (s.modSlot c f).startup = s.startup ∧ (s.modSlot c f).flash = s.flash ∧ (s.modSlot c f).time = s.time ∧
    (s.modSlot c f).policies = s.policies ∧ (s.modSlot c f).power = s.power ∧ (s.modSlot c f).queues = s.queues ∧
    (s.modSlot c f).fetchSeq = s.fetchSeq ∧ (s.modSlot c f).pass = s.pass ∧ (s.modSlot c f).evt = s.evt ∧
    (s.modSlot c f).vectors = s.vectors ∧ (s.modSlot c f).census = s.census ∧ (s.modSlot c f).ctrs = s.ctrs ∧
    (s.modSlot c f).pcie = s.pcie ∧ (s.modSlot c f).slots = tset s.slots c (f (s.slot c)) ∧
    (s.modSlot c f).stations = s.stations ∧ (s.modSlot c f).cycles = s.cycles ∧ (s.modSlot c f).hops = s.hops ∧
    (s.modSlot c f).turns = s.turns ∧ (s.modSlot c f).turnOut = s.turnOut ∧ (s.modSlot c f).tiers = s.tiers ∧
    (s.modSlot c f).shunter = s.shunter ∧ (s.modSlot c f).cages = s.cages ∧ (s.modSlot c f).ports = s.ports ∧
    (s.modSlot c f).flows = s.flows ∧ (s.modSlot c f).coll = s.coll ∧ (s.modSlot c f).collSlot = s.collSlot ∧
    (s.modSlot c f).parked = s.parked ∧ (s.modSlot c f).retireQ = s.retireQ ∧ (s.modSlot c f).replay = s.replay ∧
    (s.modSlot c f).hostMem = s.hostMem ∧ (s.modSlot c f).txFrames = s.txFrames ∧
    (s.modSlot c f).msixSent = s.msixSent ∧ (s.modSlot c f).mctpSent = s.mctpSent ∧
    (s.modSlot c f).mctpData = s.mctpData ∧ (s.modSlot c f).freeIx = s.freeIx :=
  ⟨rfl, rfl, rfl, rfl, rfl, rfl, rfl, rfl, rfl, rfl, rfl, rfl, rfl, rfl, rfl, rfl, rfl, rfl, rfl, rfl, rfl, rfl, rfl, rfl, rfl, rfl, rfl, rfl, rfl, rfl, rfl, rfl, rfl, rfl, rfl, rfl, rfl, rfl⟩

@[simp] theorem setStation_fields (k : Nat) (v : Station) :
    (s.setStation k v).pending = s.pending ∧ (s.setStation k v).part = s.part ∧
    (s.setStation k v).modState = s.modState ∧ (s.setStation k v).startup = s.startup ∧
    (s.setStation k v).flash = s.flash ∧ (s.setStation k v).time = s.time ∧ (s.setStation k v).policies = s.policies ∧
    (s.setStation k v).power = s.power ∧ (s.setStation k v).queues = s.queues ∧
    (s.setStation k v).fetchSeq = s.fetchSeq ∧ (s.setStation k v).pass = s.pass ∧ (s.setStation k v).evt = s.evt ∧
    (s.setStation k v).vectors = s.vectors ∧ (s.setStation k v).census = s.census ∧ (s.setStation k v).ctrs = s.ctrs ∧
    (s.setStation k v).pcie = s.pcie ∧ (s.setStation k v).slots = s.slots ∧
    (s.setStation k v).stations = tset s.stations k v ∧ (s.setStation k v).cycles = s.cycles ∧
    (s.setStation k v).hops = s.hops ∧ (s.setStation k v).turns = s.turns ∧ (s.setStation k v).turnOut = s.turnOut ∧
    (s.setStation k v).tiers = s.tiers ∧ (s.setStation k v).shunter = s.shunter ∧ (s.setStation k v).cages = s.cages ∧
    (s.setStation k v).ports = s.ports ∧ (s.setStation k v).flows = s.flows ∧ (s.setStation k v).coll = s.coll ∧
    (s.setStation k v).collSlot = s.collSlot ∧ (s.setStation k v).parked = s.parked ∧
    (s.setStation k v).retireQ = s.retireQ ∧ (s.setStation k v).replay = s.replay ∧
    (s.setStation k v).hostMem = s.hostMem ∧ (s.setStation k v).txFrames = s.txFrames ∧
    (s.setStation k v).msixSent = s.msixSent ∧ (s.setStation k v).mctpSent = s.mctpSent ∧
    (s.setStation k v).mctpData = s.mctpData ∧ (s.setStation k v).freeIx = s.freeIx :=
  ⟨rfl, rfl, rfl, rfl, rfl, rfl, rfl, rfl, rfl, rfl, rfl, rfl, rfl, rfl, rfl, rfl, rfl, rfl, rfl, rfl, rfl, rfl, rfl, rfl, rfl, rfl, rfl, rfl, rfl, rfl, rfl, rfl, rfl, rfl, rfl, rfl, rfl, rfl⟩

@[simp] theorem modStation_fields (k : Nat) (f : Station → Station) :
    (s.modStation k f).pending = s.pending ∧ (s.modStation k f).part = s.part ∧
    (s.modStation k f).modState = s.modState ∧ (s.modStation k f).startup = s.startup ∧
    (s.modStation k f).flash = s.flash ∧ (s.modStation k f).time = s.time ∧ (s.modStation k f).policies = s.policies ∧
    (s.modStation k f).power = s.power ∧ (s.modStation k f).queues = s.queues ∧
    (s.modStation k f).fetchSeq = s.fetchSeq ∧ (s.modStation k f).pass = s.pass ∧ (s.modStation k f).evt = s.evt ∧
    (s.modStation k f).vectors = s.vectors ∧ (s.modStation k f).census = s.census ∧ (s.modStation k f).ctrs = s.ctrs ∧
    (s.modStation k f).pcie = s.pcie ∧ (s.modStation k f).slots = s.slots ∧
    (s.modStation k f).stations = tset s.stations k (f (s.station k)) ∧ (s.modStation k f).cycles = s.cycles ∧
    (s.modStation k f).hops = s.hops ∧ (s.modStation k f).turns = s.turns ∧ (s.modStation k f).turnOut = s.turnOut ∧
    (s.modStation k f).tiers = s.tiers ∧ (s.modStation k f).shunter = s.shunter ∧ (s.modStation k f).cages = s.cages ∧
    (s.modStation k f).ports = s.ports ∧ (s.modStation k f).flows = s.flows ∧ (s.modStation k f).coll = s.coll ∧
    (s.modStation k f).collSlot = s.collSlot ∧ (s.modStation k f).parked = s.parked ∧
    (s.modStation k f).retireQ = s.retireQ ∧ (s.modStation k f).replay = s.replay ∧
    (s.modStation k f).hostMem = s.hostMem ∧ (s.modStation k f).txFrames = s.txFrames ∧
    (s.modStation k f).msixSent = s.msixSent ∧ (s.modStation k f).mctpSent = s.mctpSent ∧
    (s.modStation k f).mctpData = s.mctpData ∧ (s.modStation k f).freeIx = s.freeIx :=
  ⟨rfl, rfl, rfl, rfl, rfl, rfl, rfl, rfl, rfl, rfl, rfl, rfl, rfl, rfl, rfl, rfl, rfl, rfl, rfl, rfl, rfl, rfl, rfl, rfl, rfl, rfl, rfl, rfl, rfl, rfl, rfl, rfl, rfl, rfl, rfl, rfl, rfl, rfl⟩

@[simp] theorem setQueue_fields (q : Nat) (v : Queue) :
    (s.setQueue q v).pending = s.pending ∧ (s.setQueue q v).part = s.part ∧ (s.setQueue q v).modState = s.modState ∧
    (s.setQueue q v).startup = s.startup ∧ (s.setQueue q v).flash = s.flash ∧ (s.setQueue q v).time = s.time ∧
    (s.setQueue q v).policies = s.policies ∧ (s.setQueue q v).power = s.power ∧
    (s.setQueue q v).queues = tset s.queues q v ∧ (s.setQueue q v).fetchSeq = s.fetchSeq ∧
    (s.setQueue q v).pass = s.pass ∧ (s.setQueue q v).evt = s.evt ∧ (s.setQueue q v).vectors = s.vectors ∧
    (s.setQueue q v).census = s.census ∧ (s.setQueue q v).ctrs = s.ctrs ∧ (s.setQueue q v).pcie = s.pcie ∧
    (s.setQueue q v).slots = s.slots ∧ (s.setQueue q v).stations = s.stations ∧ (s.setQueue q v).cycles = s.cycles ∧
    (s.setQueue q v).hops = s.hops ∧ (s.setQueue q v).turns = s.turns ∧ (s.setQueue q v).turnOut = s.turnOut ∧
    (s.setQueue q v).tiers = s.tiers ∧ (s.setQueue q v).shunter = s.shunter ∧ (s.setQueue q v).cages = s.cages ∧
    (s.setQueue q v).ports = s.ports ∧ (s.setQueue q v).flows = s.flows ∧ (s.setQueue q v).coll = s.coll ∧
    (s.setQueue q v).collSlot = s.collSlot ∧ (s.setQueue q v).parked = s.parked ∧
    (s.setQueue q v).retireQ = s.retireQ ∧ (s.setQueue q v).replay = s.replay ∧ (s.setQueue q v).hostMem = s.hostMem ∧
    (s.setQueue q v).txFrames = s.txFrames ∧ (s.setQueue q v).msixSent = s.msixSent ∧
    (s.setQueue q v).mctpSent = s.mctpSent ∧ (s.setQueue q v).mctpData = s.mctpData ∧
    (s.setQueue q v).freeIx = s.freeIx :=
  ⟨rfl, rfl, rfl, rfl, rfl, rfl, rfl, rfl, rfl, rfl, rfl, rfl, rfl, rfl, rfl, rfl, rfl, rfl, rfl, rfl, rfl, rfl, rfl, rfl, rfl, rfl, rfl, rfl, rfl, rfl, rfl, rfl, rfl, rfl, rfl, rfl, rfl, rfl⟩

@[simp] theorem modQueue_fields (q : Nat) (f : Queue → Queue) :
    (s.modQueue q f).pending = s.pending ∧ (s.modQueue q f).part = s.part ∧ (s.modQueue q f).modState = s.modState ∧
    (s.modQueue q f).startup = s.startup ∧ (s.modQueue q f).flash = s.flash ∧ (s.modQueue q f).time = s.time ∧
    (s.modQueue q f).policies = s.policies ∧ (s.modQueue q f).power = s.power ∧
    (s.modQueue q f).queues = tset s.queues q (f (s.queue q)) ∧ (s.modQueue q f).fetchSeq = s.fetchSeq ∧
    (s.modQueue q f).pass = s.pass ∧ (s.modQueue q f).evt = s.evt ∧ (s.modQueue q f).vectors = s.vectors ∧
    (s.modQueue q f).census = s.census ∧ (s.modQueue q f).ctrs = s.ctrs ∧ (s.modQueue q f).pcie = s.pcie ∧
    (s.modQueue q f).slots = s.slots ∧ (s.modQueue q f).stations = s.stations ∧ (s.modQueue q f).cycles = s.cycles ∧
    (s.modQueue q f).hops = s.hops ∧ (s.modQueue q f).turns = s.turns ∧ (s.modQueue q f).turnOut = s.turnOut ∧
    (s.modQueue q f).tiers = s.tiers ∧ (s.modQueue q f).shunter = s.shunter ∧ (s.modQueue q f).cages = s.cages ∧
    (s.modQueue q f).ports = s.ports ∧ (s.modQueue q f).flows = s.flows ∧ (s.modQueue q f).coll = s.coll ∧
    (s.modQueue q f).collSlot = s.collSlot ∧ (s.modQueue q f).parked = s.parked ∧
    (s.modQueue q f).retireQ = s.retireQ ∧ (s.modQueue q f).replay = s.replay ∧ (s.modQueue q f).hostMem = s.hostMem ∧
    (s.modQueue q f).txFrames = s.txFrames ∧ (s.modQueue q f).msixSent = s.msixSent ∧
    (s.modQueue q f).mctpSent = s.mctpSent ∧ (s.modQueue q f).mctpData = s.mctpData ∧
    (s.modQueue q f).freeIx = s.freeIx :=
  ⟨rfl, rfl, rfl, rfl, rfl, rfl, rfl, rfl, rfl, rfl, rfl, rfl, rfl, rfl, rfl, rfl, rfl, rfl, rfl, rfl, rfl, rfl, rfl, rfl, rfl, rfl, rfl, rfl, rfl, rfl, rfl, rfl, rfl, rfl, rfl, rfl, rfl, rfl⟩

@[simp] theorem setHop_fields (p l : Nat) (v : Hop) :
    (s.setHop p l v).pending = s.pending ∧ (s.setHop p l v).part = s.part ∧ (s.setHop p l v).modState = s.modState ∧
    (s.setHop p l v).startup = s.startup ∧ (s.setHop p l v).flash = s.flash ∧ (s.setHop p l v).time = s.time ∧
    (s.setHop p l v).policies = s.policies ∧ (s.setHop p l v).power = s.power ∧ (s.setHop p l v).queues = s.queues ∧
    (s.setHop p l v).fetchSeq = s.fetchSeq ∧ (s.setHop p l v).pass = s.pass ∧ (s.setHop p l v).evt = s.evt ∧
    (s.setHop p l v).vectors = s.vectors ∧ (s.setHop p l v).census = s.census ∧ (s.setHop p l v).ctrs = s.ctrs ∧
    (s.setHop p l v).pcie = s.pcie ∧ (s.setHop p l v).slots = s.slots ∧ (s.setHop p l v).stations = s.stations ∧
    (s.setHop p l v).cycles = s.cycles ∧ (s.setHop p l v).hops = tset s.hops (2 * p + l) v ∧
    (s.setHop p l v).turns = s.turns ∧ (s.setHop p l v).turnOut = s.turnOut ∧ (s.setHop p l v).tiers = s.tiers ∧
    (s.setHop p l v).shunter = s.shunter ∧ (s.setHop p l v).cages = s.cages ∧ (s.setHop p l v).ports = s.ports ∧
    (s.setHop p l v).flows = s.flows ∧ (s.setHop p l v).coll = s.coll ∧ (s.setHop p l v).collSlot = s.collSlot ∧
    (s.setHop p l v).parked = s.parked ∧ (s.setHop p l v).retireQ = s.retireQ ∧ (s.setHop p l v).replay = s.replay ∧
    (s.setHop p l v).hostMem = s.hostMem ∧ (s.setHop p l v).txFrames = s.txFrames ∧
    (s.setHop p l v).msixSent = s.msixSent ∧ (s.setHop p l v).mctpSent = s.mctpSent ∧
    (s.setHop p l v).mctpData = s.mctpData ∧ (s.setHop p l v).freeIx = s.freeIx :=
  ⟨rfl, rfl, rfl, rfl, rfl, rfl, rfl, rfl, rfl, rfl, rfl, rfl, rfl, rfl, rfl, rfl, rfl, rfl, rfl, rfl, rfl, rfl, rfl, rfl, rfl, rfl, rfl, rfl, rfl, rfl, rfl, rfl, rfl, rfl, rfl, rfl, rfl, rfl⟩

@[simp] theorem modHop_fields (p l : Nat) (f : Hop → Hop) :
    (s.modHop p l f).pending = s.pending ∧ (s.modHop p l f).part = s.part ∧ (s.modHop p l f).modState = s.modState ∧
    (s.modHop p l f).startup = s.startup ∧ (s.modHop p l f).flash = s.flash ∧ (s.modHop p l f).time = s.time ∧
    (s.modHop p l f).policies = s.policies ∧ (s.modHop p l f).power = s.power ∧ (s.modHop p l f).queues = s.queues ∧
    (s.modHop p l f).fetchSeq = s.fetchSeq ∧ (s.modHop p l f).pass = s.pass ∧ (s.modHop p l f).evt = s.evt ∧
    (s.modHop p l f).vectors = s.vectors ∧ (s.modHop p l f).census = s.census ∧ (s.modHop p l f).ctrs = s.ctrs ∧
    (s.modHop p l f).pcie = s.pcie ∧ (s.modHop p l f).slots = s.slots ∧ (s.modHop p l f).stations = s.stations ∧
    (s.modHop p l f).cycles = s.cycles ∧ (s.modHop p l f).hops = tset s.hops (2 * p + l) (f (s.hop p l)) ∧
    (s.modHop p l f).turns = s.turns ∧ (s.modHop p l f).turnOut = s.turnOut ∧ (s.modHop p l f).tiers = s.tiers ∧
    (s.modHop p l f).shunter = s.shunter ∧ (s.modHop p l f).cages = s.cages ∧ (s.modHop p l f).ports = s.ports ∧
    (s.modHop p l f).flows = s.flows ∧ (s.modHop p l f).coll = s.coll ∧ (s.modHop p l f).collSlot = s.collSlot ∧
    (s.modHop p l f).parked = s.parked ∧ (s.modHop p l f).retireQ = s.retireQ ∧ (s.modHop p l f).replay = s.replay ∧
    (s.modHop p l f).hostMem = s.hostMem ∧ (s.modHop p l f).txFrames = s.txFrames ∧
    (s.modHop p l f).msixSent = s.msixSent ∧ (s.modHop p l f).mctpSent = s.mctpSent ∧
    (s.modHop p l f).mctpData = s.mctpData ∧ (s.modHop p l f).freeIx = s.freeIx :=
  ⟨rfl, rfl, rfl, rfl, rfl, rfl, rfl, rfl, rfl, rfl, rfl, rfl, rfl, rfl, rfl, rfl, rfl, rfl, rfl, rfl, rfl, rfl, rfl, rfl, rfl, rfl, rfl, rfl, rfl, rfl, rfl, rfl, rfl, rfl, rfl, rfl, rfl, rfl⟩

@[simp] theorem setCage_fields (i : Nat) (v : Cage) :
    (s.setCage i v).pending = s.pending ∧ (s.setCage i v).part = s.part ∧ (s.setCage i v).modState = s.modState ∧
    (s.setCage i v).startup = s.startup ∧ (s.setCage i v).flash = s.flash ∧ (s.setCage i v).time = s.time ∧
    (s.setCage i v).policies = s.policies ∧ (s.setCage i v).power = s.power ∧ (s.setCage i v).queues = s.queues ∧
    (s.setCage i v).fetchSeq = s.fetchSeq ∧ (s.setCage i v).pass = s.pass ∧ (s.setCage i v).evt = s.evt ∧
    (s.setCage i v).vectors = s.vectors ∧ (s.setCage i v).census = s.census ∧ (s.setCage i v).ctrs = s.ctrs ∧
    (s.setCage i v).pcie = s.pcie ∧ (s.setCage i v).slots = s.slots ∧ (s.setCage i v).stations = s.stations ∧
    (s.setCage i v).cycles = s.cycles ∧ (s.setCage i v).hops = s.hops ∧ (s.setCage i v).turns = s.turns ∧
    (s.setCage i v).turnOut = s.turnOut ∧ (s.setCage i v).tiers = s.tiers ∧ (s.setCage i v).shunter = s.shunter ∧
    (s.setCage i v).cages = tset s.cages i v ∧ (s.setCage i v).ports = s.ports ∧ (s.setCage i v).flows = s.flows ∧
    (s.setCage i v).coll = s.coll ∧ (s.setCage i v).collSlot = s.collSlot ∧ (s.setCage i v).parked = s.parked ∧
    (s.setCage i v).retireQ = s.retireQ ∧ (s.setCage i v).replay = s.replay ∧ (s.setCage i v).hostMem = s.hostMem ∧
    (s.setCage i v).txFrames = s.txFrames ∧ (s.setCage i v).msixSent = s.msixSent ∧
    (s.setCage i v).mctpSent = s.mctpSent ∧ (s.setCage i v).mctpData = s.mctpData ∧ (s.setCage i v).freeIx = s.freeIx :=
  ⟨rfl, rfl, rfl, rfl, rfl, rfl, rfl, rfl, rfl, rfl, rfl, rfl, rfl, rfl, rfl, rfl, rfl, rfl, rfl, rfl, rfl, rfl, rfl, rfl, rfl, rfl, rfl, rfl, rfl, rfl, rfl, rfl, rfl, rfl, rfl, rfl, rfl, rfl⟩

@[simp] theorem setPort_fields (i : Nat) (v : Port) :
    (s.setPort i v).pending = s.pending ∧ (s.setPort i v).part = s.part ∧ (s.setPort i v).modState = s.modState ∧
    (s.setPort i v).startup = s.startup ∧ (s.setPort i v).flash = s.flash ∧ (s.setPort i v).time = s.time ∧
    (s.setPort i v).policies = s.policies ∧ (s.setPort i v).power = s.power ∧ (s.setPort i v).queues = s.queues ∧
    (s.setPort i v).fetchSeq = s.fetchSeq ∧ (s.setPort i v).pass = s.pass ∧ (s.setPort i v).evt = s.evt ∧
    (s.setPort i v).vectors = s.vectors ∧ (s.setPort i v).census = s.census ∧ (s.setPort i v).ctrs = s.ctrs ∧
    (s.setPort i v).pcie = s.pcie ∧ (s.setPort i v).slots = s.slots ∧ (s.setPort i v).stations = s.stations ∧
    (s.setPort i v).cycles = s.cycles ∧ (s.setPort i v).hops = s.hops ∧ (s.setPort i v).turns = s.turns ∧
    (s.setPort i v).turnOut = s.turnOut ∧ (s.setPort i v).tiers = s.tiers ∧ (s.setPort i v).shunter = s.shunter ∧
    (s.setPort i v).cages = s.cages ∧ (s.setPort i v).ports = tset s.ports i v ∧ (s.setPort i v).flows = s.flows ∧
    (s.setPort i v).coll = s.coll ∧ (s.setPort i v).collSlot = s.collSlot ∧ (s.setPort i v).parked = s.parked ∧
    (s.setPort i v).retireQ = s.retireQ ∧ (s.setPort i v).replay = s.replay ∧ (s.setPort i v).hostMem = s.hostMem ∧
    (s.setPort i v).txFrames = s.txFrames ∧ (s.setPort i v).msixSent = s.msixSent ∧
    (s.setPort i v).mctpSent = s.mctpSent ∧ (s.setPort i v).mctpData = s.mctpData ∧ (s.setPort i v).freeIx = s.freeIx :=
  ⟨rfl, rfl, rfl, rfl, rfl, rfl, rfl, rfl, rfl, rfl, rfl, rfl, rfl, rfl, rfl, rfl, rfl, rfl, rfl, rfl, rfl, rfl, rfl, rfl, rfl, rfl, rfl, rfl, rfl, rfl, rfl, rfl, rfl, rfl, rfl, rfl, rfl, rfl⟩

@[simp] theorem setFlow_fields (i : Nat) (v : Flow) :
    (s.setFlow i v).pending = s.pending ∧ (s.setFlow i v).part = s.part ∧ (s.setFlow i v).modState = s.modState ∧
    (s.setFlow i v).startup = s.startup ∧ (s.setFlow i v).flash = s.flash ∧ (s.setFlow i v).time = s.time ∧
    (s.setFlow i v).policies = s.policies ∧ (s.setFlow i v).power = s.power ∧ (s.setFlow i v).queues = s.queues ∧
    (s.setFlow i v).fetchSeq = s.fetchSeq ∧ (s.setFlow i v).pass = s.pass ∧ (s.setFlow i v).evt = s.evt ∧
    (s.setFlow i v).vectors = s.vectors ∧ (s.setFlow i v).census = s.census ∧ (s.setFlow i v).ctrs = s.ctrs ∧
    (s.setFlow i v).pcie = s.pcie ∧ (s.setFlow i v).slots = s.slots ∧ (s.setFlow i v).stations = s.stations ∧
    (s.setFlow i v).cycles = s.cycles ∧ (s.setFlow i v).hops = s.hops ∧ (s.setFlow i v).turns = s.turns ∧
    (s.setFlow i v).turnOut = s.turnOut ∧ (s.setFlow i v).tiers = s.tiers ∧ (s.setFlow i v).shunter = s.shunter ∧
    (s.setFlow i v).cages = s.cages ∧ (s.setFlow i v).ports = s.ports ∧ (s.setFlow i v).flows = tset s.flows i v ∧
    (s.setFlow i v).coll = s.coll ∧ (s.setFlow i v).collSlot = s.collSlot ∧ (s.setFlow i v).parked = s.parked ∧
    (s.setFlow i v).retireQ = s.retireQ ∧ (s.setFlow i v).replay = s.replay ∧ (s.setFlow i v).hostMem = s.hostMem ∧
    (s.setFlow i v).txFrames = s.txFrames ∧ (s.setFlow i v).msixSent = s.msixSent ∧
    (s.setFlow i v).mctpSent = s.mctpSent ∧ (s.setFlow i v).mctpData = s.mctpData ∧ (s.setFlow i v).freeIx = s.freeIx :=
  ⟨rfl, rfl, rfl, rfl, rfl, rfl, rfl, rfl, rfl, rfl, rfl, rfl, rfl, rfl, rfl, rfl, rfl, rfl, rfl, rfl, rfl, rfl, rfl, rfl, rfl, rfl, rfl, rfl, rfl, rfl, rfl, rfl, rfl, rfl, rfl, rfl, rfl, rfl⟩

@[simp] theorem modFlow_fields (i : Nat) (f : Flow → Flow) :
    (s.modFlow i f).pending = s.pending ∧ (s.modFlow i f).part = s.part ∧ (s.modFlow i f).modState = s.modState ∧
    (s.modFlow i f).startup = s.startup ∧ (s.modFlow i f).flash = s.flash ∧ (s.modFlow i f).time = s.time ∧
    (s.modFlow i f).policies = s.policies ∧ (s.modFlow i f).power = s.power ∧ (s.modFlow i f).queues = s.queues ∧
    (s.modFlow i f).fetchSeq = s.fetchSeq ∧ (s.modFlow i f).pass = s.pass ∧ (s.modFlow i f).evt = s.evt ∧
    (s.modFlow i f).vectors = s.vectors ∧ (s.modFlow i f).census = s.census ∧ (s.modFlow i f).ctrs = s.ctrs ∧
    (s.modFlow i f).pcie = s.pcie ∧ (s.modFlow i f).slots = s.slots ∧ (s.modFlow i f).stations = s.stations ∧
    (s.modFlow i f).cycles = s.cycles ∧ (s.modFlow i f).hops = s.hops ∧ (s.modFlow i f).turns = s.turns ∧
    (s.modFlow i f).turnOut = s.turnOut ∧ (s.modFlow i f).tiers = s.tiers ∧ (s.modFlow i f).shunter = s.shunter ∧
    (s.modFlow i f).cages = s.cages ∧ (s.modFlow i f).ports = s.ports ∧
    (s.modFlow i f).flows = tset s.flows i (f (s.flow i)) ∧ (s.modFlow i f).coll = s.coll ∧
    (s.modFlow i f).collSlot = s.collSlot ∧ (s.modFlow i f).parked = s.parked ∧ (s.modFlow i f).retireQ = s.retireQ ∧
    (s.modFlow i f).replay = s.replay ∧ (s.modFlow i f).hostMem = s.hostMem ∧ (s.modFlow i f).txFrames = s.txFrames ∧
    (s.modFlow i f).msixSent = s.msixSent ∧ (s.modFlow i f).mctpSent = s.mctpSent ∧
    (s.modFlow i f).mctpData = s.mctpData ∧ (s.modFlow i f).freeIx = s.freeIx :=
  ⟨rfl, rfl, rfl, rfl, rfl, rfl, rfl, rfl, rfl, rfl, rfl, rfl, rfl, rfl, rfl, rfl, rfl, rfl, rfl, rfl, rfl, rfl, rfl, rfl, rfl, rfl, rfl, rfl, rfl, rfl, rfl, rfl, rfl, rfl, rfl, rfl, rfl, rfl⟩

@[simp] theorem setVector_fields (i : Nat) (v : Vector) :
    (s.setVector i v).pending = s.pending ∧ (s.setVector i v).part = s.part ∧ (s.setVector i v).modState = s.modState ∧
    (s.setVector i v).startup = s.startup ∧ (s.setVector i v).flash = s.flash ∧ (s.setVector i v).time = s.time ∧
    (s.setVector i v).policies = s.policies ∧ (s.setVector i v).power = s.power ∧ (s.setVector i v).queues = s.queues ∧
    (s.setVector i v).fetchSeq = s.fetchSeq ∧ (s.setVector i v).pass = s.pass ∧ (s.setVector i v).evt = s.evt ∧
    (s.setVector i v).vectors = tset s.vectors i v ∧ (s.setVector i v).census = s.census ∧
    (s.setVector i v).ctrs = s.ctrs ∧ (s.setVector i v).pcie = s.pcie ∧ (s.setVector i v).slots = s.slots ∧
    (s.setVector i v).stations = s.stations ∧ (s.setVector i v).cycles = s.cycles ∧ (s.setVector i v).hops = s.hops ∧
    (s.setVector i v).turns = s.turns ∧ (s.setVector i v).turnOut = s.turnOut ∧ (s.setVector i v).tiers = s.tiers ∧
    (s.setVector i v).shunter = s.shunter ∧ (s.setVector i v).cages = s.cages ∧ (s.setVector i v).ports = s.ports ∧
    (s.setVector i v).flows = s.flows ∧ (s.setVector i v).coll = s.coll ∧ (s.setVector i v).collSlot = s.collSlot ∧
    (s.setVector i v).parked = s.parked ∧ (s.setVector i v).retireQ = s.retireQ ∧ (s.setVector i v).replay = s.replay ∧
    (s.setVector i v).hostMem = s.hostMem ∧ (s.setVector i v).txFrames = s.txFrames ∧
    (s.setVector i v).msixSent = s.msixSent ∧ (s.setVector i v).mctpSent = s.mctpSent ∧
    (s.setVector i v).mctpData = s.mctpData ∧ (s.setVector i v).freeIx = s.freeIx :=
  ⟨rfl, rfl, rfl, rfl, rfl, rfl, rfl, rfl, rfl, rfl, rfl, rfl, rfl, rfl, rfl, rfl, rfl, rfl, rfl, rfl, rfl, rfl, rfl, rfl, rfl, rfl, rfl, rfl, rfl, rfl, rfl, rfl, rfl, rfl, rfl, rfl, rfl, rfl⟩

@[simp] theorem setLink_fields (i : Nat) (v : Pcie) :
    (s.setLink i v).pending = s.pending ∧ (s.setLink i v).part = s.part ∧ (s.setLink i v).modState = s.modState ∧
    (s.setLink i v).startup = s.startup ∧ (s.setLink i v).flash = s.flash ∧ (s.setLink i v).time = s.time ∧
    (s.setLink i v).policies = s.policies ∧ (s.setLink i v).power = s.power ∧ (s.setLink i v).queues = s.queues ∧
    (s.setLink i v).fetchSeq = s.fetchSeq ∧ (s.setLink i v).pass = s.pass ∧ (s.setLink i v).evt = s.evt ∧
    (s.setLink i v).vectors = s.vectors ∧ (s.setLink i v).census = s.census ∧ (s.setLink i v).ctrs = s.ctrs ∧
    (s.setLink i v).pcie = tset s.pcie i v ∧ (s.setLink i v).slots = s.slots ∧ (s.setLink i v).stations = s.stations ∧
    (s.setLink i v).cycles = s.cycles ∧ (s.setLink i v).hops = s.hops ∧ (s.setLink i v).turns = s.turns ∧
    (s.setLink i v).turnOut = s.turnOut ∧ (s.setLink i v).tiers = s.tiers ∧ (s.setLink i v).shunter = s.shunter ∧
    (s.setLink i v).cages = s.cages ∧ (s.setLink i v).ports = s.ports ∧ (s.setLink i v).flows = s.flows ∧
    (s.setLink i v).coll = s.coll ∧ (s.setLink i v).collSlot = s.collSlot ∧ (s.setLink i v).parked = s.parked ∧
    (s.setLink i v).retireQ = s.retireQ ∧ (s.setLink i v).replay = s.replay ∧ (s.setLink i v).hostMem = s.hostMem ∧
    (s.setLink i v).txFrames = s.txFrames ∧ (s.setLink i v).msixSent = s.msixSent ∧
    (s.setLink i v).mctpSent = s.mctpSent ∧ (s.setLink i v).mctpData = s.mctpData ∧ (s.setLink i v).freeIx = s.freeIx :=
  ⟨rfl, rfl, rfl, rfl, rfl, rfl, rfl, rfl, rfl, rfl, rfl, rfl, rfl, rfl, rfl, rfl, rfl, rfl, rfl, rfl, rfl, rfl, rfl, rfl, rfl, rfl, rfl, rfl, rfl, rfl, rfl, rfl, rfl, rfl, rfl, rfl, rfl, rfl⟩

@[simp] theorem setTiers_fields (v : Tiers) :
    (s.setTiers v).pending = s.pending ∧ (s.setTiers v).part = s.part ∧ (s.setTiers v).modState = s.modState ∧
    (s.setTiers v).startup = s.startup ∧ (s.setTiers v).flash = s.flash ∧ (s.setTiers v).time = s.time ∧
    (s.setTiers v).policies = s.policies ∧ (s.setTiers v).power = s.power ∧ (s.setTiers v).queues = s.queues ∧
    (s.setTiers v).fetchSeq = s.fetchSeq ∧ (s.setTiers v).pass = s.pass ∧ (s.setTiers v).evt = s.evt ∧
    (s.setTiers v).vectors = s.vectors ∧ (s.setTiers v).census = s.census ∧ (s.setTiers v).ctrs = s.ctrs ∧
    (s.setTiers v).pcie = s.pcie ∧ (s.setTiers v).slots = s.slots ∧ (s.setTiers v).stations = s.stations ∧
    (s.setTiers v).cycles = s.cycles ∧ (s.setTiers v).hops = s.hops ∧ (s.setTiers v).turns = s.turns ∧
    (s.setTiers v).turnOut = s.turnOut ∧ (s.setTiers v).tiers = v ∧ (s.setTiers v).shunter = s.shunter ∧
    (s.setTiers v).cages = s.cages ∧ (s.setTiers v).ports = s.ports ∧ (s.setTiers v).flows = s.flows ∧
    (s.setTiers v).coll = s.coll ∧ (s.setTiers v).collSlot = s.collSlot ∧ (s.setTiers v).parked = s.parked ∧
    (s.setTiers v).retireQ = s.retireQ ∧ (s.setTiers v).replay = s.replay ∧ (s.setTiers v).hostMem = s.hostMem ∧
    (s.setTiers v).txFrames = s.txFrames ∧ (s.setTiers v).msixSent = s.msixSent ∧
    (s.setTiers v).mctpSent = s.mctpSent ∧ (s.setTiers v).mctpData = s.mctpData ∧ (s.setTiers v).freeIx = s.freeIx :=
  ⟨rfl, rfl, rfl, rfl, rfl, rfl, rfl, rfl, rfl, rfl, rfl, rfl, rfl, rfl, rfl, rfl, rfl, rfl, rfl, rfl, rfl, rfl, rfl, rfl, rfl, rfl, rfl, rfl, rfl, rfl, rfl, rfl, rfl, rfl, rfl, rfl, rfl, rfl⟩

@[simp] theorem setPower_fields (v : Power) :
    (s.setPower v).pending = s.pending ∧ (s.setPower v).part = s.part ∧ (s.setPower v).modState = s.modState ∧
    (s.setPower v).startup = s.startup ∧ (s.setPower v).flash = s.flash ∧ (s.setPower v).time = s.time ∧
    (s.setPower v).policies = s.policies ∧ (s.setPower v).power = v ∧ (s.setPower v).queues = s.queues ∧
    (s.setPower v).fetchSeq = s.fetchSeq ∧ (s.setPower v).pass = s.pass ∧ (s.setPower v).evt = s.evt ∧
    (s.setPower v).vectors = s.vectors ∧ (s.setPower v).census = s.census ∧ (s.setPower v).ctrs = s.ctrs ∧
    (s.setPower v).pcie = s.pcie ∧ (s.setPower v).slots = s.slots ∧ (s.setPower v).stations = s.stations ∧
    (s.setPower v).cycles = s.cycles ∧ (s.setPower v).hops = s.hops ∧ (s.setPower v).turns = s.turns ∧
    (s.setPower v).turnOut = s.turnOut ∧ (s.setPower v).tiers = s.tiers ∧ (s.setPower v).shunter = s.shunter ∧
    (s.setPower v).cages = s.cages ∧ (s.setPower v).ports = s.ports ∧ (s.setPower v).flows = s.flows ∧
    (s.setPower v).coll = s.coll ∧ (s.setPower v).collSlot = s.collSlot ∧ (s.setPower v).parked = s.parked ∧
    (s.setPower v).retireQ = s.retireQ ∧ (s.setPower v).replay = s.replay ∧ (s.setPower v).hostMem = s.hostMem ∧
    (s.setPower v).txFrames = s.txFrames ∧ (s.setPower v).msixSent = s.msixSent ∧
    (s.setPower v).mctpSent = s.mctpSent ∧ (s.setPower v).mctpData = s.mctpData ∧ (s.setPower v).freeIx = s.freeIx :=
  ⟨rfl, rfl, rfl, rfl, rfl, rfl, rfl, rfl, rfl, rfl, rfl, rfl, rfl, rfl, rfl, rfl, rfl, rfl, rfl, rfl, rfl, rfl, rfl, rfl, rfl, rfl, rfl, rfl, rfl, rfl, rfl, rfl, rfl, rfl, rfl, rfl, rfl, rfl⟩

@[simp] theorem setTime_fields (v : TimeKeeper) :
    (s.setTime v).pending = s.pending ∧ (s.setTime v).part = s.part ∧ (s.setTime v).modState = s.modState ∧
    (s.setTime v).startup = s.startup ∧ (s.setTime v).flash = s.flash ∧ (s.setTime v).time = v ∧
    (s.setTime v).policies = s.policies ∧ (s.setTime v).power = s.power ∧ (s.setTime v).queues = s.queues ∧
    (s.setTime v).fetchSeq = s.fetchSeq ∧ (s.setTime v).pass = s.pass ∧ (s.setTime v).evt = s.evt ∧
    (s.setTime v).vectors = s.vectors ∧ (s.setTime v).census = s.census ∧ (s.setTime v).ctrs = s.ctrs ∧
    (s.setTime v).pcie = s.pcie ∧ (s.setTime v).slots = s.slots ∧ (s.setTime v).stations = s.stations ∧
    (s.setTime v).cycles = s.cycles ∧ (s.setTime v).hops = s.hops ∧ (s.setTime v).turns = s.turns ∧
    (s.setTime v).turnOut = s.turnOut ∧ (s.setTime v).tiers = s.tiers ∧ (s.setTime v).shunter = s.shunter ∧
    (s.setTime v).cages = s.cages ∧ (s.setTime v).ports = s.ports ∧ (s.setTime v).flows = s.flows ∧
    (s.setTime v).coll = s.coll ∧ (s.setTime v).collSlot = s.collSlot ∧ (s.setTime v).parked = s.parked ∧
    (s.setTime v).retireQ = s.retireQ ∧ (s.setTime v).replay = s.replay ∧ (s.setTime v).hostMem = s.hostMem ∧
    (s.setTime v).txFrames = s.txFrames ∧ (s.setTime v).msixSent = s.msixSent ∧ (s.setTime v).mctpSent = s.mctpSent ∧
    (s.setTime v).mctpData = s.mctpData ∧ (s.setTime v).freeIx = s.freeIx :=
  ⟨rfl, rfl, rfl, rfl, rfl, rfl, rfl, rfl, rfl, rfl, rfl, rfl, rfl, rfl, rfl, rfl, rfl, rfl, rfl, rfl, rfl, rfl, rfl, rfl, rfl, rfl, rfl, rfl, rfl, rfl, rfl, rfl, rfl, rfl, rfl, rfl, rfl, rfl⟩

@[simp] theorem setFlash_fields (v : Flash) :
    (s.setFlash v).pending = s.pending ∧ (s.setFlash v).part = s.part ∧ (s.setFlash v).modState = s.modState ∧
    (s.setFlash v).startup = s.startup ∧ (s.setFlash v).flash = v ∧ (s.setFlash v).time = s.time ∧
    (s.setFlash v).policies = s.policies ∧ (s.setFlash v).power = s.power ∧ (s.setFlash v).queues = s.queues ∧
    (s.setFlash v).fetchSeq = s.fetchSeq ∧ (s.setFlash v).pass = s.pass ∧ (s.setFlash v).evt = s.evt ∧
    (s.setFlash v).vectors = s.vectors ∧ (s.setFlash v).census = s.census ∧ (s.setFlash v).ctrs = s.ctrs ∧
    (s.setFlash v).pcie = s.pcie ∧ (s.setFlash v).slots = s.slots ∧ (s.setFlash v).stations = s.stations ∧
    (s.setFlash v).cycles = s.cycles ∧ (s.setFlash v).hops = s.hops ∧ (s.setFlash v).turns = s.turns ∧
    (s.setFlash v).turnOut = s.turnOut ∧ (s.setFlash v).tiers = s.tiers ∧ (s.setFlash v).shunter = s.shunter ∧
    (s.setFlash v).cages = s.cages ∧ (s.setFlash v).ports = s.ports ∧ (s.setFlash v).flows = s.flows ∧
    (s.setFlash v).coll = s.coll ∧ (s.setFlash v).collSlot = s.collSlot ∧ (s.setFlash v).parked = s.parked ∧
    (s.setFlash v).retireQ = s.retireQ ∧ (s.setFlash v).replay = s.replay ∧ (s.setFlash v).hostMem = s.hostMem ∧
    (s.setFlash v).txFrames = s.txFrames ∧ (s.setFlash v).msixSent = s.msixSent ∧
    (s.setFlash v).mctpSent = s.mctpSent ∧ (s.setFlash v).mctpData = s.mctpData ∧ (s.setFlash v).freeIx = s.freeIx :=
  ⟨rfl, rfl, rfl, rfl, rfl, rfl, rfl, rfl, rfl, rfl, rfl, rfl, rfl, rfl, rfl, rfl, rfl, rfl, rfl, rfl, rfl, rfl, rfl, rfl, rfl, rfl, rfl, rfl, rfl, rfl, rfl, rfl, rfl, rfl, rfl, rfl, rfl, rfl⟩

@[simp] theorem setColl_fields (v : Collective) :
    (s.setColl v).pending = s.pending ∧ (s.setColl v).part = s.part ∧ (s.setColl v).modState = s.modState ∧
    (s.setColl v).startup = s.startup ∧ (s.setColl v).flash = s.flash ∧ (s.setColl v).time = s.time ∧
    (s.setColl v).policies = s.policies ∧ (s.setColl v).power = s.power ∧ (s.setColl v).queues = s.queues ∧
    (s.setColl v).fetchSeq = s.fetchSeq ∧ (s.setColl v).pass = s.pass ∧ (s.setColl v).evt = s.evt ∧
    (s.setColl v).vectors = s.vectors ∧ (s.setColl v).census = s.census ∧ (s.setColl v).ctrs = s.ctrs ∧
    (s.setColl v).pcie = s.pcie ∧ (s.setColl v).slots = s.slots ∧ (s.setColl v).stations = s.stations ∧
    (s.setColl v).cycles = s.cycles ∧ (s.setColl v).hops = s.hops ∧ (s.setColl v).turns = s.turns ∧
    (s.setColl v).turnOut = s.turnOut ∧ (s.setColl v).tiers = s.tiers ∧ (s.setColl v).shunter = s.shunter ∧
    (s.setColl v).cages = s.cages ∧ (s.setColl v).ports = s.ports ∧ (s.setColl v).flows = s.flows ∧
    (s.setColl v).coll = v ∧ (s.setColl v).collSlot = s.collSlot ∧ (s.setColl v).parked = s.parked ∧
    (s.setColl v).retireQ = s.retireQ ∧ (s.setColl v).replay = s.replay ∧ (s.setColl v).hostMem = s.hostMem ∧
    (s.setColl v).txFrames = s.txFrames ∧ (s.setColl v).msixSent = s.msixSent ∧ (s.setColl v).mctpSent = s.mctpSent ∧
    (s.setColl v).mctpData = s.mctpData ∧ (s.setColl v).freeIx = s.freeIx :=
  ⟨rfl, rfl, rfl, rfl, rfl, rfl, rfl, rfl, rfl, rfl, rfl, rfl, rfl, rfl, rfl, rfl, rfl, rfl, rfl, rfl, rfl, rfl, rfl, rfl, rfl, rfl, rfl, rfl, rfl, rfl, rfl, rfl, rfl, rfl, rfl, rfl, rfl, rfl⟩

@[simp] theorem setStartup_fields (v : Startup) :
    (s.setStartup v).pending = s.pending ∧ (s.setStartup v).part = s.part ∧ (s.setStartup v).modState = s.modState ∧
    (s.setStartup v).startup = v ∧ (s.setStartup v).flash = s.flash ∧ (s.setStartup v).time = s.time ∧
    (s.setStartup v).policies = s.policies ∧ (s.setStartup v).power = s.power ∧ (s.setStartup v).queues = s.queues ∧
    (s.setStartup v).fetchSeq = s.fetchSeq ∧ (s.setStartup v).pass = s.pass ∧ (s.setStartup v).evt = s.evt ∧
    (s.setStartup v).vectors = s.vectors ∧ (s.setStartup v).census = s.census ∧ (s.setStartup v).ctrs = s.ctrs ∧
    (s.setStartup v).pcie = s.pcie ∧ (s.setStartup v).slots = s.slots ∧ (s.setStartup v).stations = s.stations ∧
    (s.setStartup v).cycles = s.cycles ∧ (s.setStartup v).hops = s.hops ∧ (s.setStartup v).turns = s.turns ∧
    (s.setStartup v).turnOut = s.turnOut ∧ (s.setStartup v).tiers = s.tiers ∧ (s.setStartup v).shunter = s.shunter ∧
    (s.setStartup v).cages = s.cages ∧ (s.setStartup v).ports = s.ports ∧ (s.setStartup v).flows = s.flows ∧
    (s.setStartup v).coll = s.coll ∧ (s.setStartup v).collSlot = s.collSlot ∧ (s.setStartup v).parked = s.parked ∧
    (s.setStartup v).retireQ = s.retireQ ∧ (s.setStartup v).replay = s.replay ∧ (s.setStartup v).hostMem = s.hostMem ∧
    (s.setStartup v).txFrames = s.txFrames ∧ (s.setStartup v).msixSent = s.msixSent ∧
    (s.setStartup v).mctpSent = s.mctpSent ∧ (s.setStartup v).mctpData = s.mctpData ∧
    (s.setStartup v).freeIx = s.freeIx :=
  ⟨rfl, rfl, rfl, rfl, rfl, rfl, rfl, rfl, rfl, rfl, rfl, rfl, rfl, rfl, rfl, rfl, rfl, rfl, rfl, rfl, rfl, rfl, rfl, rfl, rfl, rfl, rfl, rfl, rfl, rfl, rfl, rfl, rfl, rfl, rfl, rfl, rfl, rfl⟩

@[simp] theorem advanceSc_fields (p n : Nat) :
    (s.advanceSc p n).pending = s.pending ∧ (s.advanceSc p n).part = s.part ∧ (s.advanceSc p n).modState = s.modState ∧
    (s.advanceSc p n).startup = s.startup ∧ (s.advanceSc p n).flash = s.flash ∧ (s.advanceSc p n).time = s.time ∧
    (s.advanceSc p n).policies = s.policies ∧ (s.advanceSc p n).power = s.power ∧ (s.advanceSc p n).queues = s.queues ∧
    (s.advanceSc p n).fetchSeq = s.fetchSeq ∧ (s.advanceSc p n).pass = s.pass ∧ (s.advanceSc p n).evt = s.evt ∧
    (s.advanceSc p n).vectors = s.vectors ∧ (s.advanceSc p n).census = s.census ∧ (s.advanceSc p n).ctrs = s.ctrs ∧
    (s.advanceSc p n).pcie = s.pcie ∧ (s.advanceSc p n).slots = s.slots ∧ (s.advanceSc p n).stations = s.stations ∧
    (s.advanceSc p n).cycles = tset s.cycles p (max (s.cycle p) n) ∧ (s.advanceSc p n).hops = s.hops ∧
    (s.advanceSc p n).turns = s.turns ∧ (s.advanceSc p n).turnOut = s.turnOut ∧ (s.advanceSc p n).tiers = s.tiers ∧
    (s.advanceSc p n).shunter = s.shunter ∧ (s.advanceSc p n).cages = s.cages ∧ (s.advanceSc p n).ports = s.ports ∧
    (s.advanceSc p n).flows = s.flows ∧ (s.advanceSc p n).coll = s.coll ∧ (s.advanceSc p n).collSlot = s.collSlot ∧
    (s.advanceSc p n).parked = s.parked ∧ (s.advanceSc p n).retireQ = s.retireQ ∧ (s.advanceSc p n).replay = s.replay ∧
    (s.advanceSc p n).hostMem = s.hostMem ∧ (s.advanceSc p n).txFrames = s.txFrames ∧
    (s.advanceSc p n).msixSent = s.msixSent ∧ (s.advanceSc p n).mctpSent = s.mctpSent ∧
    (s.advanceSc p n).mctpData = s.mctpData ∧ (s.advanceSc p n).freeIx = s.freeIx :=
  ⟨rfl, rfl, rfl, rfl, rfl, rfl, rfl, rfl, rfl, rfl, rfl, rfl, rfl, rfl, rfl, rfl, rfl, rfl, rfl, rfl, rfl, rfl, rfl, rfl, rfl, rfl, rfl, rfl, rfl, rfl, rfl, rfl, rfl, rfl, rfl, rfl, rfl, rfl⟩

@[simp] theorem hostWrite_fields (a : Nat) (bs : List Byte) :
    (s.hostWrite a bs).pending = s.pending ∧ (s.hostWrite a bs).part = s.part ∧
    (s.hostWrite a bs).modState = s.modState ∧ (s.hostWrite a bs).startup = s.startup ∧
    (s.hostWrite a bs).flash = s.flash ∧ (s.hostWrite a bs).time = s.time ∧ (s.hostWrite a bs).policies = s.policies ∧
    (s.hostWrite a bs).power = s.power ∧ (s.hostWrite a bs).queues = s.queues ∧
    (s.hostWrite a bs).fetchSeq = s.fetchSeq ∧ (s.hostWrite a bs).pass = s.pass ∧ (s.hostWrite a bs).evt = s.evt ∧
    (s.hostWrite a bs).vectors = s.vectors ∧ (s.hostWrite a bs).census = s.census ∧ (s.hostWrite a bs).ctrs = s.ctrs ∧
    (s.hostWrite a bs).pcie = s.pcie ∧ (s.hostWrite a bs).slots = s.slots ∧ (s.hostWrite a bs).stations = s.stations ∧
    (s.hostWrite a bs).cycles = s.cycles ∧ (s.hostWrite a bs).hops = s.hops ∧ (s.hostWrite a bs).turns = s.turns ∧
    (s.hostWrite a bs).turnOut = s.turnOut ∧ (s.hostWrite a bs).tiers = s.tiers ∧
    (s.hostWrite a bs).shunter = s.shunter ∧ (s.hostWrite a bs).cages = s.cages ∧ (s.hostWrite a bs).ports = s.ports ∧
    (s.hostWrite a bs).flows = s.flows ∧ (s.hostWrite a bs).coll = s.coll ∧ (s.hostWrite a bs).collSlot = s.collSlot ∧
    (s.hostWrite a bs).parked = s.parked ∧ (s.hostWrite a bs).retireQ = s.retireQ ∧
    (s.hostWrite a bs).replay = s.replay ∧ (s.hostWrite a bs).hostMem = memWriteBytes s.hostMem a bs ∧
    (s.hostWrite a bs).txFrames = s.txFrames ∧ (s.hostWrite a bs).msixSent = s.msixSent ∧
    (s.hostWrite a bs).mctpSent = s.mctpSent ∧ (s.hostWrite a bs).mctpData = s.mctpData ∧
    (s.hostWrite a bs).freeIx = s.freeIx :=
  ⟨rfl, rfl, rfl, rfl, rfl, rfl, rfl, rfl, rfl, rfl, rfl, rfl, rfl, rfl, rfl, rfl, rfl, rfl, rfl, rfl, rfl, rfl, rfl, rfl, rfl, rfl, rfl, rfl, rfl, rfl, rfl, rfl, rfl, rfl, rfl, rfl, rfl, rfl⟩

@[simp] theorem raiseVec_fields (v : Nat) :
    (s.raiseVec v).pending = s.pending ∧ (s.raiseVec v).part = s.part ∧ (s.raiseVec v).modState = s.modState ∧
    (s.raiseVec v).startup = s.startup ∧ (s.raiseVec v).flash = s.flash ∧ (s.raiseVec v).time = s.time ∧
    (s.raiseVec v).policies = s.policies ∧ (s.raiseVec v).power = s.power ∧ (s.raiseVec v).queues = s.queues ∧
    (s.raiseVec v).fetchSeq = s.fetchSeq ∧ (s.raiseVec v).pass = s.pass ∧ (s.raiseVec v).evt = s.evt ∧
    (s.raiseVec v).vectors = tset s.vectors v { s.vector v with pending := true } ∧ (s.raiseVec v).census = s.census ∧
    (s.raiseVec v).ctrs = s.ctrs ∧ (s.raiseVec v).pcie = s.pcie ∧ (s.raiseVec v).slots = s.slots ∧
    (s.raiseVec v).stations = s.stations ∧ (s.raiseVec v).cycles = s.cycles ∧ (s.raiseVec v).hops = s.hops ∧
    (s.raiseVec v).turns = s.turns ∧ (s.raiseVec v).turnOut = s.turnOut ∧ (s.raiseVec v).tiers = s.tiers ∧
    (s.raiseVec v).shunter = s.shunter ∧ (s.raiseVec v).cages = s.cages ∧ (s.raiseVec v).ports = s.ports ∧
    (s.raiseVec v).flows = s.flows ∧ (s.raiseVec v).coll = s.coll ∧ (s.raiseVec v).collSlot = s.collSlot ∧
    (s.raiseVec v).parked = s.parked ∧ (s.raiseVec v).retireQ = s.retireQ ∧ (s.raiseVec v).replay = s.replay ∧
    (s.raiseVec v).hostMem = s.hostMem ∧ (s.raiseVec v).txFrames = s.txFrames ∧ (s.raiseVec v).msixSent = s.msixSent ∧
    (s.raiseVec v).mctpSent = s.mctpSent ∧ (s.raiseVec v).mctpData = s.mctpData ∧ (s.raiseVec v).freeIx = s.freeIx :=
  ⟨rfl, rfl, rfl, rfl, rfl, rfl, rfl, rfl, rfl, rfl, rfl, rfl, rfl, rfl, rfl, rfl, rfl, rfl, rfl, rfl, rfl, rfl, rfl, rfl, rfl, rfl, rfl, rfl, rfl, rfl, rfl, rfl, rfl, rfl, rfl, rfl, rfl, rfl⟩

@[simp] theorem count_fields (c : Ctr) (i n : Nat) :
    (s.count c i n).pending = s.pending ∧ (s.count c i n).part = s.part ∧ (s.count c i n).modState = s.modState ∧
    (s.count c i n).startup = s.startup ∧ (s.count c i n).flash = s.flash ∧ (s.count c i n).time = s.time ∧
    (s.count c i n).policies = s.policies ∧ (s.count c i n).power = s.power ∧ (s.count c i n).queues = s.queues ∧
    (s.count c i n).fetchSeq = s.fetchSeq ∧ (s.count c i n).pass = s.pass ∧ (s.count c i n).evt = s.evt ∧
    (s.count c i n).vectors = s.vectors ∧ (s.count c i n).census = s.census ∧
    (s.count c i n).ctrs = ctrSet s.ctrs c i ((s.ctr c i).add c n) ∧ (s.count c i n).pcie = s.pcie ∧
    (s.count c i n).slots = s.slots ∧ (s.count c i n).stations = s.stations ∧ (s.count c i n).cycles = s.cycles ∧
    (s.count c i n).hops = s.hops ∧ (s.count c i n).turns = s.turns ∧ (s.count c i n).turnOut = s.turnOut ∧
    (s.count c i n).tiers = s.tiers ∧ (s.count c i n).shunter = s.shunter ∧ (s.count c i n).cages = s.cages ∧
    (s.count c i n).ports = s.ports ∧ (s.count c i n).flows = s.flows ∧ (s.count c i n).coll = s.coll ∧
    (s.count c i n).collSlot = s.collSlot ∧ (s.count c i n).parked = s.parked ∧ (s.count c i n).retireQ = s.retireQ ∧
    (s.count c i n).replay = s.replay ∧ (s.count c i n).hostMem = s.hostMem ∧ (s.count c i n).txFrames = s.txFrames ∧
    (s.count c i n).msixSent = s.msixSent ∧ (s.count c i n).mctpSent = s.mctpSent ∧
    (s.count c i n).mctpData = s.mctpData ∧ (s.count c i n).freeIx = s.freeIx :=
  ⟨rfl, rfl, rfl, rfl, rfl, rfl, rfl, rfl, rfl, rfl, rfl, rfl, rfl, rfl, rfl, rfl, rfl, rfl, rfl, rfl, rfl, rfl, rfl, rfl, rfl, rfl, rfl, rfl, rfl, rfl, rfl, rfl, rfl, rfl, rfl, rfl, rfl, rfl⟩

@[simp] theorem signal_fields (k : Nat) (g : Signal) :
    (s.signal k g).pending = s.pending ∧ (s.signal k g).part = s.part ∧ (s.signal k g).modState = s.modState ∧
    (s.signal k g).startup = s.startup ∧ (s.signal k g).flash = s.flash ∧ (s.signal k g).time = s.time ∧
    (s.signal k g).policies = s.policies ∧ (s.signal k g).power = s.power ∧ (s.signal k g).queues = s.queues ∧
    (s.signal k g).fetchSeq = s.fetchSeq ∧ (s.signal k g).pass = s.pass ∧ (s.signal k g).evt = s.evt ∧
    (s.signal k g).vectors = s.vectors ∧ (s.signal k g).census = s.census ∧ (s.signal k g).ctrs = s.ctrs ∧
    (s.signal k g).pcie = s.pcie ∧ (s.signal k g).slots = s.slots ∧
    (s.signal k g).stations = tset s.stations k { s.station k with transit := (s.station k).transit ++ [g] } ∧
    (s.signal k g).cycles = s.cycles ∧ (s.signal k g).hops = s.hops ∧ (s.signal k g).turns = s.turns ∧
    (s.signal k g).turnOut = s.turnOut ∧ (s.signal k g).tiers = s.tiers ∧ (s.signal k g).shunter = s.shunter ∧
    (s.signal k g).cages = s.cages ∧ (s.signal k g).ports = s.ports ∧ (s.signal k g).flows = s.flows ∧
    (s.signal k g).coll = s.coll ∧ (s.signal k g).collSlot = s.collSlot ∧ (s.signal k g).parked = s.parked ∧
    (s.signal k g).retireQ = s.retireQ ∧ (s.signal k g).replay = s.replay ∧ (s.signal k g).hostMem = s.hostMem ∧
    (s.signal k g).txFrames = s.txFrames ∧ (s.signal k g).msixSent = s.msixSent ∧
    (s.signal k g).mctpSent = s.mctpSent ∧ (s.signal k g).mctpData = s.mctpData ∧ (s.signal k g).freeIx = s.freeIx :=
  ⟨rfl, rfl, rfl, rfl, rfl, rfl, rfl, rfl, rfl, rfl, rfl, rfl, rfl, rfl, rfl, rfl, rfl, rfl, rfl, rfl, rfl, rfl, rfl, rfl, rfl, rfl, rfl, rfl, rfl, rfl, rfl, rfl, rfl, rfl, rfl, rfl, rfl, rfl⟩

@[simp] theorem engineSignal_fields (k t : Nat) :
    (s.engineSignal k t).pending = s.pending ∧ (s.engineSignal k t).part = s.part ∧
    (s.engineSignal k t).modState = s.modState ∧ (s.engineSignal k t).startup = s.startup ∧
    (s.engineSignal k t).flash = s.flash ∧ (s.engineSignal k t).time = s.time ∧
    (s.engineSignal k t).policies = s.policies ∧ (s.engineSignal k t).power = s.power ∧
    (s.engineSignal k t).queues = s.queues ∧ (s.engineSignal k t).fetchSeq = s.fetchSeq ∧
    (s.engineSignal k t).pass = s.pass ∧ (s.engineSignal k t).evt = s.evt ∧ (s.engineSignal k t).vectors = s.vectors ∧
    (s.engineSignal k t).census = s.census ∧ (s.engineSignal k t).ctrs = s.ctrs ∧ (s.engineSignal k t).pcie = s.pcie ∧
    (s.engineSignal k t).slots = s.slots ∧ (s.engineSignal k t).cycles = s.cycles ∧
    (s.engineSignal k t).hops = s.hops ∧ (s.engineSignal k t).turns = s.turns ∧
    (s.engineSignal k t).turnOut = s.turnOut ∧ (s.engineSignal k t).tiers = s.tiers ∧
    (s.engineSignal k t).shunter = s.shunter ∧ (s.engineSignal k t).cages = s.cages ∧
    (s.engineSignal k t).ports = s.ports ∧ (s.engineSignal k t).flows = s.flows ∧ (s.engineSignal k t).coll = s.coll ∧
    (s.engineSignal k t).collSlot = s.collSlot ∧ (s.engineSignal k t).parked = s.parked ∧
    (s.engineSignal k t).retireQ = s.retireQ ∧ (s.engineSignal k t).replay = s.replay ∧
    (s.engineSignal k t).hostMem = s.hostMem ∧ (s.engineSignal k t).txFrames = s.txFrames ∧
    (s.engineSignal k t).msixSent = s.msixSent ∧ (s.engineSignal k t).mctpSent = s.mctpSent ∧
    (s.engineSignal k t).mctpData = s.mctpData ∧ (s.engineSignal k t).freeIx = s.freeIx :=
  ⟨rfl, rfl, rfl, rfl, rfl, rfl, rfl, rfl, rfl, rfl, rfl, rfl, rfl, rfl, rfl, rfl, rfl, rfl, rfl, rfl, rfl, rfl, rfl, rfl, rfl, rfl, rfl, rfl, rfl, rfl, rfl, rfl, rfl, rfl, rfl, rfl, rfl⟩

/-- Line time after an advance (R139): it runs only with the main rails up, and never steps back. -/
@[simp] theorem advance_fields (n : Nat) :
    (s.advance n).pending = s.pending ∧ (s.advance n).part = s.part ∧ (s.advance n).modState = s.modState ∧
    (s.advance n).startup = s.startup ∧ (s.advance n).flash = s.flash ∧ (s.advance n).policies = s.policies ∧
    (s.advance n).power = s.power ∧ (s.advance n).queues = s.queues ∧ (s.advance n).fetchSeq = s.fetchSeq ∧
    (s.advance n).pass = s.pass ∧ (s.advance n).evt = s.evt ∧ (s.advance n).vectors = s.vectors ∧
    (s.advance n).census = s.census ∧ (s.advance n).ctrs = s.ctrs ∧ (s.advance n).pcie = s.pcie ∧
    (s.advance n).slots = s.slots ∧ (s.advance n).stations = s.stations ∧ (s.advance n).cycles = s.cycles ∧
    (s.advance n).hops = s.hops ∧ (s.advance n).turns = s.turns ∧ (s.advance n).turnOut = s.turnOut ∧
    (s.advance n).tiers = s.tiers ∧ (s.advance n).shunter = s.shunter ∧ (s.advance n).cages = s.cages ∧
    (s.advance n).ports = s.ports ∧ (s.advance n).flows = s.flows ∧ (s.advance n).coll = s.coll ∧
    (s.advance n).collSlot = s.collSlot ∧ (s.advance n).parked = s.parked ∧ (s.advance n).retireQ = s.retireQ ∧
    (s.advance n).replay = s.replay ∧ (s.advance n).hostMem = s.hostMem ∧ (s.advance n).txFrames = s.txFrames ∧
    (s.advance n).msixSent = s.msixSent ∧ (s.advance n).mctpSent = s.mctpSent ∧ (s.advance n).mctpData = s.mctpData ∧
    (s.advance n).freeIx = s.freeIx := by
  unfold State.advance; split <;> exact ⟨rfl, rfl, rfl, rfl, rfl, rfl, rfl, rfl, rfl, rfl, rfl, rfl, rfl, rfl, rfl, rfl, rfl, rfl, rfl, rfl, rfl, rfl, rfl, rfl, rfl, rfl, rfl, rfl, rfl, rfl, rfl, rfl, rfl, rfl, rfl, rfl, rfl⟩

theorem advance_lt (n : Nat) : (s.advance n).time.lt = if s.timeRuns then max s.time.lt n else s.time.lt := by
  unfold State.advance; split <;> rfl

theorem le_advance_lt (n : Nat) : s.time.lt ≤ (s.advance n).time.lt := by
  rw [advance_lt]; split <;> omega

@[simp] theorem advance_time_fields (n : Nat) :
    (s.advance n).time.state = s.time.state ∧ (s.advance n).time.source = s.time.source ∧
    (s.advance n).time.transport = s.time.transport ∧ (s.advance n).time.domain = s.time.domain ∧
    (s.advance n).time.refFreq = s.time.refFreq ∧ (s.advance n).time.primary = s.time.primary ∧
    (s.advance n).time.secondary = s.time.secondary ∧ (s.advance n).time.onSecondary = s.time.onSecondary ∧
    (s.advance n).time.holdoverMs = s.time.holdoverMs ∧ (s.advance n).time.ppsLt = s.time.ppsLt ∧
    (s.advance n).time.goodRun = s.time.goodRun ∧ (s.advance n).time.offset = s.time.offset ∧
    (s.advance n).time.secGood = s.time.secGood ∧ (s.advance n).time.holdoverFrom = s.time.holdoverFrom ∧
    (s.advance n).time.slewPpm = s.time.slewPpm ∧ (s.advance n).time.followDue = s.time.followDue ∧
    (s.advance n).time.syncLt = s.time.syncLt ∧ (s.advance n).time.syncLog = s.time.syncLog ∧
    (s.advance n).time.copies = s.time.copies := by
  unfold State.advance; split <;> exact ⟨rfl, rfl, rfl, rfl, rfl, rfl, rfl, rfl, rfl, rfl, rfl, rfl, rfl, rfl, rfl, rfl, rfl, rfl, rfl⟩

theorem slot_setSlot (i j : Nat) (v : Slot) : (s.setSlot i v).slot j = if j = i then v else s.slot j := tget_tset Slot.init s.slots i j v
@[simp] theorem slot_setSlot_self (i : Nat) (v : Slot) : (s.setSlot i v).slot i = v := by simp [slot_setSlot]

theorem station_setStation (i j : Nat) (v : Station) : (s.setStation i v).station j = if j = i then v else s.station j := tget_tset Station.init s.stations i j v
@[simp] theorem station_setStation_self (i : Nat) (v : Station) : (s.setStation i v).station i = v := by simp [station_setStation]

theorem queue_setQueue (i j : Nat) (v : Queue) : (s.setQueue i v).queue j = if j = i then v else s.queue j := tget_tset Queue.init s.queues i j v
@[simp] theorem queue_setQueue_self (i : Nat) (v : Queue) : (s.setQueue i v).queue i = v := by simp [queue_setQueue]

theorem cage_setCage (i j : Nat) (v : Cage) : (s.setCage i v).cage j = if j = i then v else s.cage j := tget_tset Cage.init s.cages i j v
@[simp] theorem cage_setCage_self (i : Nat) (v : Cage) : (s.setCage i v).cage i = v := by simp [cage_setCage]

theorem port_setPort (i j : Nat) (v : Port) : (s.setPort i v).port j = if j = i then v else s.port j := tget_tset Port.init s.ports i j v
@[simp] theorem port_setPort_self (i : Nat) (v : Port) : (s.setPort i v).port i = v := by simp [port_setPort]

theorem flow_setFlow (i j : Nat) (v : Flow) : (s.setFlow i v).flow j = if j = i then v else s.flow j := tget_tset Flow.init s.flows i j v
@[simp] theorem flow_setFlow_self (i : Nat) (v : Flow) : (s.setFlow i v).flow i = v := by simp [flow_setFlow]

theorem vector_setVector (i j : Nat) (v : Vector) : (s.setVector i v).vector j = if j = i then v else s.vector j := tget_tset Vector.init s.vectors i j v
@[simp] theorem vector_setVector_self (i : Nat) (v : Vector) : (s.setVector i v).vector i = v := by simp [vector_setVector]

theorem link_setLink (i j : Nat) (v : Pcie) : (s.setLink i v).link j = if j = i then v else s.link j := tget_tset Pcie.init s.pcie i j v
@[simp] theorem link_setLink_self (i : Nat) (v : Pcie) : (s.setLink i v).link i = v := by simp [link_setLink]

theorem slot_modSlot (i j : Nat) (f : Slot → Slot) : (s.modSlot i f).slot j = if j = i then f (s.slot i) else s.slot j := tget_tset Slot.init s.slots i j _
@[simp] theorem slot_modSlot_self (i : Nat) (f : Slot → Slot) : (s.modSlot i f).slot i = f (s.slot i) := by simp [slot_modSlot]

theorem station_modStation (i j : Nat) (f : Station → Station) : (s.modStation i f).station j = if j = i then f (s.station i) else s.station j := tget_tset Station.init s.stations i j _
@[simp] theorem station_modStation_self (i : Nat) (f : Station → Station) : (s.modStation i f).station i = f (s.station i) := by simp [station_modStation]

theorem queue_modQueue (i j : Nat) (f : Queue → Queue) : (s.modQueue i f).queue j = if j = i then f (s.queue i) else s.queue j := tget_tset Queue.init s.queues i j _
@[simp] theorem queue_modQueue_self (i : Nat) (f : Queue → Queue) : (s.modQueue i f).queue i = f (s.queue i) := by simp [queue_modQueue]

theorem flow_modFlow (i j : Nat) (f : Flow → Flow) : (s.modFlow i f).flow j = if j = i then f (s.flow i) else s.flow j := tget_tset Flow.init s.flows i j _
@[simp] theorem flow_modFlow_self (i : Nat) (f : Flow → Flow) : (s.modFlow i f).flow i = f (s.flow i) := by simp [flow_modFlow]

theorem hop_setHop (p l q m : Nat) (v : Hop) :
    (s.setHop p l v).hop q m = if 2 * q + m = 2 * p + l then v else s.hop q m :=
  tget_tset { Hop.init with credits := hopCredits s.flash.retired q m } s.hops (2 * p + l) (2 * q + m) v

@[simp] theorem hop_setHop_self (p l : Nat) (v : Hop) : (s.setHop p l v).hop p l = v := by simp [hop_setHop]

theorem cycle_advanceSc (p n q : Nat) :
    (s.advanceSc p n).cycle q = if q = p then max (s.cycle p) n else s.cycle q := tget_tset 0 s.cycles p q _

/-- A counter reads as what was stored, and the others as before. -/
theorem ctrGet_ctrSet (t : List ((Ctr × Nat) × CtrVal)) (c d : Ctr) (i j : Nat) (v : CtrVal) :
    ctrGet (ctrSet t c i v) d j = if d = c ∧ j = i then v else ctrGet t d j := by
  induction t with
  | nil => by_cases h : d = c ∧ j = i <;> simp_all [ctrSet, ctrGet, eq_comm]
  | cons e t ih =>
    obtain ⟨⟨a, b⟩, w⟩ := e
    by_cases h1 : (a, b) = (c, i)
    · simp only [Prod.mk.injEq] at h1
      obtain ⟨rfl, rfl⟩ := h1
      by_cases h : d = a ∧ j = b
      · simp [ctrSet, ctrGet, h]
      · have : ¬ (a = d ∧ b = j) := fun x => h ⟨x.1.symm, x.2.symm⟩
        simp [ctrSet, ctrGet, h, this]
    · by_cases h : (a, b) = (d, j)
      · simp only [Prod.mk.injEq] at h
        obtain ⟨rfl, rfl⟩ := h
        have h2 : ¬ (a = c ∧ b = i) := by simpa using h1
        simp [ctrSet, ctrGet, h2]
      · have h2 : ¬ (a = c ∧ b = i) := by simpa using h1
        have h3 : ¬ (a = d ∧ b = j) := by simpa using h
        simp [ctrSet, ctrGet, h2, h3, ih]

theorem ctr_count (c d : Ctr) (i j n : Nat) :
    (s.count c i n).ctr d j = if d = c ∧ j = i then (s.ctr c i).add c n else s.ctr d j := ctrGet_ctrSet s.ctrs c d i j _

end Sys2Proof.Laws
end

