-- ==== Sys2Proof/Laws/Ops.lean ====
section
/-! SUPPORT. Everything that the shared operations of Machine/Ops.lean can do: which fields each may touch, and that host memory
keeps its canonical form. -/

namespace Sys2Proof.Laws

open Sys2Proof Sys2Proof.Machine

/-- `t` is `s` but for the module's books: counters, the event ring, the vectors, and what they wrote in host memory. -/
def Logged (s t : State) : Prop :=
  ∃ c e h v, t = { s with ctrs := c, evt := e, hostMem := h, vectors := v } ∧ (Memory.wf s.hostMem = true → Memory.wf h = true)

/-- `t` is `s` but for those books, the queues and the replies. -/
def Replied (s t : State) : Prop :=
  ∃ c e h v q m d, t = { s with ctrs := c, evt := e, hostMem := h, vectors := v, queues := q, mctpSent := m, mctpData := d } ∧
    (Memory.wf s.hostMem = true → Memory.wf h = true)

/-- `t` is `s` but for those, the Census and what a stop or a bad step writes in the slots. -/
def Stopped (s t : State) : Prop :=
  ∃ c e h v q m d n l r, t = { s with ctrs := c, evt := e, hostMem := h, vectors := v, queues := q, mctpSent := m, mctpData := d,
                                      census := n, slots := l, replay := r } ∧
    (Memory.wf s.hostMem = true → Memory.wf h = true)

variable {s t u : State}

theorem Logged.refl (s : State) : Logged s s := ⟨_, _, _, _, rfl, id⟩
theorem Logged.trans (h : Logged s t) (k : Logged t u) : Logged s u := by
  obtain ⟨_, _, _, _, rfl, h⟩ := h
  obtain ⟨_, _, _, _, rfl, k⟩ := k
  exact ⟨_, _, _, _, rfl, fun x => k (h x)⟩
theorem Replied.refl (s : State) : Replied s s := ⟨_, _, _, _, _, _, _, rfl, id⟩
theorem Replied.trans (h : Replied s t) (k : Replied t u) : Replied s u := by
  obtain ⟨_, _, _, _, _, _, _, rfl, h⟩ := h
  obtain ⟨_, _, _, _, _, _, _, rfl, k⟩ := k
  exact ⟨_, _, _, _, _, _, _, rfl, fun x => k (h x)⟩
theorem Logged.replied (h : Logged s t) : Replied s t := by
  obtain ⟨_, _, _, _, rfl, h⟩ := h
  exact ⟨_, _, _, _, _, _, _, rfl, h⟩
theorem Stopped.refl (s : State) : Stopped s s := ⟨_, _, _, _, _, _, _, _, _, _, rfl, id⟩
theorem Stopped.trans (h : Stopped s t) (k : Stopped t u) : Stopped s u := by
  obtain ⟨_, _, _, _, _, _, _, _, _, _, rfl, h⟩ := h
  obtain ⟨_, _, _, _, _, _, _, _, _, _, rfl, k⟩ := k
  exact ⟨_, _, _, _, _, _, _, _, _, _, rfl, fun x => k (h x)⟩
theorem Replied.stopped (h : Replied s t) : Stopped s t := by
  obtain ⟨_, _, _, _, _, _, _, rfl, h⟩ := h
  exact ⟨_, _, _, _, _, _, _, _, _, _, rfl, h⟩
theorem Logged.stopped (h : Logged s t) : Stopped s t := h.replied.stopped

/-- The fields that stay. -/
theorem Logged.fields (h : Logged s t) :
    t.pending = s.pending ∧ t.part = s.part ∧ t.modState = s.modState ∧ t.startup = s.startup ∧ t.flash = s.flash ∧
    t.time = s.time ∧ t.policies = s.policies ∧ t.power = s.power ∧ t.queues = s.queues ∧ t.fetchSeq = s.fetchSeq ∧
    t.pass = s.pass ∧ t.census = s.census ∧ t.pcie = s.pcie ∧ t.slots = s.slots ∧ t.stations = s.stations ∧
    t.cycles = s.cycles ∧ t.hops = s.hops ∧ t.turns = s.turns ∧ t.turnOut = s.turnOut ∧ t.tiers = s.tiers ∧
    t.shunter = s.shunter ∧ t.cages = s.cages ∧ t.ports = s.ports ∧ t.flows = s.flows ∧ t.coll = s.coll ∧
    t.collSlot = s.collSlot ∧ t.parked = s.parked ∧ t.retireQ = s.retireQ ∧ t.replay = s.replay ∧
    t.txFrames = s.txFrames ∧ t.msixSent = s.msixSent ∧ t.mctpSent = s.mctpSent ∧ t.mctpData = s.mctpData ∧
    t.freeIx = s.freeIx := by
  obtain ⟨_, _, _, _, rfl, _⟩ := h
  exact ⟨rfl, rfl, rfl, rfl, rfl, rfl, rfl, rfl, rfl, rfl, rfl, rfl, rfl, rfl, rfl, rfl, rfl, rfl, rfl, rfl, rfl, rfl, rfl, rfl, rfl, rfl, rfl, rfl, rfl, rfl, rfl, rfl, rfl, rfl⟩

theorem Logged.hostWf (h : Logged s t) (w : Memory.wf s.hostMem = true) : Memory.wf t.hostMem = true := by
  obtain ⟨_, _, _, _, rfl, k⟩ := h
  exact k w

/-- The fields that stay. -/
theorem Replied.fields (h : Replied s t) :
    t.pending = s.pending ∧ t.part = s.part ∧ t.modState = s.modState ∧ t.startup = s.startup ∧ t.flash = s.flash ∧
    t.time = s.time ∧ t.policies = s.policies ∧ t.power = s.power ∧ t.fetchSeq = s.fetchSeq ∧ t.pass = s.pass ∧
    t.census = s.census ∧ t.pcie = s.pcie ∧ t.slots = s.slots ∧ t.stations = s.stations ∧ t.cycles = s.cycles ∧
    t.hops = s.hops ∧ t.turns = s.turns ∧ t.turnOut = s.turnOut ∧ t.tiers = s.tiers ∧ t.shunter = s.shunter ∧
    t.cages = s.cages ∧ t.ports = s.ports ∧ t.flows = s.flows ∧ t.coll = s.coll ∧ t.collSlot = s.collSlot ∧
    t.parked = s.parked ∧ t.retireQ = s.retireQ ∧ t.replay = s.replay ∧ t.txFrames = s.txFrames ∧
    t.msixSent = s.msixSent ∧ t.freeIx = s.freeIx := by
  obtain ⟨_, _, _, _, _, _, _, rfl, _⟩ := h
  exact ⟨rfl, rfl, rfl, rfl, rfl, rfl, rfl, rfl, rfl, rfl, rfl, rfl, rfl, rfl, rfl, rfl, rfl, rfl, rfl, rfl, rfl, rfl, rfl, rfl, rfl, rfl, rfl, rfl, rfl, rfl, rfl⟩

theorem Replied.hostWf (h : Replied s t) (w : Memory.wf s.hostMem = true) : Memory.wf t.hostMem = true := by
  obtain ⟨_, _, _, _, _, _, _, rfl, k⟩ := h
  exact k w

/-- The fields that stay. -/
theorem Stopped.fields (h : Stopped s t) :
    t.pending = s.pending ∧ t.part = s.part ∧ t.modState = s.modState ∧ t.startup = s.startup ∧ t.flash = s.flash ∧
    t.time = s.time ∧ t.policies = s.policies ∧ t.power = s.power ∧ t.fetchSeq = s.fetchSeq ∧ t.pass = s.pass ∧
    t.pcie = s.pcie ∧ t.stations = s.stations ∧ t.cycles = s.cycles ∧ t.hops = s.hops ∧ t.turns = s.turns ∧
    t.turnOut = s.turnOut ∧ t.tiers = s.tiers ∧ t.shunter = s.shunter ∧ t.cages = s.cages ∧ t.ports = s.ports ∧
    t.flows = s.flows ∧ t.coll = s.coll ∧ t.collSlot = s.collSlot ∧ t.parked = s.parked ∧ t.retireQ = s.retireQ ∧
    t.txFrames = s.txFrames ∧ t.msixSent = s.msixSent ∧ t.freeIx = s.freeIx := by
  obtain ⟨_, _, _, _, _, _, _, _, _, _, rfl, _⟩ := h
  exact ⟨rfl, rfl, rfl, rfl, rfl, rfl, rfl, rfl, rfl, rfl, rfl, rfl, rfl, rfl, rfl, rfl, rfl, rfl, rfl, rfl, rfl, rfl, rfl, rfl, rfl, rfl, rfl, rfl⟩

theorem Stopped.hostWf (h : Stopped s t) (w : Memory.wf s.hostMem = true) : Memory.wf t.hostMem = true := by
  obtain ⟨_, _, _, _, _, _, _, _, _, _, rfl, k⟩ := h
  exact k w

/-- A fold of operations does what each of them may do. -/
theorem logged_foldl {β : Type} (f : State → β → State) (h : ∀ s x, Logged s (f s x)) (l : List β) (s : State) :
    Logged s (l.foldl f s) := by
  induction l generalizing s with
  | nil => exact .refl s
  | cons a t ih => exact (h s a).trans (ih _)

theorem replied_foldl {β : Type} (f : State → β → State) (h : ∀ s x, Replied s (f s x)) (l : List β) (s : State) :
    Replied s (l.foldl f s) := by
  induction l generalizing s with
  | nil => exact .refl s
  | cons a t ih => exact (h s a).trans (ih _)

variable (s)

theorem hostWrite_logged (a : Nat) (bs : List Byte) : Logged s (s.hostWrite a bs) :=
  ⟨_, _, _, _, rfl, memWriteBytes_wf _ _ _⟩

theorem count_logged (c : Ctr) (i n : Nat) : Logged s (s.count c i n) := ⟨_, _, _, _, rfl, id⟩

theorem raiseVec_logged (v : Nat) : Logged s (s.raiseVec v) := ⟨_, _, _, _, rfl, id⟩

theorem ringWrite_logged (r : EvtRec) : Logged s (s.ringWrite r) :=
  ⟨_, _, _, _, rfl, memWriteBytes_wf _ _ _⟩

theorem post_logged (r : EvtRec) : Logged s (s.post r).1 := by
  have h : Logged s { s with evt := { s.evt with seq := (s.evt.seq + 1) % 65536 } } := ⟨_, _, _, _, rfl, id⟩
  unfold State.post
  dsimp only
  split
  · split
    · exact h.trans (ringWrite_logged _ _)
    · exact h
  · split
    · exact h.trans (ringWrite_logged _ _)
    · split <;> exact ⟨_, _, _, _, rfl, id⟩

theorem emit_logged (r : EvtRec) : Logged s (s.emit r) := by
  unfold State.emit
  dsimp only
  split
  · split
    · exact (post_logged s _).trans ((count_logged _ _ _ _).trans (post_logged _ _))
    · exact (post_logged s _).trans (count_logged _ _ _ _)
  · exact post_logged s _

theorem bump_logged (c : Ctr) (i n : Nat) : Logged s (s.bump c i n) := by
  unfold State.bump
  split
  · exact .refl s
  · split
    · exact (count_logged s c i n).trans (emit_logged _ _)
    · exact count_logged s c i n

theorem notice_logged (code context loc : Nat) : Logged s (s.notice code context loc) := emit_logged s _

theorem report_stopped (r : EvtRec) : Stopped s (s.report r) := by
  unfold State.report
  dsimp only
  have h := (emit_logged s { r with lt := s.time.lt, seq := s.evt.seq }).stopped
  split
  · split
    · exact h.trans ⟨_, _, _, _, _, _, _, _, _, _, rfl, id⟩
    · exact h
  · exact h

/-- A report leaves the slots and the replay mark alone. -/
theorem report_slots (r : EvtRec) : (s.report r).slots = s.slots ∧ (s.report r).replay = s.replay ∧
    (s.report r).queues = s.queues ∧ (s.report r).mctpSent = s.mctpSent ∧ (s.report r).mctpData = s.mctpData := by
  have h := emit_logged s { r with lt := s.time.lt, seq := s.evt.seq }
  obtain ⟨_, _, _, _, e, _⟩ := h
  unfold State.report
  dsimp only
  rw [e]
  split
  · split <;> exact ⟨rfl, rfl, rfl, rfl, rfl⟩
  · exact ⟨rfl, rfl, rfl, rfl, rfl⟩

theorem reply_replied (q : Nat) (cmd : FetchedCmd) (status r0 r1 : Nat) : Replied s (s.reply q cmd status r0 r1) := by
  have h : ∀ n, Replied s ((s.bump .sbCommands q 1).bump .sbErrors q n) := fun n =>
    ((bump_logged s _ _ _).trans (bump_logged _ _ _ _)).replied
  unfold State.reply
  dsimp only
  split
  · exact (h _).trans ⟨_, _, _, _, _, _, _, rfl, id⟩
  · have k : ∀ (x : State) a bs b, Replied x ((x.hostWrite a bs).setQueue q b) := fun x a bs b =>
      ⟨_, _, _, _, _, _, _, rfl, memWriteBytes_wf _ _ _⟩
    split
    · exact ((h _).trans (k _ _ _ _)).trans (raiseVec_logged _ _).replied
    · exact (h _).trans (k _ _ _ _)

theorem endCommands_replied (pick : Nat → FetchedCmd → Bool) (status : Nat) : Replied s (s.endCommands pick status) :=
  replied_foldl _ (fun s q => replied_foldl _ (fun s c => reply_replied s q c status 0 0) _ _) _ _

/-- The end of a recovery moves parked commands on, and perhaps a Census; the slots and the replay mark stay. -/
theorem recovered_eq (c : Nat) : ∃ t n, Replied s t ∧ s.recovered c = { t with census := n } := by
  unfold State.recovered
  have h : Replied s ((List.range 9).foldl (fun s q =>
      if (s.queue q).cmds.any (fun x => x.parked) then
        s.modQueue q (fun b => { b with cmds := b.cmds.map (fun x => { x with parked := false }) })
      else s) s) := by
    refine replied_foldl _ ?_ _ _
    intro x q
    split
    · exact ⟨_, _, _, _, _, _, _, rfl, id⟩
    · exact .refl x
  revert h
  generalize (List.range 9).foldl _ s = t
  intro h
  dsimp only
  split
  · split
    · exact ⟨t, _, h, rfl⟩
    · exact ⟨t, t.census, h, rfl⟩
  · exact ⟨t, t.census, h, rfl⟩

theorem recovered_stopped (c : Nat) : Stopped s (s.recovered c) := by
  obtain ⟨_, _, h, e⟩ := recovered_eq s c
  rw [e]
  exact h.stopped.trans ⟨_, _, _, _, _, _, _, _, _, _, rfl, id⟩

theorem stopContext_stopped (c : Nat) : Stopped s (s.stopContext c) := by
  have h : Stopped s ({ s.modSlot c (fun x => { x with state := .stopped }) with replay := false }.endCommands
      (fun _ x => x.accepted && x.context == c) 0x4001) :=
    Stopped.trans (⟨_, _, _, _, _, _, _, _, _, _, rfl, id⟩) (endCommands_replied _ _ _).stopped
  unfold State.stopContext
  dsimp only
  split
  · exact h.trans (recovered_stopped _ _)
  · exact h

theorem contractFault_stopped (c subtype : Nat) (r : EvtRec) : Stopped s (s.contractFault c subtype r) :=
  (report_stopped s _).trans (stopContext_stopped _ _)

theorem malformed_stopped (c k j sect index reason : Nat) : Stopped s (s.malformed c k j sect index reason) :=
  contractFault_stopped s _ _ _

theorem abortingError_stopped (c : Nat) (r : EvtRec) : Stopped s (s.abortingError c r) :=
  (report_stopped s _).trans (stopContext_stopped _ _)

theorem markStepBad_stopped (c : Nat) : Stopped s (s.markStepBad c) := by
  unfold State.markStepBad
  dsimp only
  split
  · exact .refl s
  · refine Stopped.trans ?_ ((bump_logged _ _ _ _).trans (notice_logged _ _ _ _)).stopped
    exact ⟨_, _, _, _, _, _, _, _, _, _, rfl, id⟩

theorem runBad_stopped (b : Bool) : Stopped s (s.runBad b) := by
  unfold State.runBad
  split
  · exact markStepBad_stopped s _
  · exact .refl s

theorem flowingError_stopped (r : EvtRec) : Stopped s (s.flowingError r) :=
  (report_stopped s _).trans (runBad_stopped _ _)

@[simp] theorem emit_fields (r : EvtRec) :
    (s.emit r).pending = s.pending ∧ (s.emit r).part = s.part ∧ (s.emit r).modState = s.modState ∧
    (s.emit r).startup = s.startup ∧ (s.emit r).flash = s.flash ∧ (s.emit r).time = s.time ∧
    (s.emit r).policies = s.policies ∧ (s.emit r).power = s.power ∧ (s.emit r).queues = s.queues ∧
    (s.emit r).fetchSeq = s.fetchSeq ∧ (s.emit r).pass = s.pass ∧ (s.emit r).census = s.census ∧
    (s.emit r).pcie = s.pcie ∧ (s.emit r).slots = s.slots ∧ (s.emit r).stations = s.stations ∧
    (s.emit r).cycles = s.cycles ∧ (s.emit r).hops = s.hops ∧ (s.emit r).turns = s.turns ∧
    (s.emit r).turnOut = s.turnOut ∧ (s.emit r).tiers = s.tiers ∧ (s.emit r).shunter = s.shunter ∧
    (s.emit r).cages = s.cages ∧ (s.emit r).ports = s.ports ∧ (s.emit r).flows = s.flows ∧ (s.emit r).coll = s.coll ∧
    (s.emit r).collSlot = s.collSlot ∧ (s.emit r).parked = s.parked ∧ (s.emit r).retireQ = s.retireQ ∧
    (s.emit r).replay = s.replay ∧ (s.emit r).txFrames = s.txFrames ∧ (s.emit r).msixSent = s.msixSent ∧
    (s.emit r).mctpSent = s.mctpSent ∧ (s.emit r).mctpData = s.mctpData ∧ (s.emit r).freeIx = s.freeIx := (emit_logged s r).fields

@[simp] theorem bump_fields (c : Ctr) (i n : Nat) :
    (s.bump c i n).pending = s.pending ∧ (s.bump c i n).part = s.part ∧ (s.bump c i n).modState = s.modState ∧
    (s.bump c i n).startup = s.startup ∧ (s.bump c i n).flash = s.flash ∧ (s.bump c i n).time = s.time ∧
    (s.bump c i n).policies = s.policies ∧ (s.bump c i n).power = s.power ∧ (s.bump c i n).queues = s.queues ∧
    (s.bump c i n).fetchSeq = s.fetchSeq ∧ (s.bump c i n).pass = s.pass ∧ (s.bump c i n).census = s.census ∧
    (s.bump c i n).pcie = s.pcie ∧ (s.bump c i n).slots = s.slots ∧ (s.bump c i n).stations = s.stations ∧
    (s.bump c i n).cycles = s.cycles ∧ (s.bump c i n).hops = s.hops ∧ (s.bump c i n).turns = s.turns ∧
    (s.bump c i n).turnOut = s.turnOut ∧ (s.bump c i n).tiers = s.tiers ∧ (s.bump c i n).shunter = s.shunter ∧
    (s.bump c i n).cages = s.cages ∧ (s.bump c i n).ports = s.ports ∧ (s.bump c i n).flows = s.flows ∧
    (s.bump c i n).coll = s.coll ∧ (s.bump c i n).collSlot = s.collSlot ∧ (s.bump c i n).parked = s.parked ∧
    (s.bump c i n).retireQ = s.retireQ ∧ (s.bump c i n).replay = s.replay ∧ (s.bump c i n).txFrames = s.txFrames ∧
    (s.bump c i n).msixSent = s.msixSent ∧ (s.bump c i n).mctpSent = s.mctpSent ∧
    (s.bump c i n).mctpData = s.mctpData ∧ (s.bump c i n).freeIx = s.freeIx := (bump_logged s c i n).fields

@[simp] theorem notice_fields (a b c : Nat) :
    (s.notice a b c).pending = s.pending ∧ (s.notice a b c).part = s.part ∧ (s.notice a b c).modState = s.modState ∧
    (s.notice a b c).startup = s.startup ∧ (s.notice a b c).flash = s.flash ∧ (s.notice a b c).time = s.time ∧
    (s.notice a b c).policies = s.policies ∧ (s.notice a b c).power = s.power ∧ (s.notice a b c).queues = s.queues ∧
    (s.notice a b c).fetchSeq = s.fetchSeq ∧ (s.notice a b c).pass = s.pass ∧ (s.notice a b c).census = s.census ∧
    (s.notice a b c).pcie = s.pcie ∧ (s.notice a b c).slots = s.slots ∧ (s.notice a b c).stations = s.stations ∧
    (s.notice a b c).cycles = s.cycles ∧ (s.notice a b c).hops = s.hops ∧ (s.notice a b c).turns = s.turns ∧
    (s.notice a b c).turnOut = s.turnOut ∧ (s.notice a b c).tiers = s.tiers ∧ (s.notice a b c).shunter = s.shunter ∧
    (s.notice a b c).cages = s.cages ∧ (s.notice a b c).ports = s.ports ∧ (s.notice a b c).flows = s.flows ∧
    (s.notice a b c).coll = s.coll ∧ (s.notice a b c).collSlot = s.collSlot ∧ (s.notice a b c).parked = s.parked ∧
    (s.notice a b c).retireQ = s.retireQ ∧ (s.notice a b c).replay = s.replay ∧
    (s.notice a b c).txFrames = s.txFrames ∧ (s.notice a b c).msixSent = s.msixSent ∧
    (s.notice a b c).mctpSent = s.mctpSent ∧ (s.notice a b c).mctpData = s.mctpData ∧
    (s.notice a b c).freeIx = s.freeIx := (notice_logged s a b c).fields

@[simp] theorem reply_fields (q : Nat) (c : FetchedCmd) (a r0 r1 : Nat) :
    (s.reply q c a r0 r1).pending = s.pending ∧ (s.reply q c a r0 r1).part = s.part ∧
    (s.reply q c a r0 r1).modState = s.modState ∧ (s.reply q c a r0 r1).startup = s.startup ∧
    (s.reply q c a r0 r1).flash = s.flash ∧ (s.reply q c a r0 r1).time = s.time ∧
    (s.reply q c a r0 r1).policies = s.policies ∧ (s.reply q c a r0 r1).power = s.power ∧
    (s.reply q c a r0 r1).fetchSeq = s.fetchSeq ∧ (s.reply q c a r0 r1).pass = s.pass ∧
    (s.reply q c a r0 r1).census = s.census ∧ (s.reply q c a r0 r1).pcie = s.pcie ∧
    (s.reply q c a r0 r1).slots = s.slots ∧ (s.reply q c a r0 r1).stations = s.stations ∧
    (s.reply q c a r0 r1).cycles = s.cycles ∧ (s.reply q c a r0 r1).hops = s.hops ∧
    (s.reply q c a r0 r1).turns = s.turns ∧ (s.reply q c a r0 r1).turnOut = s.turnOut ∧
    (s.reply q c a r0 r1).tiers = s.tiers ∧ (s.reply q c a r0 r1).shunter = s.shunter ∧
    (s.reply q c a r0 r1).cages = s.cages ∧ (s.reply q c a r0 r1).ports = s.ports ∧
    (s.reply q c a r0 r1).flows = s.flows ∧ (s.reply q c a r0 r1).coll = s.coll ∧
    (s.reply q c a r0 r1).collSlot = s.collSlot ∧ (s.reply q c a r0 r1).parked = s.parked ∧
    (s.reply q c a r0 r1).retireQ = s.retireQ ∧ (s.reply q c a r0 r1).replay = s.replay ∧
    (s.reply q c a r0 r1).txFrames = s.txFrames ∧ (s.reply q c a r0 r1).msixSent = s.msixSent ∧
    (s.reply q c a r0 r1).freeIx = s.freeIx := (reply_replied s q c a r0 r1).fields

@[simp] theorem endCommands_fields (p : Nat → FetchedCmd → Bool) (a : Nat) :
    (s.endCommands p a).pending = s.pending ∧ (s.endCommands p a).part = s.part ∧
    (s.endCommands p a).modState = s.modState ∧ (s.endCommands p a).startup = s.startup ∧
    (s.endCommands p a).flash = s.flash ∧ (s.endCommands p a).time = s.time ∧
    (s.endCommands p a).policies = s.policies ∧ (s.endCommands p a).power = s.power ∧
    (s.endCommands p a).fetchSeq = s.fetchSeq ∧ (s.endCommands p a).pass = s.pass ∧
    (s.endCommands p a).census = s.census ∧ (s.endCommands p a).pcie = s.pcie ∧ (s.endCommands p a).slots = s.slots ∧
    (s.endCommands p a).stations = s.stations ∧ (s.endCommands p a).cycles = s.cycles ∧
    (s.endCommands p a).hops = s.hops ∧ (s.endCommands p a).turns = s.turns ∧ (s.endCommands p a).turnOut = s.turnOut ∧
    (s.endCommands p a).tiers = s.tiers ∧ (s.endCommands p a).shunter = s.shunter ∧
    (s.endCommands p a).cages = s.cages ∧ (s.endCommands p a).ports = s.ports ∧ (s.endCommands p a).flows = s.flows ∧
    (s.endCommands p a).coll = s.coll ∧ (s.endCommands p a).collSlot = s.collSlot ∧
    (s.endCommands p a).parked = s.parked ∧ (s.endCommands p a).retireQ = s.retireQ ∧
    (s.endCommands p a).replay = s.replay ∧ (s.endCommands p a).txFrames = s.txFrames ∧
    (s.endCommands p a).msixSent = s.msixSent ∧ (s.endCommands p a).freeIx = s.freeIx := (endCommands_replied s p a).fields

@[simp] theorem report_fields (r : EvtRec) :
    (s.report r).pending = s.pending ∧ (s.report r).part = s.part ∧ (s.report r).modState = s.modState ∧
    (s.report r).startup = s.startup ∧ (s.report r).flash = s.flash ∧ (s.report r).time = s.time ∧
    (s.report r).policies = s.policies ∧ (s.report r).power = s.power ∧ (s.report r).fetchSeq = s.fetchSeq ∧
    (s.report r).pass = s.pass ∧ (s.report r).pcie = s.pcie ∧ (s.report r).stations = s.stations ∧
    (s.report r).cycles = s.cycles ∧ (s.report r).hops = s.hops ∧ (s.report r).turns = s.turns ∧
    (s.report r).turnOut = s.turnOut ∧ (s.report r).tiers = s.tiers ∧ (s.report r).shunter = s.shunter ∧
    (s.report r).cages = s.cages ∧ (s.report r).ports = s.ports ∧ (s.report r).flows = s.flows ∧
    (s.report r).coll = s.coll ∧ (s.report r).collSlot = s.collSlot ∧ (s.report r).parked = s.parked ∧
    (s.report r).retireQ = s.retireQ ∧ (s.report r).txFrames = s.txFrames ∧ (s.report r).msixSent = s.msixSent ∧
    (s.report r).freeIx = s.freeIx := (report_stopped s r).fields

@[simp] theorem recovered_fields (c : Nat) :
    (s.recovered c).pending = s.pending ∧ (s.recovered c).part = s.part ∧ (s.recovered c).modState = s.modState ∧
    (s.recovered c).startup = s.startup ∧ (s.recovered c).flash = s.flash ∧ (s.recovered c).time = s.time ∧
    (s.recovered c).policies = s.policies ∧ (s.recovered c).power = s.power ∧ (s.recovered c).fetchSeq = s.fetchSeq ∧
    (s.recovered c).pass = s.pass ∧ (s.recovered c).pcie = s.pcie ∧ (s.recovered c).stations = s.stations ∧
    (s.recovered c).cycles = s.cycles ∧ (s.recovered c).hops = s.hops ∧ (s.recovered c).turns = s.turns ∧
    (s.recovered c).turnOut = s.turnOut ∧ (s.recovered c).tiers = s.tiers ∧ (s.recovered c).shunter = s.shunter ∧
    (s.recovered c).cages = s.cages ∧ (s.recovered c).ports = s.ports ∧ (s.recovered c).flows = s.flows ∧
    (s.recovered c).coll = s.coll ∧ (s.recovered c).collSlot = s.collSlot ∧ (s.recovered c).parked = s.parked ∧
    (s.recovered c).retireQ = s.retireQ ∧ (s.recovered c).txFrames = s.txFrames ∧
    (s.recovered c).msixSent = s.msixSent ∧ (s.recovered c).freeIx = s.freeIx := (recovered_stopped s c).fields

@[simp] theorem stopContext_fields (c : Nat) :
    (s.stopContext c).pending = s.pending ∧ (s.stopContext c).part = s.part ∧ (s.stopContext c).modState = s.modState ∧
    (s.stopContext c).startup = s.startup ∧ (s.stopContext c).flash = s.flash ∧ (s.stopContext c).time = s.time ∧
    (s.stopContext c).policies = s.policies ∧ (s.stopContext c).power = s.power ∧
    (s.stopContext c).fetchSeq = s.fetchSeq ∧ (s.stopContext c).pass = s.pass ∧ (s.stopContext c).pcie = s.pcie ∧
    (s.stopContext c).stations = s.stations ∧ (s.stopContext c).cycles = s.cycles ∧ (s.stopContext c).hops = s.hops ∧
    (s.stopContext c).turns = s.turns ∧ (s.stopContext c).turnOut = s.turnOut ∧ (s.stopContext c).tiers = s.tiers ∧
    (s.stopContext c).shunter = s.shunter ∧ (s.stopContext c).cages = s.cages ∧ (s.stopContext c).ports = s.ports ∧
    (s.stopContext c).flows = s.flows ∧ (s.stopContext c).coll = s.coll ∧ (s.stopContext c).collSlot = s.collSlot ∧
    (s.stopContext c).parked = s.parked ∧ (s.stopContext c).retireQ = s.retireQ ∧
    (s.stopContext c).txFrames = s.txFrames ∧ (s.stopContext c).msixSent = s.msixSent ∧
    (s.stopContext c).freeIx = s.freeIx := (stopContext_stopped s c).fields

@[simp] theorem contractFault_fields (c b : Nat) (r : EvtRec) :
    (s.contractFault c b r).pending = s.pending ∧ (s.contractFault c b r).part = s.part ∧
    (s.contractFault c b r).modState = s.modState ∧ (s.contractFault c b r).startup = s.startup ∧
    (s.contractFault c b r).flash = s.flash ∧ (s.contractFault c b r).time = s.time ∧
    (s.contractFault c b r).policies = s.policies ∧ (s.contractFault c b r).power = s.power ∧
    (s.contractFault c b r).fetchSeq = s.fetchSeq ∧ (s.contractFault c b r).pass = s.pass ∧
    (s.contractFault c b r).pcie = s.pcie ∧ (s.contractFault c b r).stations = s.stations ∧
    (s.contractFault c b r).cycles = s.cycles ∧ (s.contractFault c b r).hops = s.hops ∧
    (s.contractFault c b r).turns = s.turns ∧ (s.contractFault c b r).turnOut = s.turnOut ∧
    (s.contractFault c b r).tiers = s.tiers ∧ (s.contractFault c b r).shunter = s.shunter ∧
    (s.contractFault c b r).cages = s.cages ∧ (s.contractFault c b r).ports = s.ports ∧
    (s.contractFault c b r).flows = s.flows ∧ (s.contractFault c b r).coll = s.coll ∧
    (s.contractFault c b r).collSlot = s.collSlot ∧ (s.contractFault c b r).parked = s.parked ∧
    (s.contractFault c b r).retireQ = s.retireQ ∧ (s.contractFault c b r).txFrames = s.txFrames ∧
    (s.contractFault c b r).msixSent = s.msixSent ∧ (s.contractFault c b r).freeIx = s.freeIx := (contractFault_stopped s c b r).fields

@[simp] theorem malformed_fields (c k j a i r : Nat) :
    (s.malformed c k j a i r).pending = s.pending ∧ (s.malformed c k j a i r).part = s.part ∧
    (s.malformed c k j a i r).modState = s.modState ∧ (s.malformed c k j a i r).startup = s.startup ∧
    (s.malformed c k j a i r).flash = s.flash ∧ (s.malformed c k j a i r).time = s.time ∧
    (s.malformed c k j a i r).policies = s.policies ∧ (s.malformed c k j a i r).power = s.power ∧
    (s.malformed c k j a i r).fetchSeq = s.fetchSeq ∧ (s.malformed c k j a i r).pass = s.pass ∧
    (s.malformed c k j a i r).pcie = s.pcie ∧ (s.malformed c k j a i r).stations = s.stations ∧
    (s.malformed c k j a i r).cycles = s.cycles ∧ (s.malformed c k j a i r).hops = s.hops ∧
    (s.malformed c k j a i r).turns = s.turns ∧ (s.malformed c k j a i r).turnOut = s.turnOut ∧
    (s.malformed c k j a i r).tiers = s.tiers ∧ (s.malformed c k j a i r).shunter = s.shunter ∧
    (s.malformed c k j a i r).cages = s.cages ∧ (s.malformed c k j a i r).ports = s.ports ∧
    (s.malformed c k j a i r).flows = s.flows ∧ (s.malformed c k j a i r).coll = s.coll ∧
    (s.malformed c k j a i r).collSlot = s.collSlot ∧ (s.malformed c k j a i r).parked = s.parked ∧
    (s.malformed c k j a i r).retireQ = s.retireQ ∧ (s.malformed c k j a i r).txFrames = s.txFrames ∧
    (s.malformed c k j a i r).msixSent = s.msixSent ∧ (s.malformed c k j a i r).freeIx = s.freeIx := (malformed_stopped s c k j a i r).fields

@[simp] theorem abortingError_fields (c : Nat) (r : EvtRec) :
    (s.abortingError c r).pending = s.pending ∧ (s.abortingError c r).part = s.part ∧
    (s.abortingError c r).modState = s.modState ∧ (s.abortingError c r).startup = s.startup ∧
    (s.abortingError c r).flash = s.flash ∧ (s.abortingError c r).time = s.time ∧
    (s.abortingError c r).policies = s.policies ∧ (s.abortingError c r).power = s.power ∧
    (s.abortingError c r).fetchSeq = s.fetchSeq ∧ (s.abortingError c r).pass = s.pass ∧
    (s.abortingError c r).pcie = s.pcie ∧ (s.abortingError c r).stations = s.stations ∧
    (s.abortingError c r).cycles = s.cycles ∧ (s.abortingError c r).hops = s.hops ∧
    (s.abortingError c r).turns = s.turns ∧ (s.abortingError c r).turnOut = s.turnOut ∧
    (s.abortingError c r).tiers = s.tiers ∧ (s.abortingError c r).shunter = s.shunter ∧
    (s.abortingError c r).cages = s.cages ∧ (s.abortingError c r).ports = s.ports ∧
    (s.abortingError c r).flows = s.flows ∧ (s.abortingError c r).coll = s.coll ∧
    (s.abortingError c r).collSlot = s.collSlot ∧ (s.abortingError c r).parked = s.parked ∧
    (s.abortingError c r).retireQ = s.retireQ ∧ (s.abortingError c r).txFrames = s.txFrames ∧
    (s.abortingError c r).msixSent = s.msixSent ∧ (s.abortingError c r).freeIx = s.freeIx := (abortingError_stopped s c r).fields

@[simp] theorem markStepBad_fields (c : Nat) :
    (s.markStepBad c).pending = s.pending ∧ (s.markStepBad c).part = s.part ∧ (s.markStepBad c).modState = s.modState ∧
    (s.markStepBad c).startup = s.startup ∧ (s.markStepBad c).flash = s.flash ∧ (s.markStepBad c).time = s.time ∧
    (s.markStepBad c).policies = s.policies ∧ (s.markStepBad c).power = s.power ∧
    (s.markStepBad c).fetchSeq = s.fetchSeq ∧ (s.markStepBad c).pass = s.pass ∧ (s.markStepBad c).pcie = s.pcie ∧
    (s.markStepBad c).stations = s.stations ∧ (s.markStepBad c).cycles = s.cycles ∧ (s.markStepBad c).hops = s.hops ∧
    (s.markStepBad c).turns = s.turns ∧ (s.markStepBad c).turnOut = s.turnOut ∧ (s.markStepBad c).tiers = s.tiers ∧
    (s.markStepBad c).shunter = s.shunter ∧ (s.markStepBad c).cages = s.cages ∧ (s.markStepBad c).ports = s.ports ∧
    (s.markStepBad c).flows = s.flows ∧ (s.markStepBad c).coll = s.coll ∧ (s.markStepBad c).collSlot = s.collSlot ∧
    (s.markStepBad c).parked = s.parked ∧ (s.markStepBad c).retireQ = s.retireQ ∧
    (s.markStepBad c).txFrames = s.txFrames ∧ (s.markStepBad c).msixSent = s.msixSent ∧
    (s.markStepBad c).freeIx = s.freeIx := (markStepBad_stopped s c).fields

@[simp] theorem runBad_fields (b : Bool) :
    (s.runBad b).pending = s.pending ∧ (s.runBad b).part = s.part ∧ (s.runBad b).modState = s.modState ∧
    (s.runBad b).startup = s.startup ∧ (s.runBad b).flash = s.flash ∧ (s.runBad b).time = s.time ∧
    (s.runBad b).policies = s.policies ∧ (s.runBad b).power = s.power ∧ (s.runBad b).fetchSeq = s.fetchSeq ∧
    (s.runBad b).pass = s.pass ∧ (s.runBad b).pcie = s.pcie ∧ (s.runBad b).stations = s.stations ∧
    (s.runBad b).cycles = s.cycles ∧ (s.runBad b).hops = s.hops ∧ (s.runBad b).turns = s.turns ∧
    (s.runBad b).turnOut = s.turnOut ∧ (s.runBad b).tiers = s.tiers ∧ (s.runBad b).shunter = s.shunter ∧
    (s.runBad b).cages = s.cages ∧ (s.runBad b).ports = s.ports ∧ (s.runBad b).flows = s.flows ∧
    (s.runBad b).coll = s.coll ∧ (s.runBad b).collSlot = s.collSlot ∧ (s.runBad b).parked = s.parked ∧
    (s.runBad b).retireQ = s.retireQ ∧ (s.runBad b).txFrames = s.txFrames ∧ (s.runBad b).msixSent = s.msixSent ∧
    (s.runBad b).freeIx = s.freeIx := (runBad_stopped s b).fields

@[simp] theorem flowingError_fields (r : EvtRec) :
    (s.flowingError r).pending = s.pending ∧ (s.flowingError r).part = s.part ∧
    (s.flowingError r).modState = s.modState ∧ (s.flowingError r).startup = s.startup ∧
    (s.flowingError r).flash = s.flash ∧ (s.flowingError r).time = s.time ∧ (s.flowingError r).policies = s.policies ∧
    (s.flowingError r).power = s.power ∧ (s.flowingError r).fetchSeq = s.fetchSeq ∧ (s.flowingError r).pass = s.pass ∧
    (s.flowingError r).pcie = s.pcie ∧ (s.flowingError r).stations = s.stations ∧
    (s.flowingError r).cycles = s.cycles ∧ (s.flowingError r).hops = s.hops ∧ (s.flowingError r).turns = s.turns ∧
    (s.flowingError r).turnOut = s.turnOut ∧ (s.flowingError r).tiers = s.tiers ∧
    (s.flowingError r).shunter = s.shunter ∧ (s.flowingError r).cages = s.cages ∧ (s.flowingError r).ports = s.ports ∧
    (s.flowingError r).flows = s.flows ∧ (s.flowingError r).coll = s.coll ∧ (s.flowingError r).collSlot = s.collSlot ∧
    (s.flowingError r).parked = s.parked ∧ (s.flowingError r).retireQ = s.retireQ ∧
    (s.flowingError r).txFrames = s.txFrames ∧ (s.flowingError r).msixSent = s.msixSent ∧
    (s.flowingError r).freeIx = s.freeIx := (flowingError_stopped s r).fields

/-- A `STATION_CHECK` that retires asks for the retirement, and the running context begins a recovery; no other slot changes. -/
theorem stationCheck_eq (p reason : Nat) (r : EvtRec) :
    ∃ x q l b pl, Stopped s x ∧ s.stationCheck p reason r = { x with retireQ := q, slots := l, replay := b, policies := pl } := by
  have h := report_stopped s { r with family := 2, code := reason, scope := scopeStation, pstation := p }
  unfold State.stationCheck
  dsimp only
  split
  · exact ⟨_, _, _, _, _, h, rfl⟩
  · exact ⟨_, _, _, _, _, h, rfl⟩

end Sys2Proof.Laws
end

