-- ==== Sys2Proof/WellFormed.lean ====
section
/-! DEFINITION. Well-formed commands: operands within the ranges that the spec gives the things they name. The meanings are total on
ill-formed commands too. -/

namespace Sys2Proof

/-- Is a message between a member and a Depot holder within R324's and R411's ranges? -/
def DepotMsg.wf : DepotMsg → Bool
  | .classP object page data => decide (object < 1048576 ∧ page < 4194304 ∧ data.length ≤ 8388608)
  | .shard object page _ data => decide (object < 2 ^ 21 + 8 * 1048576 ∧ page < 4194304 ∧ data.length ≤ 8388608)
  | .seedEnd => true
  | .mirror => true
  | .ask _ pages => pages.all (fun q => decide (q.1 < 1048576 ∧ q.2 < 4194304))
  | .backClassP object page data => decide (object < 1048576 ∧ page < 4194304 ∧ data.length ≤ 8388608)
  | .backShard object page _ data => decide (object < 2 ^ 21 + 8 * 1048576 ∧ page < 4194304 ∧ data.length ≤ 8388608)
  | .backLog unit _ data => decide (unit < 1048576 ∧ data.length ≤ 16384)
  | .backEnd committed => decide (committed < 2 ^ 32)

/-- A granule of the Station store (R63). -/
def storeGranule (g : Nat) : Bool := decide (g < 98304)

/-- An entry of accumulator memory (R112). -/
def AccError.wf (e : AccError) : Bool := decide (e.row < 2048 ∧ e.col < 256)

/-- The granules of an issue lie in the store, and its entries in accumulator memory. -/
def IssueTick.wf (t : IssueTick) : Bool := t.bad.all storeGranule && t.acc.all AccError.wf

/-- Is a command's operand list one that the spec's ranges admit (R21, R148, R255, R324, R338, R340, R426, R430)? -/
def Instr.wf : Instr → Bool
  | .identify _ _ => true
  | .resetContext _ _ => true
  | .resetWarm _ _ => true
  | .resetCold _ _ => true
  | .fence _ _ => true
  | .setPolicy _ _ => true
  | .setCap _ _ => true
  | .setTime _ _ => true
  | .netConfig _ _ => true
  | .keyInstall _ _ => true
  | .ownerEnrol _ _ => true
  | .loadImage _ _ _ => true
  | .bind _ _ _ _ => true
  | .release _ _ => true
  | .start _ _ => true
  | .halt _ _ => true
  | .preempt _ _ => true
  | .resume _ t => t.bad.all (fun g => decide (g < 128 * 50308))
  | .cancelSection _ _ => true
  | .depotSnapshot _ _ => true
  | .adopt _ _ => true
  | .census _ _ => true
  | .readCensus _ _ => true
  | .readCounters _ _ => true
  | .readLog _ _ => true
  | .sqTailWrite _ _ => true
  | .cqHeadWrite _ _ => true
  | .queueEnable _ _ => true
  | .queueDisable _ _ => true
  | .evtHeadWrite _ _ => true
  | .eventRingEnable _ _ => true
  | .registerWrite off size _ => decide (off < 65536 ∧ (size = 4 ∨ size = 8))
  | .commandFetch _ _ params _ => match params with | some p => decide (p.length ≤ 4096) | none => true
  | .mctpRequest _ params _ => decide (params.length ≤ 4096)
  | .msixMessage _ _ => true
  | .eventRecordFlush _ => true
  | .censusLatch _ => true
  | .token _ _ t => t.wf
  | .sectionEnd _ _ t => t.wf
  | .points _ _ t => t.wf
  | .pointsSelect _ => true
  | .warningBoard _ _ t => t.wf
  | .stage _ _ t => t.wf
  | .mma _ _ t => t.wf
  | .mmaCplx _ _ t => t.wf
  | .loopSend _ _ t => t.wf
  | .loopTake _ _ t => t.wf
  | .ballast _ _ t => t.wf
  | .groupOpen _ _ t => t.wf
  | .groupClose _ _ t => t.wf
  | .turn _ _ t => t.wf
  | .drain _ _ t => t.wf
  | .drainCplx _ _ t => t.wf
  | .convert _ _ t => t.wf
  | .act _ _ t => t.wf
  | .ew _ _ t => t.wf
  | .norm _ _ t => t.wf
  | .vstats _ _ t => t.wf
  | .manifest _ _ t => t.wf
  | .sidingSet _ _ t => t.wf
  | .sidingExpect _ _ t => t.wf
  | .coll _ _ t => t.tick.wf
  | .rightAway _ _ t => t.wf
  | .departureComplete _ _ sect index _ _ => decide (sect < 2 ^ 16 ∧ index < 2 ^ 24)
  | .tokenSignalLand _ _ _ => true
  | .waitTimeout _ _ _ => true
  | .watchdogExpiry _ _ _ => true
  | .sectionBoundary _ => true
  | .rowEntry _ _ bad => bad.all storeGranule
  | .invalidRowEntry _ _ => true
  | .stagingComplete _ _ => true
  | .checkVerdict _ faults _ => faults.all (fun f => decide (f.block < 16))
  | .rowRelease _ => true
  | .accTermWrite _ _ _ errs _ => errs.all AccError.wf
  | .cascadeSpill w => w.errs.all AccError.wf
  | .drainInterlockEnd _ _ acc => acc.all AccError.wf
  | .accSave _ _ acc => acc.all AccError.wf
  | .consistInsert _ _ => true
  | .consistArrive _ _ _ => true
  | .loopFlitParityError _ _ => true
  | .loopReplayRequest _ _ => true
  | .loopHopDown _ _ _ => true
  | .stationRetire _ _ => true
  | .stepReplay _ => true
  | .turnRecordServe _ r _ => r.errs.all (fun e => decide (e.gran < 98304)) && r.ring.all (fun g => decide (g < 98304))
  | .waybillBurstFetch _ => true
  | .waybillBurstArrive _ errs _ => errs.all (fun e => decide (e.gran < 16))
  | .sidingFillStart _ _ => true
  | .sidingFillLand _ _ _ r _ => r.errs.all (fun e => decide (e.gran < 98304)) && r.ring.all (fun g => decide (g < 98304))
  | .writebackStart _ => true
  | .writebackDone _ bad _ => bad.all (fun g => decide (g < 98304))
  | .sidingOverflow _ _ _ => true
  | .pageMoveStart => true
  | .pageMoveComplete _ errs _ => errs.all (fun e => decide (e.gran < 131072))
  | .shuntReadySignal object _ => decide (object < 1048576)
  | .scrubRead tier frame gran _ _ => decide (frame < (if tier = 0 then 512 else if tier = 1 then 65536 else 262144) ∧ gran < 131072)
  | .ethFrameReceive _ frame _ => decide (frame.body.length ≤ 9216)
  | .arpNdpRequest _ _ _ => true
  | .icmpEchoRequest _ _ _ data => decide (data.length ≤ 9216)
  | .gatewayRefresh _ _ _ => true
  | .bililjoDataReceive _ _ => true
  | .bililjoAckReceive _ _ => true
  | .bililjoProbeReceive _ _ => true
  | .bililjoDataSend _ _ => true
  | .ackDelayExpiry _ _ => true
  | .rtoExpiry _ _ => true
  | .pathSuspendExpiry _ _ _ => true
  | .portLockLoss _ _ => true
  | .portRejoin _ _ => true
  | .slotWindowOpen _ ix _ => decide (ix < 262144)
  | .slotWindowClose _ ix _ => decide (ix < 262144)
  | .keyActivate _ _ => true
  | .keyWithdraw _ _ => true
  | .flowDrainTimeout _ _ => true
  | .cageTrainComplete _ _ => true
  | .osfpInsert _ _ _ => true
  | .osfpRemove _ _ => true
  | .ptpMessageReceive _ net _ _ => decide (net.transport < 3)
  | .ptpDelayReqSend _ => true
  | .ptpSyncLoss _ => true
  | .ppsEdge _ _ => true
  | .holdoverExpire _ => true
  | .lineTimeCorrect _ t => decide (-32 ≤ t.err ∧ t.err ≤ 32)
  | .collMessageDeliver _ _ => true
  | .stageClose cid unit _ _ => decide (cid < 65536 ∧ unit < 1048576)
  | .ueUnitRun _ _ => true
  | .rightAwayCommit _ => true
  | .rightAwayReject _ => true
  | .depotMessageReceive rank msg _ => decide (rank < 65536) && msg.wf
  | .depotSeed _ page _ => match page with | some q => decide (q.1 < 2 ^ 21 + 8 * 1048576 ∧ q.2 < 4194304) | none => true
  | .peerProbe rank _ => decide (rank < 65536)
  | .peerLost rank _ => decide (rank < 65536)
  | .clockStretchRequest _ _ _ _ => true
  | .marginWarn _ _ => true
  | .trimLapse _ _ => true
  | .ageingMeasure _ _ _ => true
  | .fastLimitWindow _ _ _ => true
  | .fastCeilingRise _ _ => true
  | .capWindow _ _ _ _ _ _ => true
  | .thermalWindow _ => true
  | .rampMeterGrant _ => true
  | .stationFallRequest _ _ => true
  | .stationRiseRequest _ _ => true
  | .powerStateRelax _ => true
  | .preRampHoldEnd _ => true
  | .tempConversion _ _ _ => true
  | .thermalTrip _ _ => true
  | .powerFault reason _ _ => decide (reason ≠ 0)
  | .inputShutdown _ => true
  | .powerUpBegin _ => true
  | .inrushComplete => true
  | .standbyComplete => true
  | .mainRailsComplete => true
  | .selftestComplete _ _ _ => true
  | .tierTrainingComplete tier bad _ => bad.all (fun f => decide (f < (if tier = 0 then 512 else if tier = 1 then 65536 else 262144)))
  | .modReset _ _ => true
  | .perstDeassert _ _ => true
  | .pcieResetPrimary _ _ => true
  | .pcieResetSecondary _ _ => true
  | .pcieConfigRequest _ _ => true
  | .pcieLinkDown _ _ => true
  | .referenceLoss _ => true
  | .runEpoch _ => true
  | .pcieLinkUp _ _ => true
  | .i3cDynamicAddress _ => true
  | .holderAnswerTimeout _ => true
  | .pathProbeTimeout _ _ _ => true

end Sys2Proof
end

