-- ==== Sys2Proof/Tests/Slice0.lean ====
section
/-! SUPPORT. Tests: ill-formed commands, witnesses of the hypotheses of the statements, and small tests whose expected results are the
spec's. -/

namespace Sys2Proof.Machine

open Sys2Proof

/-- Queue 0 enabled with 16 entries, rings at 64 KiB and 128 KiB, and the commands fetched. -/
def State.withCmds (s : State) (cmds : List FetchedCmd) : State :=
  s.setQueue 0 { Queue.init with enable := true, log2 := 4, sqBase := 65536, cqBase := 131072, cmds := cmds }

/-- Slot 0 in a state, with image, binding and run. -/
def State.withCtx (s : State) (st : SlotState) (img : Option Image) (b : Option Binding) (r : Option Run) : State :=
  { s.setSlot 0 { Slot.init with state := st, image := img, binding := b, run := r } with collSlot := some 0 }

end Sys2Proof.Machine

namespace Sys2Proof.Tests

open Sys2Proof Sys2Proof.Machine

-- One theorem at a time: the evaluations of many at once would need more memory than a check has.
set_option Elab.async false

/-! ## Well-formedness: one ill-formed command for each check -/

theorem test_ill_formed :
    ([.registerWrite 65536 4 0, .registerWrite 0x110 2 0, .commandFetch 0 0 (some (List.replicate 4097 0)) 0,
      .mctpRequest 0 (List.replicate 4097 0) 0, .resume 0 ⟨0, [6439424]⟩, .token 0 0 { lt := 0, sc := 0, bad := [98304], acc := [] },
      .drain 0 0 { lt := 0, sc := 0, bad := [], acc := [{ row := 2048, col := 0, corrected := true }] },
      .drain 0 0 { lt := 0, sc := 0, bad := [], acc := [{ row := 0, col := 256, corrected := true }] },
      .departureComplete 0 0 65536 0 0 0, .departureComplete 0 0 0 16777216 0 0, .rowEntry 0 0 [98304],
      .checkVerdict 0 [{ row := 0, block := 16, second := false, value := .nan }] 0,
      .accTermWrite 0 0 false [{ row := 2048, col := 0, corrected := true }] 0,
      .cascadeSpill ⟨0, 0, false, [{ row := 0, col := 256, corrected := true }]⟩,
      .drainInterlockEnd 0 0 [{ row := 2048, col := 0, corrected := true }],
      .accSave 0 { lt := 0, sc := 0 } [{ row := 0, col := 256, corrected := true }],
      .turnRecordServe 0 ⟨0, [{ gran := 98304, corrected := false }], []⟩ ⟨0, 0⟩, .turnRecordServe 0 ⟨0, [], [98304]⟩ ⟨0, 0⟩,
      .waybillBurstArrive 0 [{ gran := 16, corrected := false }] 0,
      .sidingFillLand 0 0 0 ⟨[{ gran := 98304, corrected := false }], []⟩ ⟨0, 0⟩,
      .sidingFillLand 0 0 0 ⟨[], [98304]⟩ ⟨0, 0⟩, .writebackDone 0 [98304] 0,
      .pageMoveComplete 0 [{ gran := 131072, corrected := false }] 0, .shuntReadySignal 1048576 0,
      .scrubRead 0 512 0 .clean 0, .scrubRead 1 65536 0 .clean 0, .scrubRead 2 262144 0 .clean 0, .scrubRead 0 0 131072 .clean 0,
      .slotWindowOpen 0 262144 0, .slotWindowClose 0 262144 0, .stageClose 65536 0 0 0, .stageClose 0 1048576 0 0,
      .depotMessageReceive 65536 .seedEnd 0, .depotMessageReceive 0 (.classP 1048576 0 []) 0,
      .depotMessageReceive 0 (.shard 0 4194304 0 []) 0, .depotMessageReceive 0 (.ask true [(1048576, 0)]) 0,
      .depotMessageReceive 0 (.backLog 1048576 0 []) 0, .depotMessageReceive 0 (.backEnd (2 ^ 32)) 0,
      .depotSeed 0 (some (0, 4194304)) 0, .peerProbe 65536 0, .peerLost 65536 0, .powerFault 0 0 0,
      .icmpEchoRequest 0 0 0 (List.replicate 9217 0), .ptpMessageReceive 0 ⟨0, 3⟩ (.followUp 0) 0, .lineTimeCorrect 0 ⟨33, 0⟩,
      .tierTrainingComplete 0 [512] 0] : List Instr).all (fun c => !c.wf) = true := by decide +kernel

theorem test_well_formed :
    ([.registerWrite 65532 4 0, .token 127 3 { lt := 0, sc := 0, bad := [98303], acc := [{ row := 2047, col := 255, corrected := true }] },
      .scrubRead 2 262143 131071 .clean 0, .stageClose 65535 1048575 1 0, .powerFault 3 0 0] : List Instr).all Instr.wf = true := by
  decide +kernel

/-! ## States -/

/-- The module in use: `READY`, line time running, link 0 configured. -/
def up : State :=
  { State.reset with
    modState := .ready, startup := { State.reset.startup with phase := .up }
    pcie := [(0, { perstLow := false, readyFrom := some 0, up := true, configured := true })] }

/-- A command header: parameter length, opcode and context (R431). -/
def header (len op ctx : Nat) : BitVec 256 := BitVec.ofNat 256 (place len 179 + place op 152 + place ctx 148)

def cmdOf (op ctx : Nat) (params : List Byte) : FetchedCmd :=
  { header := header params.length op ctx, params := params, seq := 1, accepted := false, parked := false, hostErr := false }

/-- A job of one member, with its system items' runs. -/
def lone : Binding :=
  { jobRank := 0, g := 1, k := 1, rho := 0, depotFrames := 0, peerTimeoutMs := 10, shard1 := 0, shard2 := 0, t3Frames := [],
    t3Ranges := [], flows := [], mapBase := [], peak := 0 }

def image (bytes : List Byte) : Image := { bytes := bytes, digest := 0, ranges := [] }

/-- A run in section 0. -/
def run0 : Run :=
  { epoch := 0, sect := 0, sectEpoch := 0, began := 0, cancelled := none, halting := false, switching := false, points := none,
    follow := [], preemptAt := none, floatPast := false, epochSeen := false, waiting := false }

/-! ## Witnesses: the block, registers and rings -/

theorem witness_step : ({ up with pending := [Instr.inrushComplete] } : State).pending = .inrushComplete :: [] := rfl

theorem witness_invariants : State.reset.memoriesWf ∧ State.reset.oneRuns ∧ ∃ t, step State.reset = .next t := by
  refine ⟨⟨by decide, by decide, fun k => by cases k <;> rfl⟩, by unfold State.oneRuns; decide, _, rfl⟩

theorem witness_registers :
    (up.withCmds []).barOpen = true ∧
    (((up.withCmds []).queue 0).enable = true ∧ (15#32).toNat < 2 ^ ((up.withCmds []).queue 0).log2 ∧
      2 ^ ((up.withCmds []).queue 0).log2 ≤ (16#32).toNat) ∧ (up.queue 0).enable = false ∧
    (let s := up.setQueue 0 { (up.withCmds []).queue 0 with cqTail := 3 }
     (3#32).toNat < 2 ^ (s.queue 0).log2 ∧
       ((3#32).toNat + 2 ^ (s.queue 0).log2 - (s.queue 0).cqHead) % 2 ^ (s.queue 0).log2 ≤ (s.queue 0).unread) ∧
    ((up.queue 0).cmds = [] ∧ bit (0x80000004#32).toNat 31 = true ∧
      field (0x80000004#32).toNat 3 0 = 4 ∧ field (0x8000000C#32).toNat 3 0 = 12 ∧ bit (12#32).toNat 31 = false) ∧
    accessOk 0x110 8 = true ∧ accessOk 0x110 2 = false ∧ accessOk 0x114 8 = false ∧ accessOk 0x10C 4 = true ∧
    accessOk 0x9000 4 = true := by decide +kernel

theorem witness_event_ring :
    let s := { up with evt := { EventRing.init with enable := true, log2 := 6, base := 4096, buffer := [EvtRec.blank] } }
    (0#32).toNat < s.evt.records ∧ ((0#32).toNat + s.evt.records - s.evt.head) % s.evt.records ≤ s.evt.unread ∧
    field (0x80000006#32).toNat 4 0 = 6 ∧ field (0x80000010#32).toNat 4 0 = 16 ∧ s.evt.space = true ∧
    s.evt.buffer = EvtRec.blank :: [] := by decide +kernel

theorem witness_fetch :
    let s := (up.setQueue 0 { Queue.init with enable := true, log2 := 4, sqTail := 1 })
    let full := { up.setQueue 8 { Queue.init with cmds := [cmdOf 1 15 [], cmdOf 1 15 [], cmdOf 1 15 [], cmdOf 1 15 []] } with fetchSeq := 5 }
    s.turnToFetch = some 0 ∧ s.managed = true ∧ (s.queue 8).cmds.length < 4 ∧ 4 ≤ (full.queue 8).cmds.length ∧
    ∀ x ∈ (full.queue 8).cmds, x.seq ≠ full.fetchSeq := by decide +kernel

theorem witness_vector :
    let s := up.raiseVec 63
    s.barOpen = true ∧ (s.vector 63).pending = true ∧ bit (s.vector 63).entry.toNat 96 = false ∧ (s.vector 63).sentAt = none := by
  decide +kernel

/-! ## Witnesses: Signal Box commands -/

theorem witness_looked :
    let c := cmdOf 0x03 15 (leBytes 8 511)
    let s := up.withCmds [c]
    (s.looked 0 5).current 0 = some c ∧ c.opcode ≠ 0x01 ∧ (s.looked 0 5).mustWait c = false := by decide +kernel

theorem witness_failed_check :
    let c := cmdOf 0x03 15 (leBytes 8 0x10000)
    let s := up.withCmds [c]
    (Instr.fence 0 5).box = some (0, 0x03, 5, anyCmd) ∧ (s.looked 0 5).current 0 = some c ∧ c.opcode = 0x03 ∧ anyCmd c = true ∧
    (s.looked 0 5).mustWait c = false ∧ c.accepted = false ∧ (s.looked 0 5).checkCommand 0 c = some (0x2002, 2) := by
  refine ⟨rfl, ?_⟩
  decide +kernel

theorem witness_identify :
    (up.withCmds [cmdOf 0x01 15 (leBytes 16 (1048576 + place 256 64))]).runsCommand 0 0x01 5
      (cmdOf 0x01 15 (leBytes 16 (1048576 + place 256 64))) := by unfold State.runsCommand; decide +kernel

/-- `READ_COUNTERS`, `READ_LOG` and `READ_CENSUS`: the first 8 bytes, and `DEST`. -/
def reads (first len : Nat) : List Byte := leBytes 8 first ++ leBytes 16 (1048576 + place len 64)

theorem witness_read_counters :
    let c := cmdOf 0x22 15 (reads (8 + place 8 16 + place 1 32) 4096)
    (up.withCmds [c]).runsCommand 0 0x22 5 c ∧ c.p 0 1 = 8 ∧ c.p 2 2 < groupInstances (c.p 0 1) ∧
    c.p 2 2 + c.p 4 2 ≤ groupInstances (c.p 0 1) := by unfold State.runsCommand; decide +kernel

theorem witness_read_log :
    (let c := cmdOf 0x23 7 (reads 0x010100 4096)
     (up.withCmds [c]).runsCommand 0 0x23 5 c ∧ c.p 0 1 = 0 ∧ c.p 1 1 = 1 ∧ c.p 2 1 = 1 ∧ c.context < 8) ∧
    (let c := cmdOf 0x23 15 (reads 0x010101 4096)
     (up.withCmds [c]).runsCommand 0 0x23 5 c ∧ c.p 0 1 = 1 ∧ c.p 1 1 = 1 ∧ c.p 2 1 = 1) := by
  unfold State.runsCommand; decide +kernel

theorem witness_read_census :
    let c := cmdOf 0x21 15 (reads 0x0109 4096)
    let parts : List (List Byte) := List.replicate 10 [1]
    let s := { up with census := .held parts }.withCmds [c]
    s.runsCommand 0 0x21 5 c ∧ (s.looked 0 5).census = .held parts ∧ c.p 0 1 = 9 ∧ c.p 1 1 = 1 ∧
    c.p 4 4 ≤ (parts.getD (c.p 0 1) []).length := by unfold State.runsCommand; decide +kernel

theorem witness_set_policy :
    let c := cmdOf 0x08 15 (leBytes 8 0x02010200)
    (up.withCmds [c]).runsCommand 0 0x08 5 c ∧ ∀ i < 4, c.p i 1 ≤ 2 := by unfold State.runsCommand; decide +kernel

theorem witness_set_cap :
    (let c := cmdOf 0x09 15 (leBytes 16 (0x1F + place 1200 16 + place 800 32 + place 256 64))
     (up.withCmds [c]).runsCommand 0 0x09 5 c ∧ capFault up.flash.topOpMhz c = none) ∧
    (let c := cmdOf 0x09 15 (leBytes 16 (0x01 + place 1199 16))
     (up.withCmds [c]).runsCommand 0 0x09 5 c ∧ capFault up.flash.topOpMhz c = some 2) := by
  unfold State.runsCommand; decide +kernel

theorem witness_set_time :
    (let c := cmdOf 0x0A 15 (leBytes 32 (2 + place 1 24 + place 10000 48 + place 1000000 64))
     (up.withCmds [c]).runsCommand 0 0x0A 5 c ∧ ((up.withCmds [c]).looked 0 5).timeFault c = none ∧ c.p 24 1 ≠ 1 ∧
      (up.withCmds [c]).time.lt < c.p 8 8 ∧ c.p 0 1 = 2) ∧
    (let c := cmdOf 0x0A 15 (leBytes 32 (place 0xFF 40 + place 100 48 + place 5 128 + place 1 192))
     (up.withCmds [c]).runsCommand 0 0x0A 5 c ∧ ((up.withCmds [c]).looked 0 5).timeFault c = none ∧ c.p 24 1 = 1 ∧
      (up.withCmds [c]).anyBound = false ∧ ((up.withCmds [c]).looked 0 5).time.lt ≤ c.p 16 8) := by
  unfold State.runsCommand; decide +kernel

theorem witness_fence :
    (let c := cmdOf 0x03 15 (leBytes 8 511)
     let s := up.withCmds [c]
     s.runsCommand 0 0x03 5 c ∧ c.p 0 2 < 512 ∧ (∀ i < 9, bit (c.p 0 2) i = true → ∀ x ∈ ((s.looked 0 5).queue i).cmds, c.seq ≤ x.seq) ∧
      (Instr.identify 0 5).box = some (0, 0x01, 5, anyCmd) ∧ (s.looked 0 5).current 0 = some c) ∧
    (let c := cmdOf 0x03 15 (leBytes 8 256)
     let s : State := (up.withCmds [c]).setQueue 8 { Queue.init with cmds := [{ cmdOf 0x01 15 [] with seq := 0 }] }
     s.runsCommand 0 0x03 5 c ∧ c.p 0 2 < 512 ∧
      ¬ ∀ i < 9, bit (c.p 0 2) i = true → ∀ x ∈ ((s.looked 0 5).queue i).cmds, c.seq ≤ x.seq) ∧
    (let c := { cmdOf 0x03 15 (leBytes 8 511) with accepted := true }
     let s := up.withCmds [c]
     (s.looked 0 5).current 0 = some c ∧ (s.looked 0 5).mustWait c = false ∧ c.accepted = true ∧
      ∀ i < 9, bit (c.p 0 2) i = true → ∀ x ∈ ((s.looked 0 5).queue i).cmds, c.seq ≤ x.seq) ∧
    (let c := { cmdOf 0x03 15 (leBytes 8 256) with accepted := true }
     let s : State := (up.withCmds [c]).setQueue 8 { Queue.init with cmds := [{ cmdOf 0x01 15 [] with seq := 0 }] }
     (s.looked 0 5).current 0 = some c ∧ c.opcode = 0x03 ∧ (s.looked 0 5).mustWait c = false ∧
      ¬ ∀ i < 9, bit (c.p 0 2) i = true → ∀ x ∈ ((s.looked 0 5).queue i).cmds, c.seq ≤ x.seq) := by
  refine ⟨⟨?_, ?_, ?_, rfl, ?_⟩, ?_⟩ <;> (try unfold State.runsCommand) <;> decide +kernel

theorem reservedByte_netConfig (rest : List Byte) (h : rest.length ≤ 3072) :
    reservedByte [(0, 12), (64, 3072)] (List.replicate 64 0#8 ++ rest) = none := by
  simp only [reservedByte, List.find?_eq_none, List.mem_range, List.length_append, List.length_replicate]
  intro i hi
  by_cases h2 : i < 64
  · rw [List.getD_append _ _ _ _ (by simpa using h2), List.getD_replicate _ h2]
    simp
  · simp; intro _ _; omega

/-- `NET_CONFIG` with every cage in mode 0: an entry with an MTU of 1,500 for the first sub-port of each. -/
def netConfigCmd : FetchedCmd :=
  { header := header 3136 0x0B 15, seq := 1, accepted := false, parked := false, hostErr := false
    params := List.replicate 64 0#8 ++ (List.range 12).flatMap (fun _ => leBytes 256 (place 1500 176 + place 1 110)) }

/-- The module with every cage trained in mode 0. -/
def caged : State := { up with cages := (List.range 12).map (fun i => (i, { mode := some 0, trained := true, watts := none })) }

/-- The module with an OSFP module of 20 W in cage 0. -/
def hungry : State := { up with cages := [(0, { mode := none, trained := false, watts := some 20 })] }

theorem netConfigCmd_passes (s : State) (h : (s.looked 0 5).gate netConfigCmd = none) :
    (s.looked 0 5).checkCommand 0 netConfigCmd = none := by
  have h1 : netConfigCmd.headerFault 0 = none := by decide +kernel
  have h2 : netConfigCmd.f 191 179 = netConfigCmd.wantLen := by decide +kernel
  have h4 : destAt netConfigCmd.opcode = none := by decide +kernel
  have h5 : reservedByte ((paramFields netConfigCmd.opcode).getD []) netConfigCmd.params = none :=
    reservedByte_netConfig _ (by decide +kernel)
  have h6 : netConfigCmd.hostErr = false := rfl
  simp only [State.checkCommand, h1, h2, h, h4, h5, h6, ne_eq, not_true, if_false, Bool.false_eq_true]

theorem witness_net_config : ∀ u, u = up ∨ u = caged ∨ u = hungry →
    (u.withCmds [netConfigCmd]).runsCommand 0 0x0B 5 netConfigCmd ∧ (∀ i < 12, netConfigCmd.p i 1 ≤ 2) ∧
    (∀ p < 48, field (portEntry netConfigCmd p) 109 0 = 0) ∧
    (∀ p < 48, ((((u.withCmds [netConfigCmd]).looked 0 5).setCages netConfigCmd).portExists p = true →
        entryBad (portEntry netConfigCmd p) = false) ∧
      ((((u.withCmds [netConfigCmd]).looked 0 5).setCages netConfigCmd).portExists p = false → portEntry netConfigCmd p = 0)) := by
  rintro u (rfl | rfl | rfl) <;> exact ⟨⟨rfl, rfl, rfl, rfl, netConfigCmd_passes _ rfl⟩, by decide +kernel⟩

theorem witness_net_config_watts :
    (∀ i < 12, ∀ w, ((up.withCmds [netConfigCmd]).cage i).watts = some w → w ≤ 18) ∧
    ((hungry.withCmds [netConfigCmd]).cage 0).watts = some 20 ∧ ((hungry.withCmds [netConfigCmd]).cage 0).trained = false :=
  ⟨fun i hi w h => by
    have e : ∀ i < 12, ((up.withCmds [netConfigCmd]).cage i).watts = none := by decide +kernel
    rw [e i hi] at h
    exact absurd h (by simp), rfl, rfl⟩

theorem witness_net_config_kept :
    (∀ i < 12, ((caged.withCmds [netConfigCmd]).cage i).trained = true ∧
      ((caged.withCmds [netConfigCmd]).cage i).mode = some (netConfigCmd.p i 1)) ∧
    ¬ (∀ i < 12, ((up.withCmds [netConfigCmd]).cage i).trained = true ∧
      ((up.withCmds [netConfigCmd]).cage i).mode = some (netConfigCmd.p i 1)) := by decide +kernel

/-- A flow of slot 0 that is open. -/
def flow0 : Flow := { Flow.init with state := 1, portMask := 1, npaths := 1, txKeys := [{ id := 1, key := 0, since := 0 }], txLive := true }

theorem witness_key_install :
    let b := { lone with flows := [0] }
    let s := (up.withCtx .bound none (some b) none).setFlow 0 flow0
    (let c := cmdOf 0x0C 0 (leBytes 48 (place 2 32))
     (s.withCmds [c]).runsCommand 0 0x0C 5 c ∧ (s.slot c.context).binding = some b ∧ c.p 0 4 ∈ b.flows ∧ c.p 6 1 = 0 ∧ c.p 7 1 = 0 ∧
      (s.flow 0).rxKeys.length < 2 ∧ ∀ x ∈ (s.flow 0).rxKeys, x.id ≠ c.p 4 2) ∧
    (let c := cmdOf 0x0C 0 (leBytes 48 (place 2 32 + place 1 48))
     (s.withCmds [c]).runsCommand 0 0x0C 5 c ∧ c.p 6 1 = 1 ∧ (s.flow 0).txKeys.length < 2 ∧
      ∀ x ∈ (s.flow 0).txKeys, x.id ≠ c.p 4 2) ∧
    (let c := cmdOf 0x0C 0 (leBytes 48 (place 2 32 + place 1 48 + place 1 56))
     (s.withCmds [c]).runsCommand 0 0x0C 5 c ∧ c.p 7 1 = 1) := by unfold State.runsCommand; decide +kernel

theorem witness_owner_enrol :
    let c := cmdOf 0x0D 15 (leBytes 200 1)
    (up.withCmds [c]).runsCommand 0 0x0D 5 c ∧ c.p 0 1 = 1 := by unfold State.runsCommand; decide +kernel

/-- A run of zeros. -/
def zeros (n : Nat) : List Byte := List.replicate n 0#8

/-- An image of one section and one object, without departures: header and section record; the Timetable, all zero; the object
descriptor; the Token table. -/
def smallFields : List Byte :=
  [0x31304E49534C4547, 1 + place 2 16 + place 1 32, 53888, 0, place 1 16 + place 10 48 + place 1 56, 1, 0, 0, 512, 576, 4096, 4736, 4672,
    0, 0, 0, 0, 0, 0].flatMap (leBytes 8)
def smallHead : List Byte := smallFields ++ (zeros 360 ++ leBytes 64 (place 0xFFFF 160))
def smallTail : List Byte :=
  leBytes 64 (place 64 224 + place 2 214 + place 6 210 + place 0xFFFFFFFF 155 + place 0xFFFFFFFF 123) ++ zeros 49152
def smallImage : List Byte := smallHead ++ (zeros 4096 ++ smallTail)

theorem leNat_zeros (n : Nat) : leNat (List.replicate n 0#8) = 0 := by
  induction n with
  | zero => rfl
  | succ n ih => simp [List.replicate_succ, leNat, ih]

/-- A number read inside a run of zeros is 0. -/
theorem leAt_zeros (a b : List Byte) (m off n : Nat) (h1 : a.length ≤ off) (h2 : off + n ≤ a.length + m) :
    leAt (a ++ (zeros m ++ b)) off n = 0 := by
  unfold zeros
  obtain ⟨d, rfl⟩ := Nat.exists_eq_add_of_le h1
  have h : ((a ++ (List.replicate m 0#8 ++ b)).drop (a.length + d)).take n = List.replicate n 0#8 := by
    rw [List.drop_append, List.drop_eq_nil_of_le (by omega), List.nil_append,
      List.drop_append_of_le_length (by simp; omega), List.drop_replicate,
      List.take_append_of_le_length (by simp; omega), List.take_replicate]
    congr 1; omega
  rw [leAt, sliceBytes, h]
  simp [leNat_zeros]

theorem sliceBytes_all (l : List Byte) (n : Nat) (h : l.length = n) : sliceBytes l 0 n = l := by
  subst h; simp [sliceBytes]

theorem zeros_length (n : Nat) : (zeros n).length = n := List.length_replicate

/-- `LOAD_IMAGE` of one range. -/
def loadCmd (len : Nat) : FetchedCmd := cmdOf 0x10 0 (leBytes 32 (len + place 1 64 + place 4096 128 + place len 192))

theorem smallHead_length : smallHead.length = 576 := by
  simp only [smallHead, show smallFields.length = 152 from rfl, List.length_append, zeros_length, Laws.leBytes_length]

theorem smallImage_slice : sliceBytes smallImage 0 53888 = smallImage :=
  sliceBytes_all _ _ (by
    simp only [smallImage, smallTail, smallHead_length, List.length_append, zeros_length, Laws.leBytes_length])

theorem smallImage_lines (h : Nat) (hh : h < 128) : lineBad (image smallImage) h = false := by
  have ht : (image smallImage).le 72 8 = 576 := by decide +kernel
  have h0 : ∀ j < 4, (image smallImage).lineWord (h / 128) (h % 128) j = 0 := by
    intro j hj
    rw [Image.lineWord, ht]
    exact leAt_zeros smallHead smallTail 4096 _ 8 (by rw [smallHead_length]; omega) (by rw [smallHead_length]; omega)
  simp [lineBad, Image.lineCount, h0, field]

theorem smallImage_reserved (k : Nat) (hk : k < 360) : (image smallImage).le (152 + k) 1 = 0 := by
  have h := leAt_zeros smallFields (leBytes 64 (place 0xFFFF 160) ++ (zeros 4096 ++ smallTail)) 360 (152 + k) 1
    (by rw [show smallFields.length = 152 from rfl]; omega)
    (by rw [show smallFields.length = 152 from rfl]; omega)
  simpa only [Image.le, image, smallImage, smallHead, List.append_assoc] using h

theorem headerFields_split (i : Image) (len : Nat) :
    headerFields i len = (headerFields i len).take 29 ++ zeroBytes i 152 360 := rfl

theorem smallImage_header : headerFault (image smallImage) 53888 = none := by
  have h0 : ((headerFields (image smallImage) 53888).take 29).all (fun x => x.2) = true := by decide +kernel
  have h1 : (zeroBytes (image smallImage) 152 360).all (fun x => x.2) = true := by
    rw [List.all_eq_true, zeroBytes]
    intro x hx
    obtain ⟨k, hk, rfl⟩ := List.mem_map.mp hx
    rw [smallImage_reserved k (List.mem_range.mp hk)]
    rfl
  have h2 : firstBad (headerFields (image smallImage) 53888) = none := by
    rw [firstBad, Option.map_eq_none_iff, List.find?_eq_none, headerFields_split]
    intro x hx
    rcases List.mem_append.mp hx with h | h
    · rw [List.all_eq_true.mp h0 x h]; decide
    · rw [List.all_eq_true.mp h1 x h]; decide
  have h4 : imageTables (image smallImage) = [(0, 0, 512), (64, 512, 32), (72, 576, 4096), (88, 4736, 49152), (96, 4672, 64),
      (104, 0, 0), (112, 0, 0), (120, 0, 0), (128, 0, 0), (136, 0, 0), (144, 0, 0)] := by decide +kernel
  have h3 : placementFault 53888 [] (imageTables (image smallImage)) = none := by rw [h4]; decide +kernel
  rw [headerFault, h2, h3]

theorem smallImage_sections : sectionFault (image smallImage) = none := by
  have hc : (image smallImage).sectionCount = 1 := by decide +kernel
  have hs : firstIx 1 (sectionBad (image smallImage)) = none := by decide +kernel
  have hu : (image smallImage).le 80 8 = 4096 := by decide +kernel
  have hl : firstIx (1 * 128) (lineBad (image smallImage)) = none := by
    rw [firstIx, List.find?_eq_none]
    intro h hh; rw [smallImage_lines h (List.mem_range.mp hh)]; decide
  rw [sectionFault, hc, hs, hu]
  exact (if_neg (by decide)).trans hl

theorem smallImage_good : imageFault up.flash (image smallImage) 53888 = none := by
  have h2 : sigCheck up.flash (image smallImage) = .good := by decide +kernel
  have h4 : firstIx (image smallImage).objectCount (objectBad (image smallImage)) = none := by decide +kernel
  have h5 : (image smallImage).slotCount = 0 := by decide +kernel
  have h6 : (image smallImage).unitCount = 0 := by decide +kernel
  have h7 : (image smallImage).collCount = 0 := by decide +kernel
  have h8 : (image smallImage).schedCount = 0 := by decide +kernel
  have h9 : (image smallImage).initCount = 0 := by decide +kernel
  rw [imageFault, smallImage_header, h2, smallImage_sections, h4, h5, h6, h7, h8, h9]
  rfl

theorem witness_load_image :
    (up.withCmds [loadCmd 53888]).runsCommand 0 0x10 5 (loadCmd 53888) ∧ loadFault (loadCmd 53888) = none ∧
    imageFault up.flash (image (sliceBytes smallImage 0 53888)) 53888 = none := by
  refine ⟨by unfold State.runsCommand; decide +kernel, by decide +kernel, ?_⟩
  rw [smallImage_slice]
  exact smallImage_good

theorem witness_load_image_refused :
    (up.withCmds [loadCmd 64]).runsCommand 0 0x10 5 (loadCmd 64) ∧ loadFault (loadCmd 64) = none ∧
    imageFault up.flash (image (sliceBytes [] 0 64)) 64 = some (0x2010, 0) := by
  unfold State.runsCommand; decide +kernel

/-- `BIND` of a job of one member, no flows and no ranges. -/
def bindCmd : FetchedCmd := cmdOf 0x11 0 (leBytes 64 0)

theorem witness_bind :
    let s := (up.withCtx .loaded (some (image [])) none none).withCmds [bindCmd]
    let v := s.looked 0 5
    let b := v.bindingOf bindCmd (image []) [] ((assignRuns (mapItems (image [])) v.runsHeld []).getD [])
    s.runsCommand 0 0x11 5 bindCmd ∧ bindFault bindCmd = none ∧ (s.slot 0).image = some (image []) ∧
    sameImage (image []) [] = true ∧ (assignRuns (mapItems (image [])) v.runsHeld []).isSome = true ∧
    capacityFault v (v.modSlot 0 (fun x => { x with binding := some b })) bindCmd (image []) = false ∧
    v.flowsFault (image []) b [] 0 = none ∧ depotFault v b = false ∧ v.shunter.retiring = [] := by
  unfold State.runsCommand; decide +kernel

theorem witness_release :
    let c := cmdOf 0x12 0 []
    let s := (up.withCtx .bound (some (image [])) (some lone) none).withCmds [c]
    s.runsCommand 0 0x12 5 c ∧ (s.slot c.context).binding = some lone ∧ (s.looked 0 5).shunter.retiring = [] := by unfold State.runsCommand; decide +kernel

/-- The empty image declares no object, so every object of a section lives. -/
theorem emptyImage_live (s : State) (c x : Nat) : s.allLive c (image []) x := by
  intro n o h
  rw [Image.obj, show (image []).objectCount = 0 by decide +kernel] at h
  simp at h

theorem witness_start :
    let c := cmdOf 0x13 0 (leBytes 8 100005)
    let s := { (up.withCtx .bound (some (image [])) (some lone) none).withCmds [c] with
      policies := { Policies.init with padded := true } }
    s.runsCommand 0 0x13 5 c ∧ (s.slot 0).image = some (image []) ∧ (s.slot 0).binding = some lone ∧ s.runSlot = none ∧
    (image []).needLock = false ∧ (s.looked 0 5).time.lt + 100000 ≤ c.p 0 8 ∧ (∀ f ∈ lone.flows, (s.flow f).txKeys ≠ []) ∧
    (s.looked 0 5).profileOk (image []) = true ∧ (s.looked 0 5).shunter.retiring = [] := by unfold State.runsCommand; decide +kernel

/-- A member of a job of two with one replica, and a flow to the other. -/
def pair : Binding := { lone with g := 2, rho := 1, shard1 := 4, depotFrames := 4, flows := [0] }

theorem witness_adopt :
    let c := cmdOf 0x19 0 (leBytes 8 100005)
    let s := ((up.withCtx .bound (some (image [])) (some pair) none).setFlow 0 flow0).withCmds [c]
    s.runsCommand 0 0x19 5 c ∧ (s.slot 0).image = some (image []) ∧ (s.slot 0).binding = some pair ∧ s.runSlot = none ∧
    pair.rho ≠ 0 ∧ (s.looked 0 5).time.lt + 100000 ≤ c.p 0 8 ∧ (∀ f ∈ pair.flows, (s.flow f).txKeys ≠ []) ∧
    (s.looked 0 5).shunter.retiring = [] := by
  unfold State.runsCommand; decide +kernel

theorem witness_resume :
    let c := cmdOf 0x16 0 []
    let s := (up.withCtx .preempted (some (image [])) (some pair) (some run0)).withCmds [c]
    let r := s.modSlot 0 (fun x => { x with savedNow := true })
    let d := (s.modSlot 0 (fun x => { x with savedNow := true, step := { x.step with dirty := [(0, 0)] } })).setColl
      { s.coll with replicas := [(1, .current)] }
    (s.runsCommand 0 0x16 5 c ∧ s.runSlot = none ∧ (s.slot 0).savedNow = false ∧ (s.slot 0).run = some run0 ∧
      (s.slot 0).binding = some pair ∧ (s.slot 0).image = some (image []) ∧ (s.looked 0 5).shunter.retiring = [] ∧
      ((image []).sect (s.slot 0).successor).hasPoints = false) ∧
    (r.runsCommand 0 0x16 5 c ∧ (r.slot 0).savedNow = true ∧ r.dirtyPages 0 = []) ∧
    (d.runsCommand 0 0x16 5 c ∧ (d.slot 0).savedNow = true ∧ d.dirtyPages 0 ≠ [] ∧ (d.withSlot 0).currentFrom pair 1 = some 1) ∧
    (let l := d.setColl { s.coll with replicas := [(1, .lost)] }
     l.runsCommand 0 0x16 5 c ∧ l.dirtyPages 0 ≠ [] ∧ (l.withSlot 0).currentFrom pair 1 = none) := by
  unfold State.runsCommand; decide +kernel

theorem witness_halt_preempt :
    (let c := cmdOf 0x14 0 []
     let s := (up.withCtx .preempted (some (image [])) (some lone) (some run0)).withCmds [c]
     s.runsCommand 0 0x14 5 c ∧ (s.slot 0).run = some run0 ∧ (s.slot 0).state = .preempted) ∧
    (let c := cmdOf 0x14 0 []
     let s := (up.withCtx .running (some (image [])) (some lone) (some run0)).withCmds [c]
     s.runsCommand 0 0x14 5 c ∧ (s.slot 0).run = some run0 ∧ (s.slot 0).state = .running ∧ (s.looked 0 5).shunter.retiring = []) ∧
    (let c := { cmdOf 0x14 0 [] with accepted := true }
     let s := (up.withCtx .running (some (image [])) (some lone)
       (some { run0 with cancelled := some 0xFFFF, halting := true })).withCmds [c]
     (s.looked 0 5).current 0 = some c ∧ (s.looked 0 5).mustWait c = false ∧ (s.looked 0 5).haltReady = true) ∧
    (∀ when' < 2, let c := cmdOf 0x15 0 (leBytes 8 when')
     let s := (up.withCtx .running (some (image [])) (some lone) (some run0)).withCmds [c]
     s.runsCommand 0 0x15 5 c ∧ (s.slot 0).run = some run0 ∧ c.p 0 1 = when' ∧ (s.looked 0 5).shunter.retiring = []) := by
  unfold State.runsCommand; decide +kernel

theorem witness_cancel :
    (let c := cmdOf 0x17 0 (leBytes 8 0xFFFF0000)
     let s := (up.withCtx .running (some (image [])) (some lone) (some run0)).withCmds [c]
     s.runsCommand 0 0x17 5 c ∧ (s.slot c.context).image = some (image []) ∧ (s.slot c.context).run = some run0 ∧
      run0.sect = c.p 0 2 ∧ run0.cancelled = none ∧ c.p 2 2 = 0xFFFF ∧ (s.looked 0 5).shunter.retiring = []) ∧
    (let c := cmdOf 0x17 0 (leBytes 8 1)
     let s := (up.withCtx .running (some (image [])) (some lone) (some run0)).withCmds [c]
     s.runsCommand 0 0x17 5 c ∧ run0.sect ≠ c.p 0 2) := by unfold State.runsCommand; decide +kernel

theorem witness_snapshot :
    let c := cmdOf 0x18 0 []
    (let s := (up.withCtx .running (some (image [])) (some pair) (some run0)).withCmds [c]
     s.runsCommand 0 0x18 5 c ∧ (s.slot 0).binding = some pair ∧ pair.rho ≠ 0 ∧ s.runSlot = some 0 ∧ s.collSlot = some 0) ∧
    (let s := (up.withCtx .running (some (image [])) (some lone) (some run0)).withCmds [c]
     s.runsCommand 0 0x18 5 c ∧ (s.slot 0).binding = some lone ∧ lone.rho = 0) := by unfold State.runsCommand; decide +kernel

theorem witness_resets :
    (let c := cmdOf 0x02 7 (leBytes 8 0)
     let s := up.withCmds [c]
     s.runsCommand 0 0x02 5 c ∧ c.p 0 1 = 0 ∧ c.context < 8 ∧ s.modState ≠ .stopped ∧ (s.slot c.context).state ≠ .running ∧
      (s.looked 0 5).shunter.retiring = []) ∧
    (let c := cmdOf 0x02 0 (leBytes 8 0)
     let s := (up.withCtx .running (some (image [])) (some lone) (some run0)).withCmds [c]
     s.runsCommand 0 0x02 5 c ∧ c.p 0 1 = 0 ∧ (s.slot c.context).state = .running ∧ (s.slot c.context).run = some run0 ∧
      (s.looked 0 5).shunter.retiring = []) ∧
    (∀ kind, kind = 1 ∨ kind = 2 → let c := cmdOf 0x02 15 (leBytes 8 kind)
     let s := up.withCmds [c]
     s.runsCommand 0 0x02 5 c ∧ c.p 0 1 = kind ∧ c.context = 15 ∧ s.resetLeaves (kind == 2) = true ∧ s.modState.settled = true) ∧
    (let c := cmdOf 0x02 15 (leBytes 8 1)
     let s := { up with modState := .training }.withCmds [c]
     s.runsCommand 0 0x02 5 c ∧ s.resetLeaves false = true ∧ s.modState.settled = false) ∧
    (∀ kind, kind = 1 ∨ kind = 2 → let c := cmdOf 0x02 0 (leBytes 8 kind)
     (up.withCmds [c]).runsCommand 0 0x02 5 c ∧ c.p 0 1 = kind ∧ c.context ≠ 15) ∧
    (let c := cmdOf 0x02 15 (leBytes 8 1)
     let s := { up with modState := .stopped, power := { up.power with powerStop := true } }.withCmds [c]
     s.runsCommand 0 0x02 5 c ∧ c.p 0 1 = 1 ∧ s.resetLeaves (c.p 0 1 == 2) = false) := by
  refine ⟨by unfold State.runsCommand; decide +kernel, by unfold State.runsCommand; decide +kernel, ?_,
    by unfold State.runsCommand; decide +kernel, ?_, by unfold State.runsCommand; decide +kernel⟩ <;>
    (rintro kind (rfl | rfl) <;> (unfold State.runsCommand; decide +kernel))

theorem witness_census :
    (∀ trigger < 3, let c := cmdOf 0x20 15 (leBytes 16 (trigger + place 7 8 + place 255 16 + place 2053 64))
     let s := up.withCmds [c]
     s.runsCommand 0 0x20 5 c ∧ (s.looked 0 5).census = .idle ∧ c.p 0 1 = trigger ∧ c.p 1 1 = 7 ∧
      (s.looked 0 5).time.lt + 2048 ≤ c.p 8 8 ∧ c ∈ ((s.looked 0 5).queue 0).cmds) ∧
    (let x := { cmdOf 0x20 15 [] with accepted := true }
     let s := { up.withCmds [x] with census := .scheduled 0 1 15 5 }
     let w := (s.advance 5).reachEpoch
     s.census = .scheduled 0 1 15 5 ∧ 5 ≤ w.time.lt ∧ w.censusWaits 15 = false ∧
      (s.queue 0).cmds.find? (fun y => y.accepted && y.opcode == 0x20) = some x) ∧
    (let x := { cmdOf 0x20 15 [] with accepted := true }
     let s := { up.withCmds [x] with census := .triggered 0 15 5 EvtRec.blank }
     s.census = .triggered 0 15 5 EvtRec.blank ∧ 5 ≤ (s.advance 5).reachEpoch.time.lt ∧
      (s.queue 0).cmds.find? (fun y => y.accepted && y.opcode == 0x20) = some x) := by
  unfold State.runsCommand; decide +kernel

/-! ## Witnesses: departures -/

/-- An image of two sections, two objects and one collective whose Station 0 has one departure on line 0 of section 0. -/
def depImage (w : BitVec 256) : Image :=
  image ([0, place 1 32, 0, 0, place 2 16, 2, place 1 32, 0, 160, 224, 0, 0, 320, 0, 0, 448, 0, 0, 0, 0].flatMap (leBytes 8) ++
    (leBytes 32 (place 1 152) ++ (leBytes 32 0 ++ (leBytes 32 (place 1 24 + 1) ++ (leBytes 32 w.toNat ++ (zeros 32 ++
    (leBytes 64 (place 4096 224 + place 2 214 + place 6 210) ++ (leBytes 64 (place 1 296 + place 1 272 + place 2 216) ++ leBytes 64 0))))))))

/-- A departure: opcode and the rest of its bits. -/
def dep (op rest : Nat) : BitVec 256 := BitVec.ofNat 256 (place op 192 + rest)

def depSt (w : BitVec 256) : State := up.withCtx .running (some (depImage w)) (some lone) (some run0)

def depHead (w : BitVec 256) : Head :=
  { c := 0, img := depImage w, sect := 0, index := 0, word := w, planned := 0, p := 0 }

/-- The instant of the witnesses: cycle 1. -/
def tick1 : IssueTick := { lt := 0, sc := 1, bad := [], acc := [] }

theorem witness_departures_issue :
    let w := dep 0x01 (place 5 148 + place 2 144 + place 127 118 + place 9 110 + place 3 106 + place 15 200)
    let s := (depSt w).setStation 0 { Station.init with tokens := [(5, 3)] }
    (Instr.token 0 0 tick1).departure = some (0, 0, tick1, tokenRule) ∧ s.issues 0 0 tick1 tokenRule (depHead w) := by
  refine ⟨rfl, ?_⟩
  unfold State.issues; decide +kernel

theorem witness_one_issue_each_cycle :
    let w := dep 0x01 0
    let s := depSt w
    let v := (s.advance tick1.lt).advanceSc (depHead w).p tick1.sc
    (Instr.token 0 0 tick1).departure = some (0, 0, tick1, tokenRule) ∧ (s.advance tick1.lt).headOf 0 0 = .head (depHead w) ∧
    (∃ u, exec (.token 0 0 tick1) s = .next u) ∧
    s.policies.budget = false ∧ Dep.opcode w = tokenRule.op ∧ leastOf (commonForm w ++ tokenRule.form 0 (depHead w)) = none ∧
    (s.station 0).lastIssue ≠ some (v.cycle (depHead w).p) ∧ 0 ∈ readyLines v 0 (v.cycle (depHead w).p) ∧
    leastOf (tokenRule.check v 0 0 (depHead w) ++ reasonsOf [(boundElsewhere (v.station 0) 0 (Dep.waits w), 4)]) = none := by
  refine ⟨rfl, ?_, ⟨_, rfl⟩, ?_⟩ <;> decide +kernel

theorem witness_malformed_form :
    let w := dep 0x01 1
    (Instr.token 0 0 tick1).departure = some (0, 0, tick1, tokenRule) ∧
    ((depSt w).advance tick1.lt).headOf 0 0 = .head (depHead w) ∧ Dep.opcode w = tokenRule.op ∧
    leastOf (commonForm w ++ tokenRule.form 0 (depHead w)) = some 1 ∧
    (depSt w).evt.enable = false ∧ (depSt w).evt.buffer.length < 64 := by
  refine ⟨rfl, ?_⟩
  decide +kernel

theorem witness_malformed_state :
    let w := dep 0xB2 0
    let v := ((depSt w).advance tick1.lt).advanceSc (depHead w).p tick1.sc
    (Instr.sidingExpect 0 0 tick1).departure = some (0, 0, tick1, expectRule) ∧
    ((depSt w).advance tick1.lt).headOf 0 0 = .head (depHead w) ∧ Dep.opcode w = expectRule.op ∧
    leastOf (commonForm w ++ expectRule.form 0 (depHead w)) = none ∧ (v.station 0).lastIssue ≠ some (v.cycle (depHead w).p) ∧
    dispatch v 0 (v.cycle (depHead w).p) = some 0 ∧
    leastOf (expectRule.check v 0 0 (depHead w) ++ reasonsOf [(boundElsewhere (v.station 0) 0 (Dep.waits w), 4)]) = some 0x0B := by
  refine ⟨rfl, ?_⟩
  decide +kernel

/-- A Siding of 4,096 granules on line 0. -/
def siding0 : Siding := { Siding.init with isSet := true, size := 4096 }

theorem witness_signalling :
    (let w := dep 0x01 0; (depSt w).issues 0 0 tick1 tokenRule (depHead w)) ∧
    (let w := dep 0x02 0; (depSt w).issues 0 0 tick1 sectionEndRule (depHead w)) ∧
    (let w := dep 0x04 (place 20000 86 + place 4095 74 + place 1 54); (depSt w).issues 0 0 tick1 boardRule (depHead w)) ∧
    (let w := dep 0xB1 (place 15 102 + place 98303 85 + place 1 68); (depSt w).issues 0 0 tick1 sidingSetRule (depHead w)) ∧
    (let w := dep 0xB2 (place 15 102 + place 2 94)
     ((depSt w).setStation 0 (Station.init.setSiding 15 siding0)).issues 0 0 tick1 expectRule (depHead w)) := by
  unfold State.issues; decide +kernel

/-- The `POINTS` of section 0, with one target. -/
def pointsWord : BitVec 256 := dep 0x03 (place 1 90 + place 31 80 + place 0xFFFF 64)
def pointsSel : PointsSel :=
  { station := 0, line := 0, value := 0, base := 1, targets := 1, mask := false, predict := 31, join := 0xFFFF,
    selected := none, index := 0, poisoned := false }

theorem witness_points :
    (depSt pointsWord).issues 0 0 tick1 pointsRule (depHead pointsWord) ∧
    (let run := { run0 with points := some pointsSel }
     let s := (depSt pointsWord).modSlot 0 (fun x => { x with run := some run })
     s.runSlot = some 0 ∧ (s.slot 0).state = .running ∧ (s.slot 0).run = some run ∧ run.points = some pointsSel ∧
     pointsSel.selected = none ∧ run.cancelled = none ∧ s.phys pointsSel.station = some 0) := by
  unfold State.issues; decide +kernel

/-- An open group of 256 rows, with `n` rows in flight. -/
def group0 (n : Nat) : Group := { Group.init with isOpen := true, count := 768, inFlight := n }

/-- Three groups with `n` rows in flight, and Siding 0. -/
def station0 (n : Nat) : Station :=
  { Station.init with groups := [(0, group0 n), (1, group0 n), (2, group0 n)], sidings := [(0, siding0)] }

def fp16Tile : Plane := { desc := 2, bytes := [], poison := [], tag := 0, sect := 0, refs := [], mags := [] }

theorem witness_stage :
    (∀ kind < 4, let w := dep 0x10 (place 2 98 + place kind 96 + place 7 71)
     ((depSt w).setStation 0 (station0 0)).issues 0 0 tick1 stageRule (depHead w) ∧ (stageOps w).kind = kind ∧
     (((depSt w).setStation 0 (station0 0)).hop 0 (kind - 2)).held = none) := by unfold State.issues; decide +kernel

theorem witness_mma :
    (∀ kind < 2, let w := dep 0x11 (place 2 98 + place 2 90 + place kind 88 + place 255 21 + place 255 5)
     ((depSt w).setStation 0 { station0 0 with active := some fp16Tile, switched := some 0 }).issues 0 0 tick1 mmaRule (depHead w) ∧
     (mmaOps w).kind = kind) := by unfold State.issues; decide +kernel

theorem witness_cplx :
    (∀ form, form = 1 ∨ form = 2 → let w := dep 0x12 (place 2 98 + place 2 90 + place form 54 + place 255 15)
     ((depSt w).setStation 0 (station0 0)).issues 0 0 tick1 cplxRule (depHead w)) ∧
    (let w := dep 0x15 (place 2 98); ((depSt w).setStation 0 (station0 0)).issues 0 0 tick1 ballastRule (depHead w)) := by
  refine ⟨?_, by unfold State.issues; decide +kernel⟩
  rintro form (rfl | rfl) <;> (unfold State.issues; decide +kernel)

theorem witness_loop_send :
    (let w := dep 0x13 (place 2 79 + place 1 56 + place 1 49 + place 1 42)
     ((depSt w).setStation 0 (station0 0)).issues 0 0 tick1 sendRule (depHead w) ∧ (sendOps w).siding = false ∧
     (sendOps w).cind = false) ∧
    (let w := dep 0x13 (place 1 105 + place 2 79 + place 1 56 + place 1 49 + place 1 42)
     ((depSt w).setStation 0 (station0 0)).issues 0 0 tick1 sendRule (depHead w) ∧ (sendOps w).siding = true) := by
  unfold State.issues; decide +kernel

/-- A Consist of tag 7 and this format, of one payload flit, that has come to the end of its path. -/
def consistOf (fmt : Nat) : Consist :=
  { header := BitVec.ofNat 256 (place fmt 179 + place 7 163 + place 1 107), data := List.replicate 256 1#8, poison := [], dist := 0,
    dep := none, size := 2, readyAt := 0 }

def consist7 : Consist := consistOf 2

/-- Hops of which none carries a Consist or has one to insert. -/
theorem hops_still (s : State) (h : s.hops.all (fun x => x.2.moving.isNone && x.2.own.isEmpty) = true) (n l : Nat) :
    (s.hop n l).moving = none ∧ (s.hop n l).own = [] := by
  unfold State.hop
  generalize s.hops = hops at h
  induction hops with
  | nil => exact ⟨rfl, rfl⟩
  | cons x xs ih =>
    obtain ⟨k, v⟩ := x
    rw [List.all_cons, Bool.and_eq_true, Bool.and_eq_true, Option.isNone_iff_eq_none, List.isEmpty_iff] at h
    simp only [tget]
    split
    · exact h.1
    · exact ih h.2

theorem witness_loop_take :
    let w := dep 0x14 (place 7 89 + place 2 64)
    let p := prevNode [] 0 0
    let s (fmt : Nat) := ((depSt w).setHop 0 0 { Hop.init with held := some (consistOf fmt), mode := .holding }).setHop p 0
      { Hop.init with occupied := 2 }
    ((depSt w).issues 0 0 tick1 takeRule (depHead w) ∧ ((depSt w).hop 0 (takeOps w).line).held = none) ∧
    ((s 2).issues 0 0 tick1 takeRule (depHead w) ∧ ((s 2).hop 0 (takeOps w).line).held = some consist7 ∧
      ((s 2).hop 0 (takeOps w).line).mode = .holding ∧ ((s 2).hop 0 (takeOps w).line).read = 0 ∧ consist7.tag = (takeOps w).tag ∧
      consist7.fmt = (takeOps w).fmt ∧ ((s 2).station 0).takes = [] ∧ ((s 2).station 0).prog ((s 2).depId 0 0 (depHead w)) = none ∧
      consist7.size = consist7.data.length / 256 + 1 ∧ consist7.data.length % 256 = 0 ∧ consist7.hops ≤ consist7.dist ∧
      consist7.flits + 1 = consist7.size ∧
      ((s 2).hop (prevNode (s 2).flash.retired 0 (takeOps w).line) (takeOps w).line).occupied = consist7.size) ∧
    (∀ n l, ((s 2).hop n l).moving = none ∧ ((s 2).hop n l).own = []) ∧
    ((s 3).issues 0 0 tick1 takeRule (depHead w) ∧ ((s 3).hop 0 (takeOps w).line).held = some (consistOf 3) ∧
      ((s 3).hop 0 (takeOps w).line).mode = .holding ∧ (consistOf 3).tag = (takeOps w).tag ∧ (consistOf 3).fmt ≠ (takeOps w).fmt) := by
  refine ⟨?_, ?_, hops_still _ (by decide +kernel), ?_⟩ <;> (unfold State.issues; decide +kernel)

theorem witness_groups :
    (let w := dep 0x16 (place 7 103 + place 1024 92 + place 1024 80 + place 1 76 + place 1 61)
     (depSt w).issues 0 0 tick1 openRule (depHead w) ∧ (openOps w).cascade = true ∧ (openOps w).clear = true) ∧
    (let w := dep 0x16 (place 2048 80)
     (depSt w).issues 0 0 tick1 openRule (depHead w) ∧ (openOps w).cascade = false ∧ (openOps w).clear = false) ∧
    (∀ n < 2, let w := dep 0x17 0
     let s := (depSt w).setStation 0 (station0 n)
     s.issues 0 0 tick1 closeRule (depHead w) ∧ ((s.station 0).group (closeOps w).slot).inFlight = n) := by
  unfold State.issues; decide +kernel

theorem witness_drains :
    ∀ n < 2,
    (let w := dep 0x60 (place 767 64 + place 1 3)
     let s := (depSt w).setStation 0 (station0 n)
     s.issues 0 0 tick1 (drainRule tick1.acc) (depHead w) ∧ ((s.station 0).group (drainOps w).group).inFlight = n) ∧
    (let w := dep 0x61 (place 767 64)
     let s := (depSt w).setStation 0 (station0 n)
     s.issues 0 0 tick1 (drainCplxRule tick1.acc) (depHead w) ∧
      (s.station 0).quiet [(drainOps w).group, (drainOps w).group + 1, (drainOps w).group + 2] = (n == 0)) := by
  unfold State.issues; decide +kernel

theorem witness_vectors :
    (let w := dep 0x62 (place 8192 72 + place 255 36)
     (depSt w).issues 0 0 tick1 convertRule (depHead w) ∧ ((depSt w).station 0).drainLast ≤ 0 ∧ ((depSt w).station 0).feeds = []) ∧
    (let w := dep 0x63 (place 8192 55 + place 255 0); (depSt w).issues 0 0 tick1 actRule (depHead w)) ∧
    (let w := dep 0x64 (place 4096 72 + place 8192 55 + place 255 9); (depSt w).issues 0 0 tick1 ewRule (depHead w)) ∧
    (let w := dep 0x65 (place 8192 72 + place 16384 55 + place 255 4); (depSt w).issues 0 0 tick1 normRule (depHead w)) ∧
    (let w := dep 0x66 (place 8192 72 + place 1 61 + place 255 46); (depSt w).issues 0 0 tick1 vstatsRule (depHead w)) := by
  unfold State.issues; decide +kernel

theorem witness_jobs :
    (let w := dep 0xB0 (place 63 55)
     let s := (depSt w).setStation 0 (station0 0)
     s.issues 0 0 tick1 manifestRule (depHead w) ∧ (manifestOps w).back = false) ∧
    (let w := dep 0xB0 (place 63 55 + place 1 54)
     (depSt w).issues 0 0 tick1 manifestRule (depHead w) ∧ (manifestOps w).back = true) ∧
    (let w := dep 0x58 (place 1 85 + place 2 57 + place 1 50 + place 1 16 + place 1 9 + place 1 2)
     (depSt w).issues 0 0 tick1 turnRule (depHead w) ∧ (turnOps w).cind = false ∧
      tget [] (depSt w).turns (turnOf 0) = []) ∧
    (let w := dep 0xD0 0; (depSt w).issues 0 0 tick1 (collRule []) (depHead w) ∧ ((depSt w).slot 0).binding ≠ none) ∧
    (let w := dep 0xD1 (place 98303 89)
     (depSt w).issues 0 0 tick1 rightAwayRule (depHead w) ∧ ((depSt w).slot 0).binding ≠ none) := by
  unfold State.issues; decide +kernel

/-! ## Witnesses: events of the Timetable, the array, the accumulators and the Loop -/

/-- A departure in progress in section 0. -/
def prog0 (w : BitVec 256) : Prog :=
  { id := { line := 0, index := 0, uid := 0 }, sect := 0, word := w, planned := 0, issueLt := 0, issueSc := 0, fired := false, next := 0,
    pass := 0, written := 0, doneSc := none, claim := 0, reachLt := 0, issueAt := 0, waits := [], stalls := [], due := 0, redone := false }

/-- Context 0 runs an image in which Station 0 stands as `st`. -/
def runSt (img : Image) (run : Run) (st : Station) : State := (up.withCtx .running (some img) (some lone) (some run)).setStation 0 st

theorem witness_departure_complete :
    ∀ allowance, allowance = 1 ∨ allowance = 2 →
    let pr := { prog0 (dep 0x01 (place allowance 204)) with doneSc := some 5, issueLt := 2, waits := [(0, 32)] }
    let s := runSt (image []) run0 { Station.init with progs := [pr] }
    let v := (s.advance 0).advanceSc 0 5
    let stalls := pr.stallParts (v.copy 0 - pr.issueAt) (v.cycle 0 - pr.issueSc)
    s.power.compStopped = false ∧ s.phys 0 = some 0 ∧
    (s.station 0).progs.find? (fun x => x.id.line == 0 && x.sect == 0 && x.id.index == 0 && x.doneSc.isSome) = some pr ∧
    pr.doneSc.getD 0 ≤ max (s.cycle 0) 5 ∧ s.workSlot = some 0 ∧ pr.fired = false ∧
    (chargeSum pr.waits + chargeSum stalls - 16 * Dep.allowance pr.word) / 16 = 2 - allowance := by
  rintro allowance (rfl | rfl) <;> decide +kernel

theorem witness_stopped_contexts :
    (up.withCtx .running (some (image [])) (some lone) (some run0)).runSlot = some 0 ∧
    (let pr := { prog0 (dep 0x01 0) with doneSc := some 5 }
     let s := (up.withCtx .stopped (some (image [])) (some lone) (some run0)).setStation 0 { Station.init with progs := [pr] }
     (s.slot 0).state = .stopped ∧ s.runSlot = none ∧ (Instr.token 0 0 tick1).departure = some (0, 0, tick1, tokenRule) ∧
     s.power.compStopped = false ∧ s.phys 0 = some 0 ∧
     (s.station 0).progs.find? (fun x => x.id.line == 0 && x.sect == 0 && x.id.index == 0 && x.doneSc.isSome) = some pr ∧
     pr.doneSc.getD 0 ≤ max (s.cycle 0) 5) := by
  refine ⟨by decide +kernel, by decide +kernel, by decide +kernel, rfl, ?_⟩
  decide +kernel

theorem witness_token_land :
    let early : Signal := { token := 255, count := 2, bySt := 0, byLine := 0, byIx := 0, bySect := 0, wb := none, sc := some 5 }
    let g : Signal := { early with count := 1, sc := some 4 }
    (let s := runSt (image []) run0 { Station.init with transit := [early] ++ g :: [], tokens := [(255, 65534)] }
     s.power.compStopped = false ∧ (s.station 0).transit = [early] ++ g :: [] ∧ g.token = 255 ∧ s.phys 0 = some 0 ∧
      g.visible (max (s.cycle 0) 5) = true ∧ early.visible (max (s.cycle 0) 5) = false ∧ (s.station 0).token 255 + g.count ≤ 65535) ∧
    (let s := runSt (image []) run0 { Station.init with transit := [early] ++ g :: [], tokens := [(255, 65535)] }
     65535 < (s.station 0).token 255 + g.count ∧ s.workSlot = some 0) := by decide +kernel

theorem witness_wait_timeout :
    (let w := dep 0x01 (place 5 148 + place 1 144)
     let v := (depSt w).advance 1000
     (depSt w).runSlot = some 0 ∧ (depSt w).phys 0 = some 0 ∧ ((depSt w).slot 0).image = some (depImage w) ∧
     v.headOf 0 0 = .head (depHead w) ∧ v.waitExpired 0 0 (depHead w) (1000 * (depImage w).waitTimeout) = some 0) ∧
    (let pr := prog0 (dep 0x14 (place 8 89))
     let s := (runSt (image []) run0 { Station.init with progs := [pr], takes := [(pr.id, 0, 8)] }).setHop 0 0
       { Hop.init with held := some consist7 }
     let v := s.advance 1000
     s.runSlot = some 0 ∧ s.phys 0 = some 0 ∧ (s.slot 0).image = some (image []) ∧ v.headOf 0 0 = .none ∧
     v.tagExpired 0 0 0 (1000 * (image []).waitTimeout) = some pr) := by decide +kernel

theorem witness_watchdog :
    let w := dep 0x01 0
    let s := depSt w
    let v := s.advance 1000
    let h := depHead w
    s.runSlot = some 0 ∧ s.phys 0 = some 0 ∧ (s.slot 0).image = some (depImage w) ∧ v.headOf 0 0 = .head h ∧
    waitsMet (v.station 0) (Dep.waits h.word) = true ∧ gseqWaits (v.station 0) h.word = false ∧ (v.station 0).waits = [] ∧
    (v.watchSpan 0 0 h).1 ≤ (v.watchSpan 0 0 h).2 ∧
    1000 * (depImage w).waitTimeout ≤ (v.watchSpan 0 0 h).2 - (v.watchSpan 0 0 h).1 -
      suspended v.coll.suspends (v.watchSpan 0 0 h).1 (v.watchSpan 0 0 h).2 := by decide +kernel

/-- A Siding position. -/
def pos0 (source : PosSource) (st : PosState) : Pos :=
  { num := 0, state := st, source := source, object := 0, row := 0, col := 0, desc := 2, sect := 0, poison := false, ringAt := 0, len := 1,
    done := false, cut := false, ahead := false, reads := [], firstLt := 0, beganSc := 0 }

/-- A Manifest of one fetched Waybill. -/
def manifest0 (back : Bool) (word : Nat) : Manifest :=
  { dep := { line := 0, index := 0, uid := 0 }, issueLt := 0, sect := 0, object := 0, first := 0, count := 1, writeBack := back, siding := 0,
    forSect := 0, token := 0xC0, fetched := 1, arrived := 1, bursts := [], wbs := [{ index := 0, word := word, stage := 0 }], failed := false,
    cancelled := false }

theorem witness_siding_overflow :
    (let pr := prog0 (dep 0x10 (place 1 96))
     let s := runSt (image []) run0 { Station.init with progs := [pr] }
     let v := (s.advance 0).noteFills 0
     s.runSlot = some 0 ∧ (s.slot 0).image = some (image []) ∧ (v.station 0).hungTake 0 = some pr ∧
     pr.reachLt + 1000 * (image []).waitTimeout ≤ v.time.lt) ∧
    (let m := manifest0 false (place 2 281)
     let x := pos0 (.waybill m.dep 0) .reserved
     let w : FillWait := { num := 0, began := 0, since := 0, hungLt := some 0 }
     let s := runSt (image []) run0 { Station.init with
       pilot := [m], sidings := [(0, { siding0 with size := 1, slots := [x], next := 1, wait := some w })] }
     let v := (s.advance 0).noteFills 0
     s.runSlot = some 0 ∧ (s.slot 0).image = some (image []) ∧ (v.station 0).hungTake 0 = none ∧
     ((v.station 0).siding 0).wait = some w ∧ ((v.station 0).siding 0).oldest = some x ∧ w.num = x.num ∧
     0 + 1000 * (image []).waitTimeout ≤ v.time.lt ∧ v.fillDep 0 0 x = some (0, 0)) := by decide +kernel

/-- An image whose section 0 resets Token 0 and whose successor is itself. -/
def tresetImage : Image := image ([0, 0, 32, 0, 0, 0, 0, 0, 0, 1000].flatMap (leBytes 8))

theorem witness_boundary :
    ∀ r ∈ [run0, { run0 with preemptAt := some 0 }, { run0 with cancelled := some 0xFFFF }, { run0 with cancelled := some 1 }],
    let v := ((runSt tresetImage r Station.init).advance 0).reachEpoch
    v.runSlot = some 0 ∧ (v.slot 0).image = some tresetImage ∧ (v.slot 0).run = some { r with epochSeen := true } ∧
    v.boundaryReady 0 tresetImage { r with epochSeen := true } = true ∧ (tresetImage.sect 0).tresetCount = 1 ∧
    (nextSection tresetImage r).1 = r.cancelled.getD 0 := by decide +kernel

theorem witness_run_epoch :
    ∀ a ∈ [none, some AdoptPhase.known],
    let run := { run0 with waiting := true, epoch := 7 }
    let s := runSt (image []) run Station.init
    let s := s.setColl { s.coll with adopt := a }
    s.runSlot = some 0 ∧ (s.slot 0).image = some (image []) ∧ (s.slot 0).binding = some lone ∧ (s.slot 0).run = some run ∧
    run.epoch ≤ (s.advance 7).time.lt ∧ s.coll.adopt = a := by decide +kernel

/-- A multiply of one row from the Loop. -/
def mmaLoop (tag : Nat) : BitVec 256 := dep 0x11 (place 2 98 + place 2 90 + place 2 88 + place 7 71 + place tag 63)

/-- Station 0 with that multiply in the array's queue, and its record at the Loop's input. -/
def rowState (tag : Nat) : State :=
  let pr := prog0 (mmaLoop tag)
  let sh : Shadow := .full { fp16Tile with tag := 9 } 0
  let st := { station0 1 with progs := [pr], mulq := [pr.id], active := some fp16Tile, switched := some 0, shadow := sh }
  let s := (runSt (image []) run0 st).setHop 0 0
    { Hop.init with held := some { consist7 with size := 513 }, mode := .given pr.id 0, read := 3 }
  { s with power := { s.power with active := [0] } }

theorem witness_row_entry :
    ∀ tag, tag = 0 ∨ tag = 9 →
    let s := rowState tag
    let v := s.advanceSc 0 1
    s.power.compStopped = false ∧ s.phys 0 = some 0 ∧ entranceFree (s.station 0) (v.cycle 0) = true ∧ 0 ∈ s.power.active ∧
    ((v.nextRow 0 0 (v.cycle 0)).found v 0 []).nextRow 0 0 (v.cycle 0) = .row (prog0 (mmaLoop tag)) 0 0 0 0 6 3 false false { fp16Tile with tag := tag } (consist7.plane 0)
      (tag == 9) none ∧ fp16Tile.desc = 2 ∧ (consist7.plane 0).desc = 2 ∧ Fmt.ofDesc 2 = some ⟨.fp16, 0⟩ := by
  rintro tag (rfl | rfl) <;> decide +kernel

theorem witness_invalid_row :
    let pr := prog0 (dep 0x15 (place 8 98))
    let s := runSt (image []) run0 { Station.init with progs := [pr], mulq := [pr.id], lastInvalid := some (0, 1) }
    let s := { s with power := { s.power with active := [0] } }
    let v := s.advanceSc 0 1
    s.power.compStopped = false ∧ s.phys 0 = some 0 ∧ entranceFree (s.station 0) (v.cycle 0) = true ∧ 0 + 1 ≤ v.cycle 0 ∧
    ((v.nextRow 0 0 (v.cycle 0)).granted (s.power.active.contains 0)).some = false ∧ 0 ∈ s.power.active ∧
    ballastAt (s.station 0) = some pr ∧ pr.next + 1 = (ballastOps pr.word).nrows := by decide +kernel

theorem witness_staging :
    (let pr := prog0 (dep 0x10 0)
     let s := runSt (image []) run0 { Station.init with progs := [pr], shadow := .staging 9 2 pr.id (some fp16Tile) 5 }
     (s.station 0).shadow = .staging 9 2 pr.id (some fp16Tile) 5 ∧ 5 ≤ max (s.cycle 0) 5 ∧ (s.station 0).prog pr.id = some pr ∧
     Dep.opcode pr.word = opStage) ∧
    (let pr := prog0 (dep 0x12 0)
     let s := runSt (image []) run0 { Station.init with progs := [pr], shadow := .staging 0 2 pr.id (some fp16Tile) 5 }
     (s.station 0).prog pr.id = some pr ∧ Dep.opcode pr.word ≠ opStage) ∧
    (let id : DepId := { line := 0, index := 0, uid := 0 }
     let s := runSt (image []) run0 { Station.init with shadow := .staging 9 2 id (some fp16Tile) 5 }
     (s.station 0).prog id = none) := by decide +kernel

/-- A row in group 0, tile row 0, with one cell row whose sum is 1. -/
def row0 : Row :=
  { dep := { line := 0, index := 0, uid := 0 }, t := 0, pass := 0, entry := 0, c := 6, group := 0, tileRow := 0, sums := [[.one]],
    exps := [[some 0]], neg := false, refs := [.one], bound := .one, terms := [[.one]], poison := [], nterms := 256, path := 3, isat := false,
    dup := true, ovf := false, judged := false, retried := false, frees := none }

theorem witness_verdict :
    (∀ r ∈ [row0, { row0 with dup := false }], (r.verdict []).1 = false ∧
      (r.verdict [{ row := 0, block := 0, second := true, value := .zero }]).1 = r.dup ∧
      (r.verdict [{ row := 256, block := 0, second := false, value := .zero }]).1 = !r.dup) ∧
    (∀ r ∈ [row0, { row0 with retried := true }],
      let s := runSt (image []) run0 { station0 1 with inArray := [{ r with judged := true }, r, r] }
      s.power.compStopped = false ∧ s.phys 0 = some 0 ∧ s.runSlot = some 0 ∧ (s.station 0).inArray.filter (fun x => !x.judged) = r :: [r]) ∧
    (let s := runSt (image []) run0 { station0 1 with inArray := [{ row0 with judged := true }, row0] }
     (s.station 0).inArray = { row0 with judged := true } :: [row0]) := by
  decide +kernel

theorem witness_accumulators :
    let s := runSt (image []) run0 { station0 1 with tree := [(526, { row0 with judged := true })] }
    s.phys 0 = some 0 ∧ s.power.compStopped = false ∧ (s.station 0).tree = (526, { row0 with judged := true }) :: [] ∧
    ((s.station 0).group 0).cascade = false := by decide +kernel

theorem witness_spill :
    let x : Spill := { slot := 0, tileRow := 5, values := [Val.one], poison := [], mark := false, trigger := 0, hold := 0 }
    let s := runSt (image []) run0 { station0 1 with spills := [x] }
    s.phys 0 = some 0 ∧ s.power.compStopped = false ∧ (s.station 0).spills = x :: [] := by decide +kernel

theorem witness_interlock :
    ∀ isClose : Bool, ∀ op ∈ [0x17, 0x60, 0x61],
    let pr := prog0 (dep op 0)
    let w : Waiting := { dep := pr.id, isClose := isClose, groups := [0], since := 0 }
    let s := runSt (image []) run0 { station0 0 with progs := [pr], waits := [w] }
    s.phys 0 = some 0 ∧ s.power.compStopped = false ∧ (s.station 0).waits.find? (fun w => (s.station 0).quiet w.groups) = some w ∧
    (s.station 0).prog w.dep = some pr ∧ Dep.opcode pr.word = op := by decide +kernel

theorem witness_acc_save :
    let run := { run0 with switching := true, cancelled := some 0 }
    let s := runSt (image []) run (station0 0)
    s.phys 0 = some 0 ∧ s.runSlot = some 0 ∧ (s.slot 0).run = some run ∧ run.switching = true ∧ (s.station 0).saved = false ∧
    (s.station 0).still = true ∧ (s.station 0).quiet (List.range 8) = true ∧ (s.station 0).workEnds + 2056 ≤ max (s.cycle 0) 2056 := by decide +kernel

theorem witness_insert :
    let s := up.setHop 135 1 { Hop.init with own := [consist7], credits := 0, retCred := 1 }
    s.power.compStopped = false ∧ (s.hop 135 1).own = consist7 :: [] ∧ (s.hop 135 1).held = none ∧ (s.hop 135 1).open = true := by
  decide +kernel

/-- A Consist with a path of h hops, used from hop f. -/
def path (f h : Nat) : Consist :=
  { consist7 with header := BitVec.ofNat 256 (place 2 179 + place h 140 + place f 133 + place 1 126 + place 1 107) }

/-- Hops of which none gives its Consist to a departure. -/
theorem hops_free (s : State) (h : s.hops.all (fun x => match x.2.mode with | .given _ _ => false | _ => true) = true)
    (n l : Nat) (id : DepId) (m : Nat) : (s.hop n l).mode ≠ .given id m := by
  unfold State.hop
  generalize s.hops = hops at h
  induction hops with
  | nil => intro h; cases h
  | cons x xs ih =>
    obtain ⟨k, v⟩ := x
    rw [List.all_cons, Bool.and_eq_true] at h
    simp only [tget]
    split
    · intro hv; rw [hv] at h; simp at h
    · exact ih h.2

/-- A Consist whose header is on its way to node p on line Down. -/
def arrival (p : Nat) (c : Consist) : State :=
  up.setHop (prevNode up.flash.retired p 1) 1 { Hop.init with moving := some c, sent := 2, inFlight := 2 }

theorem witness_arrive :
    ∀ p, p = (0 : Fin 144) ∨ p = 136 → ∀ c ∈ [path 1 2, path 2 2, path 2 0],
    let s := arrival p c
    let q := prevNode s.flash.retired p 1
    let here := decide (p.val < 136) && (s.logical p).isSome
    let x := if here then { c with dist := c.dist + 1 } else c
    s.power.compStopped = false ∧ (s.hop q 1).moving = some c ∧ (s.hop q 1).arrived = false ∧ (s.hop q 1).blocked = false ∧
    (s.hop q 1).inFlight ≠ 0 ∧ (s.hop p 1).held = none ∧ p.val ∉ s.flash.retired ∧ q ≠ p.val ∧ c.size ≠ 0 ∧
    s.discards c.sect = false ∧ here = (p == 0) ∧ (s.station 0).takes = [] ∧ (s.hop p 1).open = true ∧ (s.hop p 1).moving = none ∧
    (p = 0 → (x.usedAt x.dist = (c == path 1 2)) ∧ (decide (x.dist < x.hops) = (c != path 2 0))) := by
  rintro p (rfl | rfl) <;> decide +kernel

theorem witness_arrive_free (p : Nat) (c : Consist) : ∀ n l id m, ((arrival p c).hop n l).mode ≠ .given id m :=
  hops_free _ rfl

theorem witness_parity :
    let s := up.setHop 143 1 { Hop.init with moving := some consist7, sent := 2, replay := [31, 0], fails := 8, inFlight := 2 }
    s.power.compStopped = false ∧ s.oldestFlit 143 1 = some (consist7, 0) ∧ (s.hop 143 1).replay = 31 :: [0] ∧
    (s.hop 143 1).blocked = false ∧ (s.hop 143 1).inFlight ≠ 0 ∧
    ∀ f ∈ [(0 : Fin 2092), 2047, 2048, 2091], parityBad (consist7.arrives 0 31 [f]).1 (consist7.arrives 0 31 [f]).2 = true := by
  decide +kernel

theorem witness_replay_and_down :
    (let s := up.setHop 143 1 { Hop.init with request := some 31 }
     s.power.compStopped = false ∧ (s.hop 143 1).request.isSome = true) ∧
    (let s := up.setHop 143 1 { Hop.init with fails := 9 }
     s.power.compStopped = false ∧ (s.hop 143 1).fails = 9 ∧ (s.hop 143 1).down = false) := by decide +kernel

theorem witness_retire :
    (let s := { runSt (image []) run0 Station.init with retireQ := [135] }
     s.power.compStopped = false ∧ 135 ∈ s.retireQ ∧ 135 ∉ s.flash.retired ∧ s.census = .idle ∧
     hasSpare s.flash.retired (135 / 17) = true) ∧
    (let s := { runSt (image []) run0 Station.init with retireQ := [16], flash := { up.flash with retired := [0] } }
     16 ∈ s.retireQ ∧ 16 ∉ s.flash.retired ∧ s.census = .idle ∧ s.logical 16 ≠ none ∧ hasSpare s.flash.retired (16 / 17) = false ∧
     s.modState = .ready) := by decide +kernel

theorem witness_replay :
    (let s := { (up.withCtx .recovering (some (image [])) (some lone) (some run0)) with replay := true }
     s.runSlot = some 0 ∧ (s.slot 0).state = .recovering ∧ (s.slot 0).image = some (image []) ∧ (s.slot 0).binding = some lone ∧
     (s.slot 0).run = some run0 ∧ s.replay = true ∧ s.retireQ = [] ∧ s.census = .idle ∧ s.coll.asked = none ∧ s.dirtyPages 0 = []) ∧
    (∀ r ∈ [Replica.current, Replica.lost],
     let s := { (up.withCtx .recovering (some (image [])) (some pair) (some run0)) with replay := true }
     let s := (s.modSlot 0 (fun x => { x with step := { x.step with dirty := [(0, 0)] } })).setColl { s.coll with replicas := [(1, r)] }
     s.runSlot = some 0 ∧ (s.slot 0).binding = some pair ∧ s.replay = true ∧ s.retireQ = [] ∧ s.coll.asked = none ∧
     s.dirtyPages 0 ≠ [] ∧ s.currentFrom pair 1 = (if r = .current then some 1 else none)) := by decide +kernel

/-! ## Witnesses: the Pilot, the Turntables and the Shunter -/

theorem witness_burst_fetch :
    let m := { manifest0 false 0 with count := 63, fetched := 0, arrived := 0, wbs := [] }
    let s := runSt (image []) run0 { Station.init with pilot := [m], wbHeld := 48 }
    s.power.compStopped = false ∧ s.workSlot = some 0 ∧ (s.slot 0).image = some (image []) ∧
    (s.station 0).pilot.find? (fun m => decide (m.fetched < m.count) && !m.cancelled && !m.failed) = some m ∧
    (s.station 0).wbHeld + m.burst ≤ 64 := by decide +kernel

/-- A Waybill that fills from tile (0, 0) of object 1. -/
def fillWord : Nat := place 1 315 + place 2 273

/-- The bytes of object 0, in frame 0 of Tier S: this Waybill. -/
def waybillMem (s : State) (word : Nat) : State :=
  let s := s.modSlot 0 (fun x => { x with binding := some { lone with mapBase := [(0, 0)] } })
  { s with tiers := { s.tiers with mem := memWriteBytes [] 0 (leBytes 64 word), map := [(0, { MapEntry.init with state := 1 })] } }

/-- A burst whose read of frame 0 is in flight. -/
def burst0 : Burst := { firstLt := 7, reads := [{ entry := 0, frame := 0, zero := false }] }

theorem witness_burst_arrive :
    ∀ word, word = fillWord ∨ word = 0 →
    let m := { manifest0 false 0 with arrived := 0, bursts := [burst0], wbs := [] }
    let pr := prog0 (dep 0xB0 0)
    let img := depImage 0
    let s := waybillMem (runSt img run0 { station0 0 with pilot := [m], progs := [pr] }) word
    let v := s.advance 7
    let n := min 16 (m.count - m.arrived)
    let grans := granulesOf (m.wbByte m.arrived) (64 * n)
    let data := v.objReadFrom 0 m.object burst0.reads (m.wbByte m.arrived) (64 * n)
    s.power.compStopped = false ∧ s.workSlot = some 0 ∧ s.phys 0 = some 0 ∧ (s.slot 0).image = some img ∧
    (s.station 0).pilot.find? (fun m => m.bursts != [] && !m.cancelled && !m.failed) = some m ∧
    (s.station 0).manifest m.dep = some m ∧ m.bursts = burst0 :: [] ∧ burst0.firstLt ≤ v.time.lt ∧ n = 1 ∧ data.2 = [] ∧
    s.mapBase 0 m.object = some 0 ∧ v.foundIn 0 burst0.reads grans [] = [] ∧
    (leastOf (waybillReasons v 0 img m.writeBack ((s.station 0).siding m.siding).size
      (Waybill.ofNat (leNat (sliceBytes data.1 0 64)))) = none ↔ word = fillWord) ∧
    m.arrived + n = m.count ∧ (s.station 0).prog m.dep = some pr ∧
    0 ∈ ReadError.pick [{ gran := 0, corrected := false }] false grans ∧
    ((v.correctedReads 0 m.object burst0.reads (ReadError.pick [{ gran := 0, corrected := false }] true grans)).served burst0.reads 0).zero
      = false := by
  rintro word (rfl | rfl) <;> decide +kernel

theorem witness_fill_start :
    let m := manifest0 false fillWord
    let x := pos0 (.waybill m.dep 0) .reserved
    let s := runSt (depImage 0) run0 { Station.init with pilot := [m], sidings := [(15, { siding0 with slots := [x], next := 1 })] }
    let v := ((s.advance 0).advanceSc 0 0).noteFills 0
    let d := (v.station 0).siding 15
    s.power.compStopped = false ∧ s.phys 0 = some 0 ∧ s.workSlot = some 0 ∧ (s.slot 0).image = some (depImage 0) ∧
    d.oldest = some x ∧ x.source = .waybill m.dep 0 ∧ v.fillAsked 0 15 x = some 2048 ∧
    (s.station 0).manifest m.dep = some m ∧ m.wbs.find? (fun w => w.index == 0) = some { index := 0, word := fillWord, stage := 0 } ∧
    ((depImage 0).obj (Waybill.ofNat fillWord).object).isSome = true ∧ d.mayStart x.num 2048 = true := by
  decide +kernel

/-- A fill of 2,048 granules in flight, at the end of the ring. -/
def landing (cut : Bool) : Pos :=
  { pos0 (.waybill (manifest0 false 0).dep 0) .inFlight with
    ringAt := 3072, len := 2048, cut := cut, reads := [{ entry := 0, frame := 0, zero := false }], firstLt := 5 }

/-- That fill, of a Waybill. -/
def landState (word : Nat) (cut : Bool) : State :=
  runSt (depImage 0) run0 { Station.init with
    pilot := [manifest0 false word], sidings := [(15, { siding0 with slots := [landing cut], next := 1 })] }

theorem witness_fill_land_pos :
    ∀ word ∈ [fillWord, place 2 273], ∀ cut : Bool, let s := landState word cut
    let m := manifest0 false word
    let v := (s.advance 5).advanceSc 0 512
    s.power.compStopped = false ∧ s.phys 0 = some 0 ∧
    (((s.station 0).siding 15).slots.filter (fun x => x.state == .inFlight))[0]? = some (landing cut) ∧
    ((s.station 0).siding 15).pos (landing cut).num = some (landing cut) ∧ (landing cut).cut = cut ∧ (landing cut).reads ≠ [] ∧
    (landing cut).firstLt ≤ v.time.lt ∧ (landing cut).beganSc + ceilDiv (landing cut).len 4 ≤ v.cycle 0 ∧
    (landing cut).source = .waybill m.dep 0 ∧ s.workSlot = some 0 ∧ (s.slot 0).image = some (depImage 0) ∧
    (s.station 0).manifest m.dep = some m ∧ m.wbs.find? (fun w => w.index == 0) = some { index := 0, word := word, stage := 0 } ∧
    (landing cut).len ≤ ((s.station 0).siding 15).size ∧ (landing cut).ringAt < ((s.station 0).siding 15).size := by decide +kernel

theorem witness_fill_land :
    ∃ od, (depImage 0).obj (Waybill.ofNat fillWord).object = some od ∧ od.aborting = false ∧
      ((((landState fillWord false).advance 5).advanceSc 0 512).readBack 0 (Waybill.ofNat fillWord).object (landing false).reads
        ((Waybill.ofNat fillWord).spans od) []).2.bytes.length = 64 * (landing false).len := by
  refine ⟨ObjDesc.ofNat ((depImage 0).objWord 1), by decide +kernel, by decide +kernel, ?_⟩
  have h2 : (((landState fillWord false).advance 5).advanceSc 0 512).mapBase 0 (Waybill.ofNat fillWord).object = none := by decide +kernel
  have h3 : (Waybill.ofNat fillWord).spans (ObjDesc.ofNat ((depImage 0).objWord 1)) = [(0, 131072)] := by decide +kernel
  rw [h3]
  simp only [State.readBack, State.objReadFrom, h2, List.map_cons, List.map_nil, List.flatMap_cons, List.flatMap_nil,
    List.append_nil, List.length_replicate]
  decide +kernel

theorem witness_fill_land_aborting :
    let s := waybillMem (landState (place 2 273) false) 0
    let v := (s.advance 5).advanceSc 0 512
    let wb := Waybill.ofNat (place 2 273)
    let od := ObjDesc.ofNat ((depImage 0).objWord 0)
    (depImage 0).obj wb.object = some od ∧ od.aborting = true ∧ s.mapBase 0 wb.object = some 0 ∧
    (v.readBack 0 wb.object (landing false).reads (wb.spans od) [{ gran := 0, corrected := false }]).2.bad = [0] := by decide +kernel

/-- A Waybill that writes one granule back to object 0, a plain object. -/
def backWord : Nat := place 1 281 + place 3 270

theorem witness_writeback :
    (let m := manifest0 true backWord
     let s := runSt (depImage 0) run0 { Station.init with pilot := [m] }
     s.power.compStopped = false ∧ (s.station 0).nextBack 0 = some (m, { index := 0, word := backWord, stage := 0 }) ∧
     s.workSlot = some 0 ∧ m.cancelled = false ∧ s.sectionOpen 0 m = true) ∧
    (let w : Wb := { index := 0, word := backWord, stage := 1 }
     let m := { manifest0 true backWord with wbs := [w] }
     let s := runSt (depImage 0) run0 { Station.init with pilot := [m] }
     let d := ObjDesc.ofNat ((depImage 0).objWord 0)
     (s.station 0).nextBack 1 = some (m, w) ∧ s.workSlot = some 0 ∧ s.phys 0 = some 0 ∧ (s.slot 0).image = some (depImage 0) ∧
     (depImage 0).obj (Waybill.ofNat w.word).object = some d ∧
     storePoisoned (s.station 0) (64 * (Waybill.ofNat w.word).store) (64 * (Waybill.ofNat w.word).gran) = [] ∧
     d.aborting = true ∧
     (storePoisoned { s.station 0 with storePoison := [(Waybill.ofNat w.word).store + 0] } (64 * (Waybill.ofNat w.word).store)
       (64 * (Waybill.ofNat w.word).gran)).map (fun g => g - (Waybill.ofNat w.word).store) = [0]) := by decide +kernel

/-- Turntable 0 with one `TURN` of Station 0 in its queue, of tile (0, 0) of an object to Siding 1 or to line Up. -/
def turnWord (object dest : Nat) : BitVec 256 :=
  dep 0x58 (place object 85 + place 2 57 + place dest 50 + place (1 - dest) 39)
def turnReq (w : BitVec 256) : TurnReq := { station := 0, dep := (prog0 w).id, sect := 0, word := w, row := 0, col := 0, sc := 0 }
def turnState (w : BitVec 256) : State :=
  waybillMem { runSt (depImage w) run0 { Station.init with progs := [prog0 w], sidings := [(1, siding0)] } with turns := [(0, [turnReq w])] } 0

theorem witness_turntable :
    ∀ object, object = 0 ∨ object = 1 → ∀ dest, dest = 0 ∨ dest = 1 →
    let o := turnOps (turnWord object dest)
    let s := turnState (turnWord object dest)
    let w := (((s.advance 0).turnTick 0 0).pump 136 0).pump 136 1
    let v := if o.dest = 0 then w.noteFills o.dstStation else w
    let od := ObjDesc.ofNat ((depImage (turnWord object dest)).objWord object)
    s.power.compStopped = false ∧ tget [] w.turns 0 = turnReq (turnWord object dest) :: [] ∧ w.workSlot = some 0 ∧
    (w.slot 0).image = some (depImage (turnWord object dest)) ∧ (v.turnBuffers 0).length < 2 ∧
    (depImage (turnWord object dest)).obj o.object = some od ∧ Fmt.ofDesc o.ifmt = some ⟨.fp16, 0⟩ ∧ Fmt.ofDesc o.ofmt = some ⟨.fp16, 0⟩ ∧
    Round.ofCode o.round = some .rne ∧ o.dest = dest ∧ od.aborting = (object == 0) ∧ v.mapBase 0 0 = some 0 ∧
    (v.station 0).prog (turnReq (turnWord object dest)).dep = some (prog0 (turnWord object dest)) ∧
    (dest = 0 → ((v.station o.dstStation).siding o.siding).mayStart (prog0 (turnWord object dest)).claim (recGran o.ofmt) = true) := by
  rintro object (rfl | rfl) dest (rfl | rfl) <;> decide +kernel

theorem witness_turntable_error :
    let s := turnState (turnWord 0 0)
    let w := (((s.advance 0).turnTick 0 0).pump 136 0).pump 136 1
    let v := w.noteFills (turnOps (turnWord 0 0)).dstStation
    (v.readBack 0 0 (v.readsOf 0 0 0 131072) [(0, 131072)] [{ gran := 2047, corrected := false }]).2.bad = [2047] := by decide +kernel

/-- Context 0 runs with one page, of object 0, whose map entry is `m`. -/
def pageState (m : MapEntry) : State :=
  let s := (runSt (image []) { run0 with epochSeen := true } Station.init).modSlot 0
    (fun x => { x with binding := some { lone with mapBase := [(0, 0)] } })
  { s with tiers := { s.tiers with map := [(0, m)] } }

theorem witness_page_start :
    ∀ zero : Bool,
    let m := { MapEntry.init with state := 1, tier := 2, frame := 5, zero := zero }
    (let s := pageState m
     let v := { s with shunter := { s.shunter with queued := [(0, 1)] } }.reachEpoch
     v.shunter.queued = (0, 1) :: [] ∧ v.shunter.moving.length < 256 ∧ v.mapEntry 0 = m ∧ m.state = 1 ∧ m.pinned = false ∧
      v.ownerOf 0 = some (0, 0) ∧ frameKey m.tier m.frame ∉ v.shunter.retiring ∧ v.freeFrame 0 1 = some 9) ∧
    (let s := pageState m
     let v := { s with shunter := { s.shunter with queued := [(0, 1)], retiring := [frameKey 2 5] } }.reachEpoch
     v.shunter.queued = (0, 1) :: [] ∧ v.mapEntry 0 = m ∧ v.ownerOf 0 = some (0, 0) ∧ frameKey m.tier m.frame ∈ v.shunter.retiring ∧
      (v.placePage 0 (orderFrom (v.homeOrderOf 0 0) m.tier)).isSome = true) ∧
    (let n := { MapEntry.init with state := 1, tier := 3, frame := 0, zero := zero, object := 1 }
     let s := pageState m
     let s := s.modSlot 0 (fun x => { x with binding := some { lone with mapBase := [(0, 0), (1, 1)], t3Frames := [0] } })
     let v := { s with
       shunter := { s.shunter with queued := [(0, 3)] }, tiers := { s.tiers with map := [(0, m), (1, n)] } }.reachEpoch
     v.shunter.queued = (0, 3) :: [] ∧ v.mapEntry 0 = m ∧ v.ownerOf 0 = some (0, 0) ∧ frameKey m.tier m.frame ∉ v.shunter.retiring ∧
      v.freeFrame 0 3 = none ∧ v.leaving 3 = false ∧ v.victim 0 3 = some (1, 0, 1) ∧
      (v.placePage 0 (v.demoteOrder 1 0 1 3)).isSome = true ∧ v.mapEntry 1 = n) := by decide +kernel

theorem witness_page_complete :
    let m := { MapEntry.init with state := 2, tier := 2, frame := 5, destTier := 1, destFrame := 9 }
    let s := pageState m
    let s := { s with shunter := { s.shunter with moving := [0] } }
    let v := (s.advance 0).reachEpoch
    s.shunter.moving[0]? = some 0 ∧ s.mapEntry 0 = m ∧ m.state = 2 ∧ m.zero = false ∧ (m.tier, m.frame) ≠ (m.destTier, m.destFrame) ∧
    m.tier < 3 ∧ m.destTier < 3 ∧ m.frame < 2 ^ 21 ∧ m.destFrame < 2 ^ 21 ∧ v.shunter.retiring = [] ∧
    (v.ctr .shuntMoves 0).value + 1 < Ctr.shuntMoves.top ∧ (v.ctr .shuntMoveGran 0).value + 32768 < Ctr.shuntMoveGran.top ∧
    131071 < pageGran ∧ s.ownerOf 0 = some (0, 0) := by decide +kernel

theorem witness_page_complete_tier3 :
    ∀ src, src = 2 ∨ src = 3 →
    let m := { MapEntry.init with state := 2, tier := src, frame := 5, destTier := 3, destFrame := 9 }
    let s := pageState m
    let s := { s with shunter := { s.shunter with moving := [0] } }
    s.mapEntry 0 = m ∧ (m.tier, m.frame) ≠ (m.destTier, m.destFrame) ∧ (m.tier = 3 → s.tier3Up = true) ∧
    (m.destTier = 3 → s.poisonListed + (if m.tier = 3 then 0 else (s.wholePoison 0).length) ≤ 65536) := by
  rintro src (rfl | rfl) <;> decide +kernel

/-- An image whose object 0 signals Token 7 of its Shunter Tokens at Station 127 for its use in section 0. -/
def readyImage : Image :=
  image ([0, 0, 0, 0, place 1 16, 1, 0, 0, 0, 1000, 0, 0, 160, 0, 0, 0, 0, 0, 0, 0].flatMap (leBytes 8) ++
    leBytes 64 (place 0xFFFF 123 + place 1 122 + place 127 115 + place 7 112))

theorem witness_ready_signal :
    let s := runSt readyImage { run0 with epochSeen := true } Station.init
    let v := (s.advance 0).reachEpoch
    let o := ObjDesc.ofNat (readyImage.objWord 0)
    v.runSlot = some 0 ∧ (v.slot 0).state = .running ∧ (v.slot 0).image = some readyImage ∧ readyImage.obj 0 = some o ∧
    o.readyEn = true ∧ v.readyUse 0 0 o = some 0 ∧ o.readyStation = 127 ∧ o.readyToken = 7 := by decide +kernel

theorem witness_scrub :
    (∀ tier : Fin 3, let frame := up.tierFrames tier - 1
      frame < up.tierFrames tier ∧ 131071 < pageGran ∧ (tget [] up.tiers.errors (frameKey tier frame)).length < 15 ∧
      systemFrames tier ≤ frame ∧ up.entryAt tier frame = none ∧ frameKey tier frame ∉ up.tiers.draining) ∧
    (let s := { up with tiers := { up.tiers with errors := [(frameKey 1 9, List.replicate 15 0)] } }
     15 ≤ ((tget [] s.tiers.errors (frameKey 1 9)).filter (fun t => decide ((s.advance 0).time.lt < t + dayLt))).length ∧
      s.entryAt 1 9 = none) ∧
    (let s := pageState { MapEntry.init with state := 1, tier := 2, frame := 5 }
     8 < systemFrames 1 ∧ 0 ∈ s.mapVictims 0 0 ∧ 0 ∈ s.mapVictims 8 0) := by decide +kernel

/-! ## Witnesses: the network and line time -/

/-- The module with one port up, whose entry is `e`. -/
def portSt (port : Nat) (e : BitVec 512) : State :=
  { up with cages := [(portCage port, { mode := some 2, trained := true, watts := none })]
            ports := [(port, { Port.init with entry := e, lock := true })] }

/-- An entry that owns IPv6 address 0 and IPv4 address 0, with an MTU of 1,500. -/
def entry0 : BitVec 512 := BitVec.ofNat 512 (place 3 110 + place 1500 176)

/-- An arriving probe of flow 0, with this tag. -/
def probe (port : Nat) (tag : BitVec 128) : Frame :=
  let hdr := BitVec.ofNat 384 (place 1 380 + place 3 376)
  { good := true, fixed := 0, dstMac := BitVec.ofNat 48 port, kind := .udp, srcIp := 0, dstIp := 0, plain := true, udpSrc := 49152, udpDst := 47112, udpSum := 0,
    ce := false, size := 0, hdr := hdr, body := [], tag := tag,
    crc := BitVec.ofNat 32 (crc32c (leBytes 48 hdr.toNat ++ [] ++ leBytes 16 tag.toNat)) }

/-- Flow 0 is open with a key of receive. -/
def probeFlow : Flow := { flow0 with rxKeys := [{ id := 0, key := 0, since := 0 }] }

theorem crcByte_bound (c : Nat) (b : Byte) (h : c < 2 ^ 32) : crcByte c b < 2 ^ 32 := by
  have step : ∀ n, n < 2 ^ 32 → crcStep n < 2 ^ 32 := by
    intro n hn
    unfold crcStep
    split
    · exact Nat.xor_lt_two_pow (by omega) (by decide)
    · omega
  have hb : b.toNat < 2 ^ 32 := Nat.lt_of_lt_of_le b.isLt (by decide)
  unfold crcByte
  iterate 8 apply step
  exact Nat.xor_lt_two_pow h hb

theorem crc32c_bound (l : List Byte) : crc32c l < 2 ^ 32 := by
  have h : ∀ (l : List Byte) c, c < 2 ^ 32 → l.foldl crcByte c < 2 ^ 32 := by
    intro l
    induction l with
    | nil => exact fun c hc => hc
    | cons b l ih => exact fun c hc => ih _ (crcByte_bound c b hc)
  exact Nat.xor_lt_two_pow (h l _ (by decide)) (by decide)

theorem witness_frames :
    ∀ tag : BitVec 128,
    let frame := probe 0 tag
    let s := (portSt 0 entry0).setFlow 0 probeFlow
    let h := Hdr.ofBits frame.hdr
    let fl := s.flow h.flow
    s.portUp 0 = true ∧ frame.good = true ∧ frame.kind = .udp ∧ frame.dstMac.toNat = s.portMac 0 ∧
    portOwns (s.port 0).entry frame.dstIp.toNat = true ∧ frame.plain = true ∧ sumGood frame = true ∧ frame.udpDst.toNat = portUdp (s.port 0).entry ∧
    frame.size ≤ frameSize (s.port 0).entry (portMtu (s.port 0).entry) ∧
    frame.crc.toNat = crc32c (leBytes 48 frame.hdr.toNat ++ frame.body ++ leBytes 16 frame.tag.toNat) ∧ h.version = 1 ∧ h.type = 3 ∧
    h.reserved = false ∧ flowDie h.flow = portDie 0 ∧ fl.state = 1 ∧ frame.srcIp.toNat = fl.peerAddr ∧
    fl.rxKeys.find? (fun k => k.id == h.keyId) = some { id := 0, key := 0, since := 0 } ∧
    tget 0 fl.seen (h.keyId * 256 + h.path) ≤ h.txSeq ∧ frame.tag = tag ∧ ({ frame with good := false }).good = false ∧
    frameSize (s.port 0).entry (portMtu (s.port 0).entry) < ({ frame with size := 1519 }).size := by
  intro tag
  have h : (probe 0 0).dstMac.toNat = ((portSt 0 entry0).setFlow 0 probeFlow).portMac 0 ∧
      portOwns (((portSt 0 entry0).setFlow 0 probeFlow).port 0).entry (probe 0 0).dstIp.toNat = true ∧
      (probe 0 0).udpDst.toNat = portUdp (((portSt 0 entry0).setFlow 0 probeFlow).port 0).entry ∧
      (Hdr.ofBits (probe 0 0).hdr).version = 1 ∧ (Hdr.ofBits (probe 0 0).hdr).type = 3 ∧
      (Hdr.ofBits (probe 0 0).hdr).reserved = false ∧ flowDie (Hdr.ofBits (probe 0 0).hdr).flow = portDie 0 := by decide +kernel
  have h' : ((portSt 0 entry0).setFlow 0 probeFlow).flow (Hdr.ofBits (probe 0 0).hdr).flow = probeFlow ∧
      (Hdr.ofBits (probe 0 0).hdr).keyId = 0 ∧ (Hdr.ofBits (probe 0 0).hdr).path = 0 := by decide +kernel
  obtain ⟨h1, h2, h3, h4, h5, h6, h7⟩ := h
  obtain ⟨h8, h9, _⟩ := h'
  have hf : ((portSt 0 entry0).setFlow 0 probeFlow).flow (Hdr.ofBits (probe 0 tag).hdr).flow = probeFlow := h8
  refine ⟨by decide +kernel, rfl, rfl, h1, h2, rfl, rfl, h3, Nat.zero_le _, ?_, h4, h5, h6, h7, ?_⟩
  · simp only [probe, BitVec.toNat_ofNat]
    exact Nat.mod_eq_of_lt (crc32c_bound _)
  · dsimp only
    rw [hf]
    refine ⟨rfl, rfl, ?_, ?_, rfl, rfl, by decide +kernel⟩
    · rw [show (Hdr.ofBits (probe 0 tag).hdr).keyId = 0 from h9]; rfl
    · exact Nat.zero_le _

theorem witness_gateway :
    let s := portSt 47 entry0
    let six := s.setPort 47 { s.port 47 with gw6 := some (1, 0) }
    s.portUp 47 = true ∧ portOwns (s.port 47).entry 0 = true ∧ (if isV4 0 then 20 else 40) + 8 + 1452 ≤ portMtu (s.port 47).entry ∧
    bit (s.port 47).entry.toNat 111 = true ∧ resolveDue (s.advance 0).time.lt (s.port 47).gw6 = true ∧
    bit (six.port 47).entry.toNat 110 = true ∧ resolveDue (six.advance 0).time.lt (six.port 47).gw6 = false ∧
    resolveDue (six.advance 0).time.lt (six.port 47).gw4 = true ∧
    resolveDue (six.advance 30000000000).time.lt (six.port 47).gw6 = true := by decide +kernel

/-- A received packet with this type, PSN and acknowledgement, at the front of the flow's queue. -/
def rx (type psn ack now : Nat) : RxPkt :=
  { hdr := BitVec.ofNat 384 (place 1 380 + place type 376 + place now 372 + place psn 240 + place ack 208), body := [], ce := false }

/-- Three packets sent, of which none is known to have arrived. -/
def sentPkt (psn state : Nat) : Sent :=
  { psn := psn, msg := 0, off := 0, len := 0, last := true, poison := false, slot := false, path := 0, firstLt := 0, lastLt := 0, state := state }

theorem witness_flow_receive :
    (∀ psn ∈ [0, 1, 4294967295], ∀ now < 2,
      let fl := { flow0 with rxq := [rx 1 psn 0 now] }
      let s := (portSt 0 entry0).setFlow 0 fl
      let h := Hdr.ofBits (rx 1 psn 0 now).hdr
      s.flow 0 = fl ∧ fl.front 1 = some (h, rx 1 psn 0 now) ∧ h.psn = psn ∧ fl.rcvMap = [] ∧ s.mayAck 0 h.path = true ∧
      fl.txSeq < 2 ^ 48 ∧ (psnBelow h.psn fl.rcvNxt || fl.rcvMap.contains h.psn) = (psn == 4294967295) ∧
      (h.ackNow || (rx 1 psn 0 now).ce || (h.psn != fl.rcvNxt && !fl.rcvMap.contains (psnGap h.psn 1)) ||
        (psn == 4294967295) || decide (4 ≤ fl.unacked + 1)) = (now == 1 || psn != 0)) ∧
    (let fl := { flow0 with rxq := [rx 1 0 0 1], suspended := [(0, 0)] }
     let s := (portSt 0 entry0).setFlow 0 fl
     fl.front 1 = some (Hdr.ofBits (rx 1 0 0 1).hdr, rx 1 0 0 1) ∧ s.mayAck 0 0 = false) ∧
    (∀ now < 2, let fl := { flow0 with rxq := [rx 3 0 0 now] }
      let s := (portSt 0 entry0).setFlow 0 fl
      fl.front 3 = some (Hdr.ofBits (rx 3 0 0 now).hdr, rx 3 0 0 now) ∧ s.mayAck 0 (Hdr.ofBits (rx 3 0 0 now).hdr).path = true) ∧
    (let fl := { flow0 with rxq := [rx 2 0 1 0], sndNxt := 1, sent := [sentPkt 0 0] }
     let h := Hdr.ofBits (rx 2 0 1 0).hdr
     fl.front 2 = some (h, rx 2 0 1 0) ∧ fl.state = 1 ∧ psnBelow fl.sndUna h.ackPsn = true ∧ psnBelow fl.sndNxt h.ackPsn = false) ∧
    (let fl := { flow0 with state := 2, rxq := [rx 2 0 1 0], sndNxt := 1, sent := [sentPkt 0 0] }
     let h := Hdr.ofBits (rx 2 0 1 0).hdr
     fl.front 2 = some (h, rx 2 0 1 0) ∧ fl.state = 2 ∧ (∀ x ∈ fl.sent, psnBelow x.psn h.ackPsn = true) ∧ fl.nextOut = none) ∧
    (let fl := { flow0 with ackFrom := some 0 }
     let s := (portSt 0 entry0).setFlow 0 fl
     fl.ackFrom = some 0 ∧ fl.state = 1 ∧ s.mayAck 0 fl.ackPath = true ∧ fl.txSeq < 2 ^ 48) := by decide +kernel

theorem witness_ack_now : (Hdr.ofBits (rx 1 0 0 1).hdr).ackNow = true ∧ (Hdr.ofBits (rx 1 0 0 0).hdr).ackNow = false := by decide +kernel

def msg0 : OutMsg := { num := 0, data := [1, 2], poison := [], sect := 0, off := 0 }

theorem witness_data_send :
    (let fl := { flow0 with out := [msg0] }
     let s := (portSt 0 entry0).setFlow 0 fl
     let v := s.advance 0
     s.flow 0 = fl ∧ fl.state = 1 ∧ fl.txLive = true ∧ fl.txKeys ≠ [] ∧ fl.txSeq < 2 ^ 48 ∧ fl.sent = [] ∧ fl.nextOut = some msg0 ∧
     v.nextPath 0 fl.rotation = some 0 ∧ 64 * (fl.sent.filter (fun x => x.state == 0)).length < fl.cwnd ∧
     psnGap fl.sndNxt fl.sndUna < 384 ∧ v.slotAllows 0 = true ∧ v.paceAllows 0 = true) ∧
    (let fl := { flow0 with out := [{ msg0 with off := 2 }], sent := [sentPkt 0 2], sndNxt := 1 }
     let s := (portSt 0 entry0).setFlow 0 fl
     let v := s.advance 0
     s.flow 0 = fl ∧ fl.sent.find? (fun x => x.state == 2) = some (sentPkt 0 2) ∧ v.nextPath 0 ((sentPkt 0 2).path + 1) = some 0 ∧
     fl.out.find? (fun m => m.num == 0) = some { msg0 with off := 2 }) := by decide +kernel

theorem witness_timers :
    (∀ n ∈ [0, 7], let fl := { flow0 with sent := [sentPkt 0 0], rtoRun := n }
     let s := up.setFlow 0 fl
     (s.flow 0).state = 1 ∧ (s.flow 0).rtoRun = n ∧
     (s.flow 0).sent.find? (fun x => x.state == 0 && decide (x.lastLt + fl.rto ≤ (s.advance 1000000).time.lt)) = some (sentPkt 0 0)) ∧
    (let fl := { flow0 with suspended := [(255, 0)] }
     let s := (portSt 0 entry0).setFlow 0 fl
     fl.suspended.find? (fun q => q.1 == 255) = some (255, 0) ∧ 255 ∉ fl.probing ∧ 0 + 1000000 ≤ (s.advance 1000000).time.lt ∧
     s.portUp (fl.pathPort 0 255) = true ∧ fl.state = 1 ∧ fl.txLive = true ∧ fl.txKeys ≠ [] ∧ fl.txSeq < 2 ^ 48) ∧
    (let fl := { flow0 with suspended := [(255, 0)], probing := [255] }
     let s := up.setFlow 0 fl
     fl.suspended.find? (fun q => q.1 == 255) = some (255, 0) ∧ 255 ∈ fl.probing ∧ 0 + fl.rto ≤ (s.advance 1000000).time.lt) := by
  decide +kernel

theorem witness_port_lock :
    (portSt 47 entry0).port 47 = { Port.init with entry := entry0, lock := true } ∧
    (let s := (portSt 47 entry0).setPort 47 Port.init
     (s.port 47).lock = false ∧ s.portExists 47 = true ∧ (s.cage (portCage 47)).trained = true) := by decide +kernel

/-- An image with one slot record: flow 0 may send from 10 lt to 20 lt in section 0. -/
def slotImage : Image :=
  image ([0, 0, 0, 0, place 1 16, place 1 32, 0, 0, 0, 1000, 0, 0, 0, 160, 0, 0, 0, 0, 0, 0].flatMap (leBytes 8) ++
    leBytes 16 (place 10 80 + place 10 56))

theorem witness_key_events :
    (let fl := { flow0 with txKeys := [{ id := 1, key := 0, since := 0 }, { id := 2, key := 0, since := 9 }, { id := 3, key := 0, since := 5 }] }
     let s := up.setFlow 262143 fl
     (s.flow 262143).nextKey = some { id := 3, key := 0, since := 5 } ∧ 5 ≤ (s.advance 5).time.lt) ∧
    (let fl := { flow0 with rxKeys := [{ id := 1, key := 0, since := 0 }, { id := 2, key := 0, since := 5 }] }
     let s := up.setFlow 0 fl
     (s.flow 0).rxKeys = { id := 1, key := 0, since := 0 } :: { id := 2, key := 0, since := 5 } :: [] ∧
     5 + 10000000 ≤ (s.advance 10000005).time.lt) ∧
    (let s := up.setFlow 0 { flow0 with state := 2 }
     (s.flow 0).state = 2 ∧ (s.flow 0).drainedOut = true) ∧
    (let s := up.setFlow 0 { flow0 with state := 2, sent := [sentPkt 0 0] }
     (s.flow 0).state = 2 ∧ (s.flow 0).drainFrom + 100000000 ≤ (s.advance 100000000).time.lt) := by decide +kernel

theorem witness_cages :
    let s := { up with cages := [(11, { mode := some 2, trained := false, watts := some 18 })] }
    let r := { s with cages := (List.range 12).map (fun i => (i, { mode := some 2, trained := i != 11, watts := none })) }
    (s.cage 11).mode ≠ none ∧ (s.cage 11).trained = false ∧ (s.cage 11).watts = some 18 ∧
    (r.cage 11).mode ≠ none ∧ (r.cage 11).trained = false ∧ (r.cage 11).watts = none ∧
    ∀ i < 12, i ≠ 11 → (r.cage i).trained = true := by decide +kernel

/-- Line time follows port 0, with port 1 to take over. -/
def ptpState (st : TimeState) : State :=
  let s := portSt 0 entry0
  { s with ports := [(0, { Port.init with lock := true }), (1, { Port.init with lock := true })]
           cages := [(0, { mode := some 2, trained := true, watts := none })]
           time := { s.time with source := 1, secondary := 1, state := st, goodRun := 15, secGood := true } }

theorem witness_ptp :
    ∀ st ∈ [TimeState.free, .acquiring, .locked, .holdover, .lost], ∀ asym ∈ [0, 4],
    let s := ptpState st
    let s := s.setPort 0 { s.port 0 with entry := BitVec.ofNat 512 (place asym 128) }
    s.portUp 0 = true ∧ s.portUp 1 = true ∧ s.time.source = 1 ∧ 0 = s.time.port ∧ 1 ≠ s.time.port ∧ s.time.state = st ∧
    15 ≤ s.time.goodRun ∧
    (∀ port < 2, ∀ msg ∈ [PtpMsg.sync false 0 36, .sync false (-7) 37, .delayResp 36],
      s.time.accepts port 0 0 msg = true ∧ s.time.measured port msg = some (if msg = .sync false (-7) 37 then 37 else 36)) ∧
    within ((36 : Int) + s.portAsym 0) 10 = true ∧ within ((37 : Int) + s.portAsym 0) 10 = (asym == 0) ∧
    s.time.accepts 0 0 0 (.sync true 0 36) = true ∧ s.time.measured 0 (.sync true 0 36) = none ∧
    s.time.accepts 0 1 0 (.delayResp 0) = false ∧ s.time.accepts 0 0 1 (.delayResp 0) = false ∧
    s.time.accepts 2 0 0 (.delayResp 0) = false ∧ s.time.accepts 0 0 0 (.sync false (-8) 0) = false ∧
    (!s.time.onSecondary && s.time.secondary != 0xFF && s.time.secGood) = true ∧
    s.time.syncLt + 3 * s.time.syncInterval ≤ (s.advance 3000000000).time.lt := by decide +kernel

theorem witness_line_time :
    (let s := { ptpState .locked with time := { (ptpState .locked).time with secGood := false } }
     s.time.source = 1 ∧ (!s.time.onSecondary && s.time.secondary != 0xFF && s.time.secGood) = false ∧
      s.time.syncLt + 3 * s.time.syncInterval ≤ (s.advance 3000000000).time.lt) ∧
    (let s := { up with time := { up.time with source := 2, state := .holdover } }
     s.time.source = 2 ∧ s.time.state = .holdover ∧
      s.time.holdoverFrom + 1000000 * s.time.holdoverMs ≤ (s.advance 2000000000).time.lt ∧
      (s.ctr .timeLostEvents 0).value + 1 < Ctr.timeLostEvents.top) ∧
    up.timeRuns = true ∧ 135 ∉ up.flash.retired ∧
    (tget { err := 0, since := 0 } up.time.copies 135).since + 1024 ≤ max (up.cycle 135) 1024 := by decide +kernel

theorem witness_slot_window :
    ∀ t ∈ [TimeState.free, .locked],
    let s := (runSt slotImage run0 Station.init).setFlow 0 flow0
    let s := { s with time := { s.time with state := t } }
    let o := s.setFlow 0 { flow0 with window := some 0 }
    ((s.advance 10).windows 0).find? (fun w => w.1 == 0) = some (0, 10, 20) ∧ 10 ≤ (s.advance 10).time.lt ∧
    (s.advance 19).time.lt < 20 ∧ (s.flow 0).window ≠ some 0 ∧ (s.flow 0).ignored ≠ some 10 ∧ s.timed = (t == .locked) ∧ (o.flow 0).window = some 0 ∧
    ∀ w ∈ (o.advance 20).windows 0, w.1 = 0 → w.2.2 ≤ (o.advance 20).time.lt := by decide +kernel

/-! ## Witnesses: collectives and the Depot -/

/-- An image with one collective of one unit of one element, whose program is object 0. -/
def collImage : Image :=
  image ([0, 0, 0, 0, place 1 16, 1, place 1 32 + 1, 0, 1000, 1000, 0, 0, 160, 0, 224, 288, 1000, 0, 0, 0].flatMap (leBytes 8) ++
    (leBytes 64 (place 8 224 + place 2 214) ++ (leBytes 64 (place 1 448 + place 1 238 + place 1 214) ++
    leBytes 64 (place 1 174 + place 1 47))))

/-- Context 0 runs that image as `b`, with `END` as the unit's program in Tier S, and the collective engine as `l`. -/
def collSt (b : Binding) (l : Collective) : State :=
  let s := ((up.withCtx .running (some collImage) (some { b with mapBase := [(0, 0)] }) (some run0)).setColl l)
  { s with tiers := { s.tiers with mem := memWriteBytes [] 0 (leBytes 8 (place 0x41 56)), map := [(0, { MapEntry.init with state := 1 })] } }

/-- A message of stage 1 from rank 1: one chunk of one FP32 element, for step 1. -/
def contribution : InMsg := { num := 0, data := leBytes 64 (place 1 480 + place 1 380) ++ zeros 64, poison := [] }

theorem witness_contribution :
    let m := contribution
    let h := CollHdr.ofNat (leAt m.data 0 64)
    let s := (collSt pair Collective.init).setFlow 0 { flow0 with peerRank := 1, delivered := [m] }
    let s := s.modSlot 0 (fun x => { x with run := some { run0 with sectEpoch := 5 } })
    let b := { pair with mapBase := [(0, 0)] }
    let d := collImage.coll h.coll
    let w := collImage.unit h.unit
    (s.flow 0).delivered = m :: [] ∧ s.job = some (0, collImage, b) ∧ 64 ≤ m.data.length ∧ hdrForm (leAt m.data 0 64) = true ∧
    h.sender = (s.flow 0).peerRank ∧ 0 ∈ b.flows ∧ h.stage = 0 ∧
    h.fits collImage (fun q => chunkBytes h.wire h.comp d.topk (w.chunkLen q)) (m.data.length - 64) = true ∧ d.kind ≠ 1 ∧
    h.wire = d.wire ∧ h.comp = d.comp ∧ w.groupOwner b.g b.jobRank = b.jobRank ∧ h.sender / b.g = b.jobRank / b.g ∧
    w.heldBy b.g h.sender = true ∧ h.sender ≠ b.jobRank ∧ d.sect ∉ s.coll.cut ∧ h.epoch = s.stepEpoch 0 ∧
    (s.advance 4).mayClose 0 collImage b h.coll h.unit 0 = false ∧ s.coll.late = [] ∧
    s.coll.groupSums = [] ∧ s.coll.arrivals = [] := by decide +kernel

theorem witness_no_job :
    let s := up.setFlow 0 { flow0 with delivered := [{ num := 0, data := [], poison := [] }] }
    (s.flow 0).delivered = { num := 0, data := [], poison := [] } :: [] ∧ s.job = none := by decide +kernel

theorem witness_stage_close :
    (let b := { pair with mapBase := [(0, 0)] }
     let s := collSt pair Collective.init
     s.job = some (0, collImage, b) ∧ (s.advance 0).mayClose 0 collImage b 0 0 0 = true ∧ s.coll.folds = []) ∧
    (let b := { lone with k := 2, mapBase := [(0, 0)] }
     let s := collSt { lone with k := 2 } { Collective.init with groupSums := [(0, { codes := [0], poison := [] })] }
     s.job = some (0, collImage, b) ∧ (s.advance 0).mayClose 0 collImage b 0 0 1 = true) := by decide +kernel

theorem witness_unit_run :
    (∀ lt, lt = 0 ∨ lt = 1 → let j : UeJob := { lt := lt, unit := 0, rank := none }
     let s := collSt pair { Collective.init with engines := [(1, { UpdateEngine.init with queue := [j] })] }
     let v := s.advance 0
     s.job = some (0, collImage, { pair with mapBase := [(0, 0)] }) ∧ 1 ∉ s.power.dieStopped ∧ (s.engine 1).queue = j :: [] ∧
     v.jobProgram 0 collImage j = some [] ∧ v.jobOver 1 0 collImage j [] = (lt == 0) ∧ (s.slot 0).state ≠ .stopped) ∧
    (let j : UeJob := { lt := 0, unit := 0, rank := some 1 }
     let log : MirrorLog := { unit := 0, got := [], vals := [], poison := [] }
     let s := collSt pair { Collective.init with
       engines := [(1, { UpdateEngine.init with queue := [j] })], shards := [(1, { DepotShard.init with logs := [log] })] }
     let v := s.advance 0
     (s.engine 1).queue = j :: [] ∧ v.jobProgram 0 collImage j = some [] ∧ v.jobOver 1 0 collImage j [] = true ∧
      (s.shard 1).logs.find? (fun l => l.unit == j.unit) = some log) ∧
    (let j : UeJob := { lt := 0, unit := 0, rank := none }
     let s := (up.withCtx .running (some (image [])) (some lone) (some run0)).setColl
       { Collective.init with engines := [(0, { UpdateEngine.init with queue := [j] })] }
     s.job = some (0, image [], lone) ∧ 0 ∉ s.power.dieStopped ∧ (s.engine 0).queue = j :: [] ∧
      (s.advance 0).jobProgram 0 (image []) j = none ∧ s.runSlot = some 0) := by
  refine ⟨?_, by decide +kernel⟩
  rintro lt (rfl | rfl) <;> decide +kernel

theorem witness_right_away :
    ∀ r ∈ [0, 1, 2],
    let p := { prog0 (dep 0xD1 (place 98303 89)) with id := { line := 3, index := 7, uid := 9 } }
    let v : VoteRec := { rank := 0, result := r, firstBad := 0, badCount := 0, dropped := 0, folded := 0 }
    let s := (runSt (image []) run0 { Station.init with progs := [p] }).setColl { Collective.init with result := some v }
    let s := s.modSlot 0 (fun x => { x with step := { x.step with raIssued := some (3, 7, 9) } })
    s.power.compStopped = false ∧ s.resultReady = some (0, image [], lone, v) ∧ (s.slot 0).step.raIssued = some (3, 7, 9) ∧
    (s.station 0).prog { line := 3, index := 7, uid := 9 } = some p ∧ (s.ctr .raCommits 0).value + 1 < Ctr.raCommits.top ∧
    (s.ctr .raRejects 0).value + 1 < Ctr.raRejects.top := by decide +kernel

/-- Flow 0 leads to rank 1, with one message delivered. -/
def peerFlow : Flow := { flow0 with peerRank := 1, delivered := [{ num := 0, data := [], poison := [] }] }

/-- Context 0 runs `img` as a member of a job of two, with the Depot as `l`. -/
def depotSt (st : SlotState) (img : Image) (l : Collective) : State :=
  ((up.withCtx st (some img) (some pair) (some run0)).setFlow 0 peerFlow).setColl l

def held (n : Nat) : HeldPage := { object := n, page := 0, epoch := 0, data := [], poison := [] }

theorem witness_depot_message :
    ∀ n ∈ [3, 4],
    let img := image []
    let v := (depotSt .running img { Collective.init with shards := [(1, { DepotShard.init with pages := (List.range n).map held })] }).advance 0
    v.depotJob (fun _ b _ => b.flows.any (fun f => (v.flow f).peerRank == 1 && (v.flow f).delivered != [])) = some (0, img, pair) ∧
    pair.flows.find? (fun f => (v.flow f).peerRank == 1 && (v.flow f).delivered != []) = some 0 ∧ pair.ward 1 = some (1, 4) ∧
    ((v.withSlot 0).shard 1).lost = false ∧ ((v.withSlot 0).shard 1).used img = n ∧ ((v.withSlot 0).shard 1).staged = [] := by
  decide +kernel

theorem witness_depot_seed :
    (let img := depImage 0
     let s := depotSt .running img { Collective.init with replicas := [(1, .seeding)] }
     let v := s.advance 0
     v.depotJob (fun _ _ l => tget .absent l.replicas 1 == .seeding) = some (0, img, pair) ∧ 1 ≤ pair.rho ∧
     s.flowTo pair (pair.holder 1) = some 0 ∧ (1, 0) ∈ shardPages img pair ∧ (1, 0) ∉ tget [] (v.withSlot 0).coll.seeded 1) ∧
    (let img := depImage 0
     let s := depotSt .running img { Collective.init with replicas := [(1, .seeding)], seeded := [(1, [(1, 0)])] }
     let v := s.advance 0
     v.depotJob (fun _ _ l => tget .absent l.replicas 1 == .seeding) = some (0, img, pair) ∧
     (∀ q ∈ shardPages img pair, q ∈ tget [] (v.withSlot 0).coll.seeded 1) ∧ (v.withSlot 0).coll.depotPending = []) := by decide +kernel

theorem witness_holder_timeout :
    (∀ purpose ∈ [0, 1, 2], let a : Ask := { purpose := purpose, holder := 0, since := 0 }
     let v := (depotSt .recovering (image []) { Collective.init with replicas := [(1, .current)], asked := some a }).advance 10000000
     v.depotJob (fun _ _ l => l.asked.isSome) = some (0, image [], pair) ∧ (v.withSlot 0).coll.asked = some a ∧
     a.since + pair.peerLt ≤ v.time.lt ∧
     (if a.purpose = 1 then (if a.holder < pair.rho then some (a.holder + 1) else none)
      else (v.withSlot 0).currentFrom pair (a.holder + 1)) = some 1) ∧
    (∀ purpose < 2, let a : Ask := { purpose := purpose, holder := 1, since := 0 }
     let v := (depotSt .recovering (image []) { Collective.init with replicas := [(1, .current)], asked := some a }).advance 10000000
     v.depotJob (fun _ _ l => l.asked.isSome) = some (0, image [], pair) ∧ (v.withSlot 0).coll.asked = some a ∧
     a.since + pair.peerLt ≤ v.time.lt ∧ pair.rho ≤ a.holder ∧ (v.withSlot 0).currentFrom pair (a.holder + 1) = none ∧
     (v.slot 0).state = .recovering) := by decide +kernel

theorem witness_peers :
    (let s := (depotSt .running (image []) { Collective.init with replicas := [(1, .current)] })
     let s := { s with cages := (portSt 0 entry0).cages, ports := (portSt 0 entry0).ports }
     let v := s.advance 0
     v.depotJob (fun _ b _ => b.probed.contains 1 &&
        (match v.flowTo b 1 with | some f => (v.flow f).state == 1 | none => false)) = some (0, image [], pair) ∧
     s.flowTo pair 1 = some 0 ∧ (s.flow 0).txLive = true ∧ (s.flow 0).txKeys ≠ [] ∧ (s.flow 0).txSeq < 2 ^ 48 ∧
     v.nextPath 0 (s.flow 0).rotation = some 0) ∧
    (let s := (depotSt .running (image []) { Collective.init with replicas := [(1, .current)] }).setFlow 0 { peerFlow with state := 3 }
     let v := s.advance 0
     v.depotJob (fun _ b l => !l.lostPeers.contains 1 && v.peerGone b l 1) = some (0, image [], pair) ∧
     1 ∈ pair.replicaIx ∧ pair.holder 1 = 1 ∧ tget .absent (v.withSlot 0).coll.replicas 1 ≠ .absent ∧
     (s.ctr .peerLost 0).value + 1 < Ctr.peerLost.top) := by decide +kernel

/-! ## Witnesses: power, start-up and links -/

def powered (f : Power → Power) : State := { up with power := f up.power }

theorem witness_fast_limit :
    up.power.compStopped = false ∧ (up.advance 2000).windowEnds 2000 = true ∧ 1100 * up.power.capW < 1100 * up.power.capW + 1 ∧
    (up.advance 0).timeRuns = true ∧ 800 < up.power.fMax ∧
    (let s := powered (fun p => { p with fastCeil := 1750 })
     (s.advance 10000).timeRuns = true ∧ (if (s.advance 10000).windowEnds 2000 then 1000 * s.power.capW else s.power.avgFast) ≤ 1000 * s.power.capW ∧
     s.power.fastCeil < s.power.fMax ∧
      s.power.fastRose + 10000 ≤ (s.advance 10000).time.lt) := by decide +kernel

theorem witness_stretch :
    ∀ n < 3, let s := powered (fun p => { p with stretches := [(151, (List.range n).map (fun i => 4 + i))] })
    ((tget [] s.power.stretches 151).filter (fun q => decide (19 < q + 16))).length = n ∧ (s.advance 0).timeRuns = true ∧
    151 ∉ s.flash.retired := by decide +kernel

theorem witness_windows :
    (up.advance 50000).windowEnds 50000 = true ∧ (up.advance 1000000).windowEnds 1000000 = true ∧
    (∀ a ∈ [15, 16], let s := powered (fun p => { p with admTarget := a, capCeil := 1000 }); s.power.admTarget = a) ∧
    (∀ t ∈ [(776 : Int), 777, 799, 800, 823, 824],
      (powered (fun p => { p with points := [(0, { Point.init with peak := t })] })).power.hottest = t) := by decide +kernel

theorem witness_meter :
    up.startup.phase = .up ∧ up.power.compStopped = false ∧
    (let p := (powered (fun p => { p with fMax := 950, fSet := 1000, voltMhz := 1000 })).power
     p.voltMhz ≤ p.fSet ∧ p.lowest < p.fSet ∧ p.meterDown ≤ 0) ∧
    (let p := up.power; p.voltMhz ≤ p.fSet ∧ p.fSet < p.lowest ∧ p.meterUp ≤ 0) ∧
    (let p := (powered (fun p => { p with voltMhz := 850 })).power
     p.fSet < p.voltMhz ∧ p.voltMhz ≤ p.lowest ∧ p.voltAt + 1000 ≤ (up.advance 1000).time.lt) ∧
    (let p := (powered (fun p => { p with fMax := 800, voltMhz := 850 })).power; p.fSet < p.voltMhz ∧ p.lowest < p.voltMhz) ∧
    (let p := (powered (fun p => { p with fMax := 800, admTarget := 15 })).power
     p.voltMhz ≤ p.fSet ∧ p.lowest = p.fSet ∧ p.admTarget < p.admission ∧ p.meterDown ≤ 0) ∧
    (let p := (powered (fun p => { p with fMax := 800, admission := 8 })).power
     p.voltMhz ≤ p.fSet ∧ p.lowest = p.fSet ∧ p.admission < p.admTarget ∧ p.meterUp ≤ 0) ∧
    (∀ rise : Bool, let r : MeterReq := { since := 0, k := 127, rise := rise }
     let p := (powered (fun p => { p with fMax := 800, meterQ := [r] })).power
     p.voltMhz ≤ p.fSet ∧ p.lowest = p.fSet ∧ p.admission = p.admTarget ∧ p.meterQ = r :: [] ∧
      (if r.rise then p.meterUp else p.meterDown) ≤ 0) := by
  decide +kernel

theorem witness_station_requests :
    (let s := powered (fun p => { p with active := [127] })
     let w := (s.advance 0).advanceSc 134 2048
     s.power.compStopped = false ∧ s.phys 127 = some 134 ∧ 127 ∈ s.power.active ∧ s.power.asked 127 = false ∧
     w.heldActive 127 = false ∧ w.straggleHeld = false ∧ tget 0 s.power.validSc 127 + 2048 ≤ w.cycle 134) ∧
    (let s := powered (fun p => { p with floor := 128 })
     s.power.compStopped = false ∧ (s.advance 0).timeRuns = true ∧ s.phys 127 = some 134 ∧ 127 ∉ s.power.active ∧
     s.power.asked 127 = false ∧ floorPos 127 < s.power.floor) ∧
    (let b : Board := { startLt := 0, rampLt := 0, endLt := 1, target := 1, want := 1, raised := [] }
     let s := powered (fun p => { p with boards := [b] })
     (s.advance 0).preRamps 0 b = true ∧ s.power.asked 0 = false) ∧
    (let s := powered (fun p => { p with calmSince := some 5 })
     s.power.calmSince = some 5 ∧ 5 + 200000 ≤ (s.advance 200005).time.lt) := by decide +kernel

theorem witness_points_and_faults :
    (∀ n < 3, let s := powered (fun p => { p with points := [(1279, { Point.init with missed := n })] })
      (tget Point.init s.power.points 1279).failed = false ∧ (tget Point.init s.power.points 1279).missed = n) ∧
    up.timeRuns = true ∧ (powered (fun p => { p with booksBad := 2 })).power.booksBad = 2 ∧ up.evt.enable = false ∧
    up.evt.buffer.length < 64 := by decide +kernel

/-- The module in a phase of its power-up. -/
def inPhase (p : Phase) : State := { State.reset with startup := { State.reset.startup with phase := p } }

theorem witness_power_up :
    (∀ p ∈ [Phase.off, .inrush, .standby, .mainRails, .training, .up], (inPhase p).startup.phase = p) ∧
    (inPhase .off).startup.modResetLow = false ∧ (inPhase .training).startup.selfTest = false ∧
    (let s := { inPhase .training with startup := { (inPhase .training).startup with tierDone := [0, 1, 2] } }
     (∀ n < 3, n ∈ s.startup.tierDone) ∧ s.startup.needNoSpare = false ∧ ∀ k < 128, s.phys k ≠ none) ∧
    (let s := { inPhase .training with
       startup := { (inPhase .training).startup with tierDone := [0, 1, 2] }, flash := { State.reset.flash with retired := [0, 1] } }
     (∀ n < 3, n ∈ s.startup.tierDone) ∧ s.phys 0 = none) ∧
    (2 ∉ (inPhase .training).startup.tierDone ∧ 262143 < (inPhase .training).tierFrames 2) := by decide +kernel

theorem witness_links :
    (let s := { up with pcie := [(1, { Pcie.init with perstLow := true })] }
     (s.advance 0).timeRuns = true ∧ (s.link 1).perstLow = true) ∧
    (let s := up
     (s.link 0).readyFrom = some 0 ∧ 0 + 100000000 ≤ (s.advance 100000000).time.lt ∧ (s.link 0).up = true ∧ (s.link 1).up = false ∧
     s.modState = .ready) ∧
    (let s := { up with pcie := [(0, { Pcie.init with up := true }), (1, { Pcie.init with up := true })] }
     (s.link 0).up = true ∧ ∃ i < 2, i ≠ 0 ∧ (s.link i).up = true) ∧
    (∀ m ∈ [ModState.ready, .noSpare, .resetting, .training], ({ up with modState := m }).modState = m) := by decide +kernel

/-! ## Worked examples of the manual -/

/-- 02_number_formats.md: the accumulator entry 0x408D_E000_0000 is 45.875; its BF16 codes under RNE, RTZ, RDN, RUP, RTO, and under RSR
with r = 0x8000 and r = 0x7FFF; its E4M3 code directly, by way of RNE to BF16, and by way of RTO. -/
theorem test_accumulator_example :
    let x := Elem.acc48.decode false 0x408DE0000000
    let bf := fun m r => (Elem.bf16.conv false m r x).code
    let e4 := fun v => (Elem.e4m3.conv false .rne 0 v).code
    [bf .rne 0, bf .rtz 0, bf .rdn 0, bf .rup 0, bf .rto 0, bf .rsr 0x8000, bf .rsr 0x7FFF] =
      [0x4238, 0x4237, 0x4237, 0x4238, 0x4237, 0x4238, 0x4237] ∧
    e4 x = 0x63 ∧ e4 (Elem.bf16.decode false 0x4238) = 0x64 ∧ e4 (Elem.bf16.decode false 0x4237) = 0x63 := by decide +kernel

/-- 02_number_formats.md: a block of which 45.875 is the largest magnitude has scale 0x82; 45.875, 10, −0.9 and 2 become 0x7, 0x2,
0x8 and 0x0. -/
theorem test_mx_fp4_example :
    let xs := [Elem.fp32.decode false 0x42378000, .fin false 10 0, Elem.fp32.decode false 0xBF666666, .fin false 2 0] ++
      List.replicate 28 Val.zero
    let c := convRow ⟨.e2m1, 32⟩ .rne false (List.replicate 32 0) xs
    c.codes.take 4 = [0x7, 0x2, 0x8, 0x0] ∧ c.scales = [0x82] := by decide +kernel

/-- R53: to FP16 under RNE, 65,510 writes 0x7BFF and 65,520 overflows to +∞, which counts no `CONVERT_SAT`. -/
theorem test_overflow_example :
    (Elem.fp16.conv false .rne 0 (.fin false 65510 0)).code = 0x7BFF ∧ (Elem.fp16.conv false .rne 0 (.fin false 65520 0)).code = 0x7C00 ∧
    (Elem.fp16.conv false .rne 0 (.fin false 65510 0)).sat = false := by decide +kernel

/-- R38: (1 − 2⁻²⁵) × 2⁻¹²⁶ to FP32 is kept as 2⁻¹²⁶ under RNE and RUP and flushed under RTZ. -/
theorem test_flush_example :
    let c := fun m => (Elem.fp32.conv false m 0 (.fin false (2 ^ 25 - 1) (-151))).code
    [c .rne, c .rup, c .rtz] = [0x00800000, 0x00800000, 0] := by decide +kernel

/-- 02_number_formats.md: ZF12 0x5A3 is 99, which is FP16 0x5630; 0x0C1 is FP16 0x0810; 98.5 writes back as 0x5A3; and the two begin a
group with the bytes 0x5A, 0x0C and 0x13. -/
theorem test_zf12_example :
    (Elem.fp16.conv false .rne 0 (zf12Decode 0x5A3)).code = 0x5630 ∧ (Elem.fp16.conv false .rne 0 (zf12Decode 0x0C1)).code = 0x0810 ∧
    (Elem.zf12.conv false .rne 0 (.fin false 197 (-1))).code = 0x5A3 ∧
    (zf12Group [0x5A3, 0x0C1, 0, 0, 0, 0, 0, 0]).take 2 = [0x5A, 0x0C] ∧
    (zf12Group [0x5A3, 0x0C1, 0, 0, 0, 0, 0, 0]).getD 8 0 = 0x13 := by decide +kernel

/-- 04_the_loop.md: once physical Station 60 is retired, logical 48 to 56 stay on 51 to 59 and 57 to 63 stand on 61 to 67; before it
logical 57 was physical 60. -/
theorem test_remap_example :
    physOf [] 57 = some 60 ∧ [48, 56, 57, 63].map (physOf [60]) = [some 51, some 59, some 61, some 67] ∧ logOf [60] 67 = some 63 ∧
    logOf [] 67 = none := by decide +kernel

/-- 09_backward_pass.md: the MX-FP4 record of a tile is 34,816 bytes; 11_pilot_sidings_waybills.md: that of MX-FP8 is 67,584 bytes and
1,056 granules; 04_the_loop.md: that of BF16 is 131,072. -/
theorem test_record_sizes :
    (Fmt.ofDesc 0x48).map Fmt.recordBytes = some 34816 ∧ (Fmt.ofDesc 0x44).map Fmt.recordBytes = some 67584 ∧
    recGran 0x44 = 1056 ∧ recGran 0x01 * 64 = 131072 := by decide +kernel

/-- 07_matrix_departures.md: MX-FP4 with MX-FP8 of the same block length pairs, at 2 sc per product; with MX-FP8-B16 it does not. -/
theorem test_pairing_example :
    pairing 0x48 0x44 = some 0 ∧ pairCycles 0x48 0x44 = 2 ∧ pathTerms (pairPath 0x48 0x44) = 8 ∧ pairing 0x48 0x84 = none := by
  decide +kernel

/-- R319: CRC32C, whose published check value for the digits 1 to 9 is 0xE3069283. -/
theorem test_crc32c : crc32c ([0x31, 0x32, 0x33, 0x34, 0x35, 0x36, 0x37, 0x38, 0x39] : List Byte) = 0xE3069283 := by decide +kernel

end Sys2Proof.Tests
end

section
/-! What the Stations' books keep: each operation on departures, Sidings and the Loop leaves what `f` sees of every Station as it was,
for every `f` that does not see the fields it writes. -/

namespace Sys2Proof.Proofs

open Sys2Proof Sys2Proof.Machine Sys2Proof.Laws

/-- What `f` sees of every Station, and the Stations' cycle counts, are the same in `s` and `t`. -/
def Keeps {α : Type} (f : Station → α) (s t : State) : Prop :=
  t.cycles = s.cycles ∧ ∀ n, f (t.station n) = f (s.station n)

/-- `f` does not see what the departures in progress write in their Station's books: the lines, the departures, the array's queue, the
takes, the shadow plane, the array-feed port and the drain path. -/
structure Blind {α : Type} (f : Station → α) : Prop where
  lines  : ∀ st x, f { st with lines := x } = f st
  progs  : ∀ st x, f { st with progs := x } = f st
  mulq   : ∀ st x, f { st with mulq := x } = f st
  takes  : ∀ st x, f { st with takes := x } = f st
  shadow : ∀ st x, f { st with shadow := x } = f st
  feeds  : ∀ st x, f { st with feeds := x } = f st
  drain  : ∀ st x a b, f { st with runs := x, drainFree := a, drainLast := b } = f st

/-- `f` does not see the store either, so that it sees nothing of what the Loop brings. -/
structure LoopBlind {α : Type} (f : Station → α) : Prop extends Blind f where
  store : ∀ st x y, f { st with store := x, storePoison := y } = f st

variable {α : Type} {f : Station → α} {s t u : State}

theorem Keeps.refl (s : State) : Keeps f s s := ⟨rfl, fun _ => rfl⟩

theorem Keeps.trans (h : Keeps f s t) (k : Keeps f t u) : Keeps f s u :=
  ⟨k.1.trans h.1, fun n => (k.2 n).trans (h.2 n)⟩

theorem Keeps.cycle (h : Keeps f s t) (p : Nat) : t.cycle p = s.cycle p := congrArg (fun x => tget 0 x p) h.1

/-- A change outside the Stations is seen by no `f`. -/
theorem Keeps.of_eq (hc : t.cycles = s.cycles) (hs : t.stations = s.stations) : Keeps f s t :=
  ⟨hc, fun n => congrArg (fun x => f (tget Station.init x n)) hs⟩

theorem Keeps.of_stopped (h : Stopped s t) : Keeps f s t := by
  obtain ⟨_, _, _, _, _, _, _, _, _, _, rfl, _⟩ := h
  exact .of_eq rfl rfl

theorem Keeps.of_logged (h : Logged s t) : Keeps f s t := .of_stopped h.stopped

variable (s)

theorem Keeps.setStation {k : Nat} {v : Station} (h : f v = f (s.station k)) : Keeps f s (s.setStation k v) := by
  refine ⟨rfl, fun n => ?_⟩
  rw [station_setStation]
  split
  · next e => rw [h, e]
  · rfl

theorem Keeps.modStation {k : Nat} {g : Station → Station} (h : ∀ st, f (g st) = f st) : Keeps f s (s.modStation k g) :=
  .setStation s (h _)

theorem Keeps.foldl {β : Type} {g : State → β → State} (h : ∀ x b, Keeps f x (g x b)) (l : List β) : Keeps f s (l.foldl g s) :=
  foldl_keeps (Keeps f s) g (fun x b hx => hx.trans (h x b)) l s (.refl s)

theorem bump_keeps (c : Ctr) (i n : Nat) : Keeps f s (s.bump c i n) := .of_logged (bump_logged s c i n)

theorem runBad_keeps (b : Bool) : Keeps f s (s.runBad b) := .of_stopped (runBad_stopped s b)

theorem modProg_keeps (hf : ∀ st x, f { st with progs := x } = f st) (k : Nat) (id : DepId) (g : Prog → Prog) :
    Keeps f s (s.modProg k id g) := .modStation s (fun st => hf st _)

theorem finish_keeps (hf : ∀ st x, f { st with progs := x } = f st) (k : Nat) (id : DepId) (sc : Nat) :
    Keeps f s (s.finish k id sc) := modProg_keeps s hf k id _

theorem stall_keeps (hf : ∀ st x, f { st with progs := x } = f st) (k : Nat) (id : DepId) (cause n : Nat) :
    Keeps f s (s.stall k id cause n) := by
  unfold State.stall
  split
  · exact .refl s
  · exact modProg_keeps s hf k id _

theorem noteHeads_keeps (hf : ∀ st x, f { st with lines := x } = f st) (b : Station) (k : Nat) :
    Keeps f s (s.noteHeads b k) := by
  unfold State.noteHeads
  split
  · exact (Keeps.modStation s (fun st => hf st _)).trans (.modStation _ (fun st => hf st _))
  · exact .refl s

theorem noteSiding_keeps (hf : ∀ st x, f { st with sidings := x } = f st) (k p sid : Nat) :
    Keeps f s (s.noteSiding k p sid) := by
  unfold State.noteSiding
  extract_lets +onlyGivenNames d v waits wait
  have counted : Keeps f s v := by
    unfold v
    split
    · exact bump_keeps s _ _ _
    · exact .refl s
  split
  · exact counted
  · exact counted.trans (.modStation v (fun st => hf st _))

theorem noteFills_keeps (hf : ∀ st x, f { st with sidings := x } = f st) (k : Nat) : Keeps f s (s.noteFills k) := by
  unfold State.noteFills
  split
  · exact .refl s
  · exact .foldl s (fun x sid => noteSiding_keeps x hf k _ sid) _

theorem storeErrors_keeps (hf : ∀ st x, f { st with storePoison := x } = f st) (k j sect index : Nat) (bad : List Nat) :
    Keeps f s (s.storeErrors k j sect index bad) :=
  .foldl s (fun x _ => (Keeps.modStation x (fun st => hf st _)).trans (.of_stopped (flowingError_stopped _ _))) _

theorem feedPort_keeps (hf : Blind f) (k p a n : Nat) : Keeps f s (s.feedPort k p a n) := by
  unfold State.feedPort
  extract_lets +onlyGivenNames st more feeds
  split
  · exact .setStation s (hf.feeds st _)
  · extract_lets +onlyGivenNames r y st₁ st₂
    have moved : f st₂ = f st := (hf.progs st₁ _).trans ((hf.drain { st with feeds := feeds } _ _ _).trans (hf.feeds st _))
    exact (((Keeps.setStation s moved).trans (stall_keeps _ hf.progs _ _ _ _)).trans (bump_keeps _ _ _ _)).trans
      (bump_keeps _ _ _ _)

/-! ### The Loop -/

theorem bumpNode_keeps (p : Nat) (c : Ctr) (n : Nat) : Keeps f s (s.bumpNode p c n) := by
  unfold State.bumpNode
  split
  · exact bump_keeps s c p n
  · exact .refl s

theorem setHop_keeps (p l : Nat) (h : Hop) : Keeps f s (s.setHop p l h) := .of_eq rfl rfl

theorem modHop_keeps (p l : Nat) (g : Hop → Hop) : Keeps f s (s.modHop p l g) := .of_eq rfl rfl

theorem launched_keeps (hf : ∀ st x, f { st with progs := x } = f st) (p : Nat) (c : Consist) (start : Nat) :
    Keeps f s (s.launched p c start) := by
  unfold State.launched
  split
  · exact .refl s
  · extract_lets +onlyGivenNames k
    split
    · exact .refl s
    · extract_lets +onlyGivenNames sc
      split
      · exact ((modProg_keeps s hf _ _ _).trans (stall_keeps _ hf _ _ _ _)).trans (.of_eq rfl rfl)
      · split
        · exact (finish_keeps s hf _ _ _).trans (stall_keeps _ hf _ _ _ _)
        · exact .refl s

theorem putFlits_keeps (hf : ∀ st x, f { st with progs := x } = f st) (p l n : Nat) : Keeps f s (s.putFlits p l n) := by
  unfold State.putFlits
  extract_lets +onlyGivenNames h h' v w
  have counted : Keeps f v w := by
    unfold w
    split
    · exact bump_keeps v _ _ _
    · exact .refl v
  have sent : Keeps f s w := ((setHop_keeps s _ _ _).trans (bumpNode_keeps _ _ _ _)).trans counted
  split
  · split
    · exact sent.trans (launched_keeps w hf _ _ _)
    · exact sent
  · exact sent

theorem noteWait_keeps (p l : Nat) (b : Bool) : Keeps f s (s.noteWait p l b) := by
  unfold State.noteWait
  extract_lets +onlyGivenNames h
  split
  · exact .refl s
  · split
    · exact setHop_keeps s _ _ _
    · split
      · exact (setHop_keeps s _ _ _).trans (bump_keeps _ _ _ _)
      · exact .refl s

theorem stageData_blind (hf : ∀ st x, f { st with shadow := x } = f st) (st : Station) (id : DepId) (pl : Plane) (sc : Nat) :
    f (st.stageData id pl sc) = f st := by
  unfold Station.stageData
  split
  · split
    · exact hf st _
    · rfl
  · rfl

/-- What a take brings is seen by no `f` that is blind to the store. -/
theorem consume_keeps (hf : LoopBlind f) (p l : Nat) (c : Consist) (id : DepId) (r n : Nat) : Keeps f s (s.consume p l c id r n) := by
  unfold State.consume
  split
  · exact .refl s
  · extract_lets +onlyGivenNames st
    split
    · exact .refl s
    · extract_lets +onlyGivenNames op began
      split
      · extract_lets +onlyGivenNames a from' bytes v done
        have written : Keeps f s v := .setStation s (hf.store st _ _)
        split
        · exact ((written.trans (.modStation v (fun st => hf.takes st _))).trans (finish_keeps _ hf.progs _ _ _)).trans
            (stall_keeps _ hf.progs _ _ _ _)
        · exact written
      · split
        · exact ((Keeps.setStation s ((hf.takes _ _).trans (stageData_blind hf.shadow st _ _ _))).trans
            (stall_keeps _ hf.progs _ _ _ _)).trans (runBad_keeps _ _)
        · exact .refl s

theorem arriveStep_keeps (p l : Nat) : Keeps f s (s.arriveStep p l).1 := by
  unfold State.arriveStep
  extract_lets +onlyGivenNames q up here
  split
  · exact .refl s
  · extract_lets +onlyGivenNames n
    split
    · exact .refl s
    · exact setHop_keeps s _ _ _

theorem passStep_keeps (p l : Nat) : Keeps f s (s.passStep p l).1 := by
  unfold State.passStep
  dsimp only
  split
  · exact .refl s
  · split
    · exact setHop_keeps s _ _ _
    · exact .refl s

theorem readStep_keeps (hf : LoopBlind f) (p l : Nat) : Keeps f s (s.readStep p l).1 := by
  unfold State.readStep
  extract_lets +onlyGivenNames q here
  split
  · exact .refl s
  · extract_lets +onlyGivenNames room n
    split
    · exact .refl s
    · extract_lets +onlyGivenNames v w x
      have taken : Keeps f w x := by
        unfold x
        split
        · exact consume_keeps w hf _ _ _ _ _ _
        · exact bumpNode_keeps w _ _ _
        · exact .refl w
      have read : Keeps f s x := ((modHop_keeps s _ _ _).trans (modHop_keeps v _ _ _)).trans taken
      dsimp only
      split
      · exact read.trans (putFlits_keeps x hf.progs p l n)
      · exact read

theorem ownStep_keeps (hf : ∀ st x, f { st with progs := x } = f st) (p l : Nat) : Keeps f s (s.ownStep p l).1 := by
  unfold State.ownStep
  extract_lets +onlyGivenNames here
  split
  · extract_lets +onlyGivenNames n
    split
    · exact .refl s
    · exact putFlits_keeps s hf p l n
  · split
    · extract_lets +onlyGivenNames sc waits
      split
      · exact .refl s
      · exact setHop_keeps s _ _ _
    · exact .refl s

theorem endStep_keeps (p l : Nat) : Keeps f s (s.endStep p l).1 := by
  unfold State.endStep
  extract_lets +onlyGivenNames here
  split
  next v n e =>
    have input : Keeps f s v := by
      split at e
      · split at e <;> obtain ⟨rfl, -⟩ := Prod.mk.inj e
        · exact modHop_keeps s _ _ _
        · exact .refl s
      · obtain ⟨rfl, -⟩ := Prod.mk.inj e
        exact .refl s
    extract_lets +onlyGivenNames there
    split
    · split
      · exact (input.trans (setHop_keeps v _ _ _)).trans (bumpNode_keeps _ _ _ _)
      · exact input
    · exact input

theorem nodeStep_keeps (hf : LoopBlind f) (p l : Nat) : Keeps f s (s.nodeStep p l).1 :=
  (((((arriveStep_keeps s p l).trans (passStep_keeps _ p l)).trans (readStep_keeps _ hf p l)).trans
    (ownStep_keeps _ hf.progs p l)).trans (endStep_keeps _ p l)).trans (noteWait_keeps _ p l _)

theorem loopSettle_keeps (hf : LoopBlind f) (n l : Nat) (work : List Nat) (s : State) : Keeps f s (s.loopSettle n work l) := by
  induction n generalizing work s with
  | zero => exact .refl s
  | succ n ih =>
    match work with
    | [] => exact .refl s
    | p :: work =>
      unfold State.loopSettle
      dsimp only
      split <;> exact (nodeStep_keeps s hf p l).trans (ih _ _)

theorem pump_keeps (hf : LoopBlind f) (p l : Nat) : Keeps f s (s.pump p l) := loopSettle_keeps hf _ l _ s

end Sys2Proof.Proofs
end

section
/-! Operations that touch nothing of the module but the Stations, their cycle counts, and the module's books. -/

namespace Sys2Proof.Proofs

open Sys2Proof Sys2Proof.Machine Sys2Proof.Laws

/-- `t` is `s` but for the Stations, their cycle counts, and the module's books. -/
def AtStations (s t : State) : Prop :=
  ∃ c x r e h v, t = { s with cycles := c, stations := x, ctrs := r, evt := e, hostMem := h, vectors := v }

section
variable {s t u : State}

theorem AtStations.eq (h : AtStations s t) :
    t = { s with cycles := t.cycles, stations := t.stations, ctrs := t.ctrs, evt := t.evt, hostMem := t.hostMem,
                 vectors := t.vectors } := by
  obtain ⟨_, _, _, _, _, _, rfl⟩ := h
  rfl

theorem AtStations.refl (s : State) : AtStations s s := ⟨_, _, _, _, _, _, rfl⟩

theorem AtStations.trans (h : AtStations s t) (k : AtStations t u) : AtStations s u := by
  obtain ⟨_, _, _, _, _, _, rfl⟩ := h
  obtain ⟨_, _, _, _, _, _, rfl⟩ := k
  exact ⟨_, _, _, _, _, _, rfl⟩

theorem AtStations.of_logged (h : Logged s t) : AtStations s t := by
  obtain ⟨_, _, _, _, rfl, _⟩ := h
  exact ⟨_, _, _, _, _, _, rfl⟩

variable (s)

theorem advanceSc_atStations (p n : Nat) : AtStations s (s.advanceSc p n) := ⟨_, _, _, _, _, _, rfl⟩
theorem setStation_atStations (k : Nat) (v : Station) : AtStations s (s.setStation k v) := ⟨_, _, _, _, _, _, rfl⟩
theorem modStation_atStations (k : Nat) (g : Station → Station) : AtStations s (s.modStation k g) := ⟨_, _, _, _, _, _, rfl⟩
theorem modProg_atStations (k : Nat) (id : DepId) (g : Prog → Prog) : AtStations s (s.modProg k id g) := ⟨_, _, _, _, _, _, rfl⟩
theorem finish_atStations (k : Nat) (id : DepId) (sc : Nat) : AtStations s (s.finish k id sc) := ⟨_, _, _, _, _, _, rfl⟩
theorem bump_atStations (c : Ctr) (i n : Nat) : AtStations s (s.bump c i n) := .of_logged (bump_logged s c i n)

theorem noteHeads_atStations (b : Station) (k : Nat) : AtStations s (s.noteHeads b k) := by
  unfold State.noteHeads
  split
  · exact (modStation_atStations s _ _).trans (modStation_atStations _ _ _)
  · exact .refl s

theorem noteSiding_atStations (k p sid : Nat) : AtStations s (s.noteSiding k p sid) := by
  unfold State.noteSiding
  extract_lets +onlyGivenNames d v waits wait
  have counted : AtStations s v := by
    unfold v
    split
    · exact bump_atStations s _ _ _
    · exact .refl s
  split
  · exact counted
  · exact counted.trans (modStation_atStations v _ _)

theorem noteFills_atStations (k : Nat) : AtStations s (s.noteFills k) := by
  unfold State.noteFills
  split
  · exact .refl s
  · exact foldl_keeps (AtStations s) _ (fun x sid hx => hx.trans (noteSiding_atStations x k _ sid)) _ s (.refl s)

end

end Sys2Proof.Proofs
end

section
/-! The array: rows, bubbles, staging, verdicts and releases (O43). -/

namespace Sys2Proof.Proofs

open Sys2Proof Sys2Proof.Machine Sys2Proof.Laws

section
variable {α : Type} {f : Station → α} (s : State)

theorem stageCplx_keeps (hf : Blind f) (k p : Nat) (pr : Prog) (t sc : Nat) : Keeps f s (s.stageCplx k p pr t sc) :=
  ((Keeps.setStation s (hf.shadow _ _)).trans (runBad_keeps _ _)).trans (feedPort_keeps _ hf _ _ _ _)

/-- A row that is taken moves its departure on; only an `MMA` that streams from a line makes the Loop move. -/
theorem rowTaken_keeps (hf : Blind f) (k p : Nat) (pr : Prog) (sc : Nat) (sw : Bool)
    (hl : (Dep.opcode pr.word = opMma → (mmaOps pr.word).kind < 2) ∨ LoopBlind f) :
    Keeps f s (s.rowTaken k p pr sc sw) := by
  unfold State.rowTaken
  extract_lets +onlyGivenNames op
  split
  next hop =>
    extract_lets +onlyGivenNames o n v w
    have hv : Keeps f s v := modProg_keeps s hf.progs _ _ _
    have hw : Keeps f v w := by
      unfold w
      split
      · exact .modStation v (fun st => (hf.mulq _ _).trans (hf.takes st _))
      · exact .refl v
    split
    next hk =>
      rcases hl with hl | hl
      · exact absurd (hl hop) (Nat.not_lt.2 hk)
      · exact (hv.trans hw).trans (pump_keeps w hl _ _)
    · exact hv.trans hw
  · extract_lets +onlyGivenNames o passes ends v w tile
    have hv : Keeps f s v := modProg_keeps s hf.progs _ _ _
    have hw : Keeps f v w := by
      unfold w
      split
      · exact .modStation v (fun st => hf.mulq st _)
      · exact .refl v
    split
    · split
      · exact (hv.trans hw).trans (stageCplx_keeps w hf _ _ _ _ _)
      · exact hv.trans hw
    · exact hv.trans hw

end

theorem granted_true (x : Feed) : x.granted true = x := by cases x <;> rfl

theorem found_keeps {α : Type} {f : Station → α} (s : State) (hf : ∀ st x, f { st with storePoison := x } = f st) (x : Feed) (k : Nat)
    (bad : List Nat) : Keeps f s (x.found s k bad) := by
  cases x with
  | row => exact storeErrors_keeps s hf _ _ _ _ _
  | wait => exact .refl s
  | bad => exact .refl s
  | again => exact .refl s

/-- What reads of the store find leaves the power as it is. -/
theorem storeErrors_power (s : State) (k j sect index : Nat) (bad : List Nat) :
    (s.storeErrors k j sect index bad).power = s.power := by
  unfold State.storeErrors
  generalize bad.filter _ = l
  induction l generalizing s with
  | nil => rfl
  | cons g l ih => exact (ih _).trans (by simp)

theorem found_power (s : State) (x : Feed) (k : Nat) (bad : List Nat) : (x.found s k bad).power = s.power := by
  cases x with
  | row => exact storeErrors_power s _ _ _ _ _
  | wait => rfl
  | bad => rfl
  | again => rfl

/-! ### The entry of a row -/

/-- The row that a departure enters at cycle `sc`: streamed row `x` of `strm` against tile `w` (R64, R75, R80, R81). -/
def enteredRow (pr : Prog) (pass r g x pc path : Nat) (neg isat : Bool) (w strm : Plane) (sf xf : Fmt) (frees : Option (Nat × Nat))
    (sc : Nat) : Row :=
  let xs := rowElems xf strm.bytes x
  let twice := rowTwice path sf xf w strm.bytes x
  { dep := pr.id, t := pr.next, pass := pass, entry := sc + (if twice then pc else 0), c := pc, group := g, tileRow := r,
    sums := rowSums path sf xf w.bytes strm.bytes x, exps := rowExps path sf xf w.bytes strm.bytes x, neg := neg,
    refs := refSums path w.refs xs, bound := boundSum path w.mags xs, terms := rowTerms path sf xf w.bytes strm.bytes x neg,
    poison := rowPoisonCols sf xf w.poison strm.poison x, nterms := pathTerms path, path := path, isat := isat, dup := twice,
    ovf := rowOvf path sf xf w.bytes strm.bytes x, judged := false, retried := false, frees := frees }

/-- The Station at the entry of a row at cycle `sc`, with the switch to tile `w` before it (R71). -/
def withRow (st : Station) (row : Row) (sw : Bool) (w : Plane) (lt sc : Nat) : Station :=
  let st := { st with inArray := st.inArray ++ [row], prodTime := row.c, lastEntry := some (row.entry, row.c), lastInvalid := none }
  if sw then { st with active := some w, shadow := .empty, switched := some lt, switchSc := some sc } else st

/-- ROW_ENTRY with the entrance free and a row at it: the row stands in the array, and what follows its entry is seen by no `φ` that is
blind to the books of departures, and, where the row streams from a line, to the store (R68, R71, R75, R81). -/
theorem rowEntry_enters (k : Fin 128) (s : State) (p sc : Nat) (bad : List Nat) (pr : Prog) (pass r g x pc path : Nat) (neg isat : Bool)
    (w strm : Plane) (sw : Bool) (frees : Option (Nat × Nat)) (sf xf : Fmt) (v e : State)
    (hv : v = s.advanceSc p sc) (he : e = (v.nextRow k p (v.cycle p)).found v k bad)
    (hc : s.power.compStopped = false) (hp : s.phys k = some p)
    (hfree : entranceFree (s.station k) (v.cycle p) = true) (hact : k.val ∈ s.power.active)
    (hrow : e.nextRow k p (v.cycle p) = .row pr pass r g x pc path neg isat w strm sw frees)
    (hsf : Fmt.ofDesc w.desc = some sf) (hxf : Fmt.ofDesc strm.desc = some xf) :
    ∃ u, exec (.rowEntry k sc bad) s = .next u ∧
      ∀ {β : Type} (φ : Station → β), Blind φ → ((Dep.opcode pr.word = opMma → (mmaOps pr.word).kind < 2) ∨ LoopBlind φ) →
        Keeps φ (e.setStation k (withRow (e.station k)
          (enteredRow pr pass r g x pc path neg isat w strm sf xf frees (v.cycle p)) sw w e.time.lt (v.cycle p))) u := by
  have active : ∀ y : State, y.power = s.power → y.power.active.contains k.val = true := by
    intro y hy
    rw [hy]
    exact List.contains_iff_mem.2 hact
  have hev : v.power = s.power := by rw [hv]; rfl
  have hee : e.power = s.power := by rw [he, found_power, hev]
  have hfree' : entranceFree (v.station k) (v.cycle p) = true := by rw [hv] at hfree ⊢; exact hfree
  simp only [exec, execRowEntry, State.clocked, hc, hp, ← hv, hfree', active v hev, granted_true, ← he, active e hee, hrow, hsf, hxf]
  refine ⟨_, rfl, fun φ hφ hl => ?_⟩
  refine Keeps.trans ?_ (noteHeads_keeps _ hφ.lines _ _)
  refine Keeps.trans ?_ (rowTaken_keeps _ hφ _ _ _ _ _ hl)
  refine Keeps.trans ?_ (feedPort_keeps _ hφ _ _ _ _)
  refine Keeps.trans ?_ (runBad_keeps _ _)
  refine Keeps.trans ?_ (stall_keeps _ hφ.progs _ _ _ _)
  refine Keeps.trans ?_ (modProg_keeps _ hφ.progs _ _ _)
  refine Keeps.trans ?_ (bump_keeps _ _ _ _)
  refine Keeps.trans ?_ (bump_keeps _ _ _ _)
  exact .of_eq rfl rfl

/-- What of a Station's array the entry of a row changes. -/
def atEntrance (st : Station) : List Row × Option (Nat × Nat) × Option Plane × Option Nat :=
  (st.inArray, st.lastEntry, st.active, st.switchSc)

theorem loopBlind_atEntrance : LoopBlind atEntrance :=
  { lines := fun _ _ => rfl, progs := fun _ _ => rfl, mulq := fun _ _ => rfl, takes := fun _ _ => rfl, shadow := fun _ _ => rfl,
    feeds := fun _ _ => rfl, drain := fun _ _ _ _ => rfl, store := fun _ _ _ => rfl }

theorem blind_store : Blind Station.store :=
  { lines := fun _ _ => rfl, progs := fun _ _ => rfl, mulq := fun _ _ => rfl, takes := fun _ _ => rfl, shadow := fun _ _ => rfl,
    feeds := fun _ _ => rfl, drain := fun _ _ _ _ => rfl }

theorem withRow_store (st : Station) (row : Row) (sw : Bool) (w : Plane) (lt sc : Nat) :
    (withRow st row sw w lt sc).store = st.store := by cases sw <;> rfl

theorem withRow_atEntrance (st : Station) (row : Row) (sw : Bool) (w : Plane) (lt sc : Nat) :
    atEntrance (withRow st row sw w lt sc) =
      (st.inArray ++ [row], some (row.entry, row.c), if sw then some w else st.active, if sw then some sc else st.switchSc) := by
  cases sw <;> rfl

/-! ### Departures that complete -/

/-- Is departure `id` in progress? -/
def InProgress (st : Station) (id : DepId) : Prop := ∃ q ∈ st.progs, q.id = id

theorem inProgress_of_prog {st : Station} {id : DepId} {pr : Prog} (h : st.prog id = some pr) : InProgress st id := by
  have := List.find?_some h
  exact ⟨pr, List.mem_of_find?_eq_some h, by simpa using this⟩

theorem inProgress_modProg {st : Station} {id : DepId} (i : DepId) {g : Prog → Prog} (hg : ∀ q, (g q).id = q.id)
    (h : InProgress st id) : InProgress (st.modProg i g) id := by
  obtain ⟨q, hq, rfl⟩ := h
  refine ⟨_, List.mem_map_of_mem hq, ?_⟩
  split
  · exact hg q
  · rfl

theorem finish_doneAt {s : State} {k : Nat} {id : DepId} (sc : Nat) (h : InProgress (s.station k) id) :
    (s.finish k id sc).doneAt k id sc := by
  obtain ⟨q, hq, rfl⟩ := h
  refine ⟨{ q with doneSc := some sc }, ?_, rfl, rfl⟩
  simp only [State.finish, State.modProg, station_modStation_self, Station.modProg, List.mem_map]
  exact ⟨q, hq, by simp⟩

theorem doneAt_keeps {s t : State} {k : Nat} {id : DepId} {sc : Nat} (h : s.doneAt k id sc) (ht : Keeps Station.progs s t) :
    t.doneAt k id sc := by
  unfold State.doneAt
  rw [ht.2 k]
  exact h

theorem inProgress_of_progs {st st' : Station} {id : DepId} (he : st'.progs = st.progs) (h : InProgress st id) :
    InProgress st' id := by
  unfold InProgress
  rwa [he]

/-- A departure that leaves the array's queue with its last row is done. -/
theorem lastRow_done (s : State) (k : Nat) (id : DepId) (sc : Nat) (b : Station) (h : InProgress (s.station k) id) :
    let t := ((s.modStation k (fun st => { st with mulq := st.mulq.drop 1 })).finish k id sc).noteHeads b k
    t.doneAt k id sc ∧ (t.station k).mulq = (s.station k).mulq.drop 1 := by
  constructor
  · refine doneAt_keeps (finish_doneAt sc ?_) (noteHeads_keeps _ (fun _ _ => rfl) _ _)
    rw [station_modStation_self]
    exact h
  · rw [(noteHeads_keeps (f := Station.mulq) _ (fun _ _ => rfl) _ _).2, (finish_keeps (f := Station.mulq) _ (fun _ _ => rfl) _ _ _).2,
      station_modStation_self]

/-- The end of a `STAGE` whose Station is `st` by then: it completes, and the plane stays as it is in `st`. -/
theorem stageEnd (s : State) (k : Nat) (id : DepId) (sc : Nat) (b : Station) {st : Station} (hst : st.store = (s.station k).store)
    (h : InProgress st id) :
    let t := (((s.setStation k st).finish k id sc).noteHeads b k).noteFills k
    AtStations s t ∧ Keeps Station.store s t ∧ (t.station k).shadow = st.shadow ∧ t.doneAt k id sc := by
  have looked {β : Type} (φ : Station → β) (hl : ∀ st x, φ { st with lines := x } = φ st)
      (hs : ∀ st x, φ { st with sidings := x } = φ st) (x : State) : Keeps φ x ((x.noteHeads b k).noteFills k) := (noteHeads_keeps x hl b k).trans (noteFills_keeps _ hs k)
  have finished {β : Type} (φ : Station → β) (hp : ∀ st x, φ { st with progs := x } = φ st) (x : State) :
      Keeps φ x (x.finish k id sc) := finish_keeps x hp k id sc
  refine ⟨(((setStation_atStations s k st).trans (finish_atStations _ _ _ _)).trans (noteHeads_atStations _ _ _)).trans
    (noteFills_atStations _ _), ?_, ?_, ?_⟩
  · exact ((Keeps.setStation s hst).trans (finished _ (fun _ _ => rfl) _)).trans (looked _ (fun _ _ => rfl) (fun _ _ => rfl) _)
  · rw [(looked Station.shadow (fun _ _ => rfl) (fun _ _ => rfl) _).2, (finished Station.shadow (fun _ _ => rfl) _).2,
      station_setStation_self]
  · refine doneAt_keeps (finish_doneAt sc ?_) (looked _ (fun _ _ => rfl) (fun _ _ => rfl) _)
    rwa [station_setStation_self]

theorem ballastAt_inProgress {st : Station} {pr : Prog} (h : ballastAt st = some pr) : InProgress st pr.id := by
  unfold ballastAt at h
  split at h
  · split at h
    next q hq =>
      split at h
      · obtain rfl := Option.some.inj h
        exact ⟨q, List.mem_of_find?_eq_some hq, rfl⟩
      · cases h
    · cases h
  · cases h

/-- What of a Station's array the entry of an invalid row is asked about. -/
def atInvalid (st : Station) : Option (Nat × Nat) × List Row := (st.lastInvalid, st.inArray)

theorem blind_atInvalid : Blind atInvalid :=
  { lines := fun _ _ => rfl, progs := fun _ _ => rfl, mulq := fun _ _ => rfl, takes := fun _ _ => rfl, shadow := fun _ _ => rfl,
    feeds := fun _ _ => rfl, drain := fun _ _ _ _ => rfl }

theorem sameStores_of_keeps {s t u : State} (hs : t.stations = s.stations) (h : Keeps Station.store t u) : s.sameStores u := by
  intro n
  rw [h.2 n, State.station, hs]
  rfl

/-! ### Verdicts -/

theorem runSlot_of_slots {s t : State} (h : t.slots = s.slots) : t.runSlot = s.runSlot := by
  simp only [State.runSlot, State.slot, h]

/-- R406, R423: a `STATION_CHECK` asks for the Station's retirement, and the running context begins a recovery. -/
theorem stationCheck_retires (s : State) (p reason : Nat) (r : EvtRec) :
    p ∈ (s.stationCheck p reason r).retireQ ∧
    ∀ c, s.runSlot = some c →
      ((s.stationCheck p reason r).slot c).state = .recovering ∧ (s.stationCheck p reason r).replay = true := by
  unfold State.stationCheck
  extract_lets +onlyGivenNames a b
  have queued : p ∈ b.retireQ := by
    unfold b
    dsimp only
    split
    next h => exact List.contains_iff_mem.1 h
    · exact List.mem_append_right _ (List.mem_singleton_self p)
  have slots : b.runSlot = s.runSlot := runSlot_of_slots (report_slots s _).1
  rw [← slots]
  split
  next c hc =>
    refine ⟨queued, fun d hd => ?_⟩
    cases hc.symm.trans hd
    refine ⟨?_, rfl⟩
    simp only [State.slot, State.modSlot, State.setSlot, tget_tset_self]
  next hn => exact ⟨queued, fun d hd => nomatch hn.symm.trans hd⟩

/-- What of a Station's array a retry writes (R82). -/
def taken (st : Station) : List Row × List Row × Nat := (st.inArray, st.redo, st.redoFrom)

/-- What of a Station the release of a row is asked about. -/
def released (st : Station) : List Row × List (Nat × Row) × Table (List Nat) := (st.inArray, st.tree, st.acc)

/-! ### The clauses -/

section
variable {k : Fin 128} {s : State} {p : Nat} (hc : s.power.compStopped = false) (hp : s.phys k = some p)
include hc hp

/-- R68, R71, R75, R81: a valid row enters behind those in the array, with its terms, and switches its tile in. -/
theorem rowEntry_row (sc : Nat) (bad : List Nat) (pr : Prog) (pass r g : Nat) (x : Nat) (pc path : Nat) (neg isat : Bool)
    (w strm : Plane) (sw : Bool) (frees : Option (Nat × Nat)) (sf xf : Fmt) :
    let v := s.advanceSc p sc
    let f := (v.nextRow k p (v.cycle p)).found v k bad
    entranceFree (s.station k) (v.cycle p) = true → k.val ∈ s.power.active →
    f.nextRow k p (v.cycle p) = .row pr pass r g x pc path neg isat w strm sw frees →
    Fmt.ofDesc w.desc = some sf → Fmt.ofDesc strm.desc = some xf →
    ∃ u row, exec (.rowEntry k sc bad) s = .next u ∧ (u.station k).inArray = (s.station k).inArray ++ [row] ∧
      row.dep = pr.id ∧ row.t = pr.next ∧ row.pass = pass ∧ row.group = g ∧ row.tileRow = r ∧ row.c = pc ∧
      row.dup = rowTwice path sf xf w strm.bytes x ∧ row.sums = rowSums path sf xf w.bytes strm.bytes x ∧
      row.entry = u.cycle p + (if row.dup then pc else 0) ∧
      row.judged = false ∧ row.terms = rowTerms path sf xf w.bytes strm.bytes x neg ∧
      (u.station k).lastEntry = some (row.entry, pc) ∧
      ((Dep.opcode pr.word = opMma → (mmaOps pr.word).kind < 2) → s.sameStores u) ∧
      (sw = true → (u.station k).active = some w ∧ (u.station k).switchSc = some (u.cycle p)) ∧
      (sw = false → (u.station k).active = (s.station k).active) := by
  intro v f hfree hact hrow hsf hxf
  obtain ⟨u, hu, tail⟩ := rowEntry_enters k s p sc bad pr pass r g x pc path neg isat w strm sw frees sf xf v f rfl rfl hc hp hfree
    hact hrow hsf hxf
  have seen := tail atEntrance loopBlind_atEntrance.toBlind (.inr loopBlind_atEntrance)
  have before : Keeps atEntrance v f := found_keeps v (fun _ _ => rfl) _ _ _
  have hcyc : u.cycle p = v.cycle p := (seen.cycle p).trans (before.cycle p)
  have here := seen.2 k
  rw [station_setStation_self, withRow_atEntrance] at here
  have there : atEntrance (f.station k) = atEntrance (s.station k) := before.2 k
  simp only [atEntrance, Prod.mk.injEq] at here there
  obtain ⟨hin, hlast, hactive, hswitch⟩ := here
  refine ⟨u, _, hu, there.1 ▸ hin, rfl, rfl, rfl, rfl, rfl, rfl, rfl, rfl, ?_, rfl, rfl, hlast,
    fun hk => ?_, fun hs => ?_, fun hs => ?_⟩
  · rw [hcyc]; rfl
  · have stored : Keeps Station.store v u :=
      ((found_keeps v (fun _ _ => rfl) _ _ _).trans (.setStation f (withRow_store _ _ _ _ _ _))).trans
        (tail Station.store blind_store (.inl hk))
    exact stored.2
  · rw [hactive, hswitch, hcyc, hs]; exact ⟨rfl, rfl⟩
  · rw [hactive, hs, ← there.2.2.1]; rfl


/-- R72 to R74, R206: the entrance free and no row at it, a Ballast row or a bubble enters; what follows is the books of the departures
and the module's counters, and the last Ballast row of a `BALLAST` completes it. -/
theorem invalidRowEntry_enters (sc : Nat) :
    let v := s.advanceSc p sc
    entranceFree (s.station k) (v.cycle p) = true →
    (∀ a c, (s.station k).lastInvalid = some (a, c) → a + c ≤ v.cycle p) →
    ((v.nextRow k p (v.cycle p)).granted (s.power.active.contains k.val)).some = false →
    ∃ u, exec (.invalidRowEntry k sc) s = .next u ∧ AtStations s u ∧
      (∀ {β : Type} (φ : Station → β), Blind φ →
        Keeps φ (v.setStation k { v.station k with
          lastInvalid := some (v.cycle p, invalidCycles (s.station k)), prodTime := invalidCycles (s.station k) }) u) ∧
      ∀ pr, k.val ∈ s.power.active → ballastAt (s.station k) = some pr → pr.next + 1 = (ballastOps pr.word).nrows →
        u.doneAt k pr.id (v.cycle p) ∧ (u.station k).mulq = (s.station k).mulq.drop 1 := by
  intro v hfree hlast hnone
  have entered (st : Station) : AtStations s (v.setStation k st) := (advanceSc_atStations s p sc).trans (setStation_atStations v _ _)
  simp only [exec, execInvalidRowEntry, State.clocked, hc, hp]
  rw [if_neg (by decide), if_neg]
  swap
  · intro busy
    simp only [Bool.or_eq_true, Bool.not_eq_true', Bool.and_eq_false_iff] at busy
    rcases busy with (h | h) | h
    · exact Bool.false_ne_true (h.symm.trans hfree)
    · split at h
      next a c e => exact absurd (hlast a c e) (of_decide_eq_false h)
      · cases h
    · exact Bool.false_ne_true (hnone.symm.trans h)
  split
  next hquiet =>
    refine ⟨_, rfl, ((entered _).trans (bump_atStations _ _ _ _)).trans (bump_atStations _ _ _ _),
      fun φ hφ => (bump_keeps _ _ _ _).trans (bump_keeps _ _ _ _), fun pr hact => ?_⟩
    exact absurd (List.contains_iff_mem.2 hact) (Bool.eq_false_iff.1 hquiet)
  next b hb _ =>
    split
    next hn =>
      refine ⟨_, rfl, (((((entered _).trans (modProg_atStations _ _ _ _)).trans (bump_atStations _ _ _ _)).trans
        (modStation_atStations _ _ _)).trans (finish_atStations _ _ _ _)).trans (noteHeads_atStations _ _ _),
        fun φ hφ => ((((modProg_keeps _ hφ.progs _ _ _).trans (bump_keeps _ _ _ _)).trans
          (.modStation _ (fun st => hφ.mulq st _))).trans (finish_keeps _ hφ.progs _ _ _)).trans (noteHeads_keeps _ hφ.lines _ _),
        fun pr _ hpr _ => ?_⟩
      obtain rfl := Option.some.inj (hb.symm.trans hpr)
      have counted (y : State) : Keeps (fun st => (st.progs, st.mulq)) y (y.bump .rowsBallast p 1) := bump_keeps y _ _ _
      refine (lastRow_done _ k b.id _ _ (inProgress_of_progs (Prod.mk.inj ((counted _).2 k)).1 ?_)).imp_right
        (fun h => h.trans ?_)
      · simp only [State.modProg, station_modStation_self, station_setStation_self]
        exact inProgress_modProg b.id (fun _ => rfl) (ballastAt_inProgress hb)
      · rw [(Prod.mk.inj ((counted _).2 k)).2]
        simp only [State.modProg, station_modStation_self, station_setStation_self]
        rfl
    next hn =>
      refine ⟨_, rfl, ((entered _).trans (modProg_atStations _ _ _ _)).trans (bump_atStations _ _ _ _),
        fun φ hφ => (modProg_keeps _ hφ.progs _ _ _).trans (bump_keeps _ _ _ _), fun pr _ hpr hlastRow => ?_⟩
      obtain rfl := Option.some.inj (hb.symm.trans hpr)
      exact absurd hlastRow hn
  next hb _ =>
    refine ⟨_, rfl, (entered _).trans (bump_atStations _ _ _ _), fun φ hφ => bump_keeps _ _ _ _, fun pr _ hpr => ?_⟩
    cases hb.symm.trans hpr

/-- R72 to R74: what an invalid row leaves as it is. -/
theorem invalidRowEntry_row (sc : Nat) :
    let v := s.advanceSc p sc
    entranceFree (s.station k) (v.cycle p) = true →
    (∀ a c, (s.station k).lastInvalid = some (a, c) → a + c ≤ v.cycle p) →
    ((v.nextRow k p (v.cycle p)).granted (s.power.active.contains k.val)).some = false →
    ∃ u, exec (.invalidRowEntry k sc) s = .next u ∧
      u = { s with cycles := u.cycles, stations := u.stations, ctrs := u.ctrs, evt := u.evt, hostMem := u.hostMem,
                   vectors := u.vectors } ∧
      (u.station k).lastInvalid = some (u.cycle p, invalidCycles (s.station k)) ∧
      (u.station k).inArray = (s.station k).inArray ∧ s.sameStores u := by
  intro v hfree hlast hnone
  obtain ⟨u, hu, frame, tail, -⟩ := invalidRowEntry_enters hc hp sc hfree hlast hnone
  have seen := tail atInvalid blind_atInvalid
  have here := seen.2 k
  rw [station_setStation_self] at here
  obtain ⟨hinv, hin⟩ := Prod.mk.inj here
  have entered (x : Option (Nat × Nat)) (y : Nat) :
      Keeps Station.store v (v.setStation k { v.station k with lastInvalid := x, prodTime := y }) := .setStation v rfl
  refine ⟨u, hu, frame.eq, ?_, hin, ((entered _ _).trans (tail Station.store blind_store)).2⟩
  rw [hinv, seen.cycle p]
  rfl

/-- R206: the last Ballast row of a `BALLAST` completes it. -/
theorem invalidRowEntry_ballast (sc : Nat) (pr : Prog) :
    let v := s.advanceSc p sc
    entranceFree (s.station k) (v.cycle p) = true →
    (∀ a c, (s.station k).lastInvalid = some (a, c) → a + c ≤ v.cycle p) →
    ((v.nextRow k p (v.cycle p)).granted (s.power.active.contains k.val)).some = false →
    k.val ∈ s.power.active → ballastAt (s.station k) = some pr → pr.next + 1 = (ballastOps pr.word).nrows →
    ∃ u, exec (.invalidRowEntry k sc) s = .next u ∧ u.doneAt k pr.id (u.cycle p) ∧
      (u.station k).mulq = (s.station k).mulq.drop 1 := by
  intro v hfree hlast hnone hact hpr hn
  obtain ⟨u, hu, -, tail, last⟩ := invalidRowEntry_enters hc hp sc hfree hlast hnone
  have cycle : u.cycle p = v.cycle p := (tail atInvalid blind_atInvalid).cycle p
  exact ⟨u, hu, cycle ▸ last pr hact hpr hn⟩

/-- Staging that is complete (R70, R187, R188, R190): the plane of a departure that is gone is empty again; of one in progress it is
FULL, and a `STAGE` completes. -/
theorem stagingComplete_ends (sc tag desc : Nat) (dep : DepId) (pl : Plane) (d : Nat)
    (hsh : (s.station k).shadow = .staging tag desc dep (some pl) d) (hd : d ≤ max (s.cycle p) sc) :
    ∃ u, exec (.stagingComplete k sc) s = .next u ∧ AtStations s u ∧ s.sameStores u ∧
      ((s.station k).prog dep = none → (u.station k).shadow = .empty) ∧
      ∀ pr, (s.station k).prog dep = some pr →
        (u.station k).shadow = .full pl d ∧ (Dep.opcode pr.word = opStage → u.doneAt k dep d) := by
  let v := s.advanceSc p sc
  have hshadow : ((s.advanceSc p sc).station k).shadow = .staging tag desc dep (some pl) d := hsh
  have due : ¬ (s.advanceSc p sc).cycle p < d := by
    rw [cycle_advanceSc, if_pos rfl]
    exact Nat.not_lt.2 hd
  have framed (st : Station) : AtStations s (v.setStation k st) := (advanceSc_atStations s p sc).trans (setStation_atStations v _ _)
  have stored (x : Shadow) : Keeps Station.store v (v.setStation k { v.station k with shadow := x }) := .setStation v rfl
  simp only [exec, execStagingComplete, State.clocked, hc, hp, hshadow, due]
  cases hprog : (s.station k).prog dep with
  | none =>
    have gone : ((s.advanceSc p sc).station k).prog dep = none := hprog
    simp only [gone]
    exact ⟨_, rfl, framed _, sameStores_of_keeps (t := v) rfl (stored _),
      fun _ => congrArg Station.shadow (station_setStation_self _ _ _), fun _ h => nomatch h⟩
  | some pr =>
    have here : ((s.advanceSc p sc).station k).prog dep = some pr := hprog
    simp only [here]
    have running : InProgress (v.station k) dep := inProgress_of_prog hprog
    by_cases hop : Dep.opcode pr.word = opStage
    · simp only [hop]
      obtain ⟨frame, stores, hsh', done⟩ := stageEnd v k dep d (v.station k)
        (st := if (stageOps pr.word).kind = 1 then
          ({ v.station k with shadow := .full pl d } : Station).releasePos ((stageOps pr.word).src % 16) pr.claim
          else { v.station k with shadow := .full pl d })
        (by split <;> rfl) (inProgress_of_progs (by split <;> rfl) running)
      refine ⟨_, rfl, (advanceSc_atStations s p sc).trans frame, sameStores_of_keeps (t := v) rfl stores, ?_,
        fun q _ => ⟨?_, fun _ => done⟩⟩
      · rintro ⟨⟩
      · rw [hsh']
        split <;> rfl
    · simp only [hop]
      refine ⟨_, rfl, (framed _).trans (noteHeads_atStations _ _ _),
        sameStores_of_keeps (t := v) rfl ((stored _).trans (noteHeads_keeps _ (fun _ _ => rfl) _ _)), ?_, ?_⟩
      · rintro ⟨⟩
      · rintro q ⟨⟩
        refine ⟨?_, fun h => absurd h hop⟩
        exact ((noteHeads_keeps (f := Station.shadow) _ (fun _ _ => rfl) _ _).2 k).trans
          (congrArg Station.shadow (station_setStation_self _ _ _))

/-- R70, R187, R188, R190: staging that is complete makes the shadow plane FULL, and completes a `STAGE`. -/
theorem stagingComplete_plane (sc tag desc : Nat) (dep : DepId) (pl : Plane) (d : Nat)
    (hsh : (s.station k).shadow = .staging tag desc dep (some pl) d) (hd : d ≤ max (s.cycle p) sc) :
    (∃ u, exec (.stagingComplete k sc) s = .next u ∧
      u = { s with cycles := u.cycles, stations := u.stations, ctrs := u.ctrs, evt := u.evt, hostMem := u.hostMem,
                   vectors := u.vectors } ∧ s.sameStores u) ∧
    ((s.station k).prog dep = none → ∃ u, exec (.stagingComplete k sc) s = .next u ∧ (u.station k).shadow = .empty) ∧
    (∀ pr, (s.station k).prog dep = some pr →
      ∃ u, exec (.stagingComplete k sc) s = .next u ∧ (u.station k).shadow = .full pl d) ∧
    (∀ pr, (s.station k).prog dep = some pr → Dep.opcode pr.word = opStage →
      ∃ u, exec (.stagingComplete k sc) s = .next u ∧ u.doneAt k dep d) := by
  obtain ⟨u, hu, frame, stores, gone, here⟩ := stagingComplete_ends hc hp sc tag desc dep pl d hsh hd
  exact ⟨⟨u, hu, frame.eq, stores⟩, fun h => ⟨u, hu, gone h⟩, fun pr h => ⟨u, hu, (here pr h).1⟩,
    fun pr h hop => ⟨u, hu, (here pr h).2 hop⟩⟩

/-- R80 to R83: a good verdict lets the row go on; a first mismatch takes it and every row behind it back, and a second is a
`STATION_CHECK`. -/
theorem checkVerdict_row (faults : List RowFault) (now : Nat) (r : Row) (rest : List Row)
    (hr : (s.station k).inArray.filter (fun x => !x.judged) = r :: rest) :
    ((r.verdict faults).1 = false →
      ∃ u, exec (.checkVerdict k faults now) s = .next u ∧
        (u.station k).inArray =
          (s.station k).inArray.filter (fun x => x.judged) ++ { r with judged := true, terms := (r.verdict faults).2 } :: rest) ∧
    ((r.verdict faults).1 = true → r.retried = false →
      ∃ u again, exec (.checkVerdict k faults now) s = .next u ∧
        (u.station k).inArray = (s.station k).inArray.filter (fun x => x.judged) ∧
        (u.station k).redo = { r with retried := true, judged := false } :: again ++ (s.station k).redo ∧
        again.length = rest.length ∧ (u.station k).redoFrom = r.entry + 516 + r.c + 4) ∧
    ((r.verdict faults).1 = true → r.retried = true →
      ∃ u, exec (.checkVerdict k faults now) s = .next u ∧ p ∈ u.retireQ ∧
        ∀ c, s.runSlot = some c → (u.slot c).state = .recovering ∧ u.replay = true) := by
  have hphys : (s.advance now).phys k = some p := by simpa [State.phys] using hp
  have hst : (s.advance now).station k = s.station k := by simp [State.station]
  have hst' (n : Nat) : ((s.advance now).advanceSc p n).station k = s.station k := by simp [State.station]
  refine ⟨fun hv => ?_, fun hv hfirst => ?_, fun hv hsecond => ?_⟩
  · simp only [exec, execCheckVerdict, State.clocked, hc, hphys, hst, hr, hst', hv]
    exact ⟨_, rfl, congrArg Station.inArray (station_setStation_self _ _ _)⟩
  · suffices h : ∃ u, exec (.checkVerdict k faults now) s = .next u ∧
        taken (u.station k) = taken (retryRow (s.station k) r rest (r.entry + 516 + r.c)) by
      obtain ⟨u, hu, ht⟩ := h
      simp only [taken, Prod.mk.injEq] at ht
      obtain ⟨hin, hredo, hfrom⟩ := ht
      exact ⟨u, _, hu, hin, hredo, List.length_map _, hfrom⟩
    have tail (g : Station → Station) (hg : ∀ st, taken (g st) = taken st) (v : State) :
        Keeps taken v (((v.modStation k g).bump .abftRetry p 1).bump .rowsDiscarded p (1 + rest.length)) :=
      ((Keeps.modStation v hg).trans (bump_keeps _ _ _ _)).trans (bump_keeps _ _ _ _)
    simp only [exec, execCheckVerdict, State.clocked, hc, hphys, hst, hr, hst', hv, hfirst]
    refine ⟨_, rfl, ((tail _ ?_ _).2 k).trans (congrArg taken (station_setStation_self _ _ _))⟩
    exact fun _ => rfl
  · simp only [exec, execCheckVerdict, State.clocked, hc, hphys, hst, hr, hst', hv, hsecond]
    have retires := stationCheck_retires (((s.advance now).advanceSc p (r.entry + 516 + r.c)).setStation k { s.station k with
      inArray := (s.station k).inArray.filter (fun x => x.judged), redo := [], mulq := [] }) p 1
      { EvtRec.blank with lstation := k, line := r.dep.line, index := r.dep.index }
    exact ⟨_, rfl, retires.1, fun c h => retires.2 c ((runSlot_of_slots (by simp)).trans h)⟩

/-- R68, R69, R84: the oldest row judged good goes to the adder tree. -/
theorem rowRelease_row (r : Row) (rest : List Row) (hr : (s.station k).inArray = r :: rest) (hj : r.judged = true) :
    ∃ u, exec (.rowRelease k) s = .next u ∧ (u.station k).inArray = rest ∧
      (u.station k).tree = (s.station k).tree ++ [(r.entry + 520 + r.c, r)] ∧ (u.station k).acc = (s.station k).acc ∧
      s.sameStores u := by
  have hst (n : Nat) : (s.advanceSc p n).station k = s.station k := rfl
  suffices h : ∃ (u v : State) (st : Station), exec (.rowRelease k) s = .next u ∧ v.stations = s.stations ∧
      released st = (rest, (s.station k).tree ++ [(r.entry + 520 + r.c, r)], (s.station k).acc) ∧ st.store = (s.station k).store ∧
      ∀ {β : Type} (φ : Station → β), (∀ st x, φ { st with sidings := x } = φ st) → Keeps φ (v.setStation k st) u by
    obtain ⟨u, v, st, hu, hv, hrel, hstore, tail⟩ := h
    have here := (tail released (fun _ _ => rfl)).2 k
    rw [station_setStation_self, hrel] at here
    simp only [released, Prod.mk.injEq] at here
    obtain ⟨hin, htree, hacc⟩ := here
    have entered : Keeps Station.store v (v.setStation k st) := .setStation v (by rw [hstore, State.station, State.station, hv])
    exact ⟨u, hu, hin, htree, hacc, sameStores_of_keeps hv (entered.trans (tail _ (fun _ _ => rfl)))⟩
  simp only [exec, execRowRelease, State.clocked, hc, hp, hr, hj, hst]
  refine ⟨_, s.advanceSc p (r.entry + 520 + r.c), _, rfl, rfl, ?_, ?_,
    fun φ hφ => (bump_keeps _ _ _ _).trans (noteFills_keeps _ hφ _)⟩
  · split <;> rfl
  · split <;> rfl

end

/-- Settles O43: each event of the array changes its Station once, and what follows that change is seen by no `f` that is blind to the
books of the departures, the Sidings and the Loop. -/
theorem arrayRows : Obligations.ArrayRows := by
  intro k s p hc hp
  exact ⟨rowEntry_row hc hp, invalidRowEntry_row hc hp, invalidRowEntry_ballast hc hp, stagingComplete_plane hc hp,
    checkVerdict_row hc hp, rowRelease_row hc hp⟩

end Sys2Proof.Proofs
end

section
/-! The canonical form of the memories (O5). `State.memoriesWf` speaks of host memory, the tiers and the Station stores; a departure of
the drain path that is cut short has what it wrote taken back from its own copy of the store (`DrainRun.store`, R219), of which
`memoriesWf` says nothing. -/

namespace Sys2Proof.Proofs

open Sys2Proof Sys2Proof.Machine Sys2Proof.Laws

/-- A `VSTATS` that writes its reduction results into the store from granule 0 on, issued from line 0 and complete at cycle 10. -/
def cutProg : Prog :=
  { id := { line := 0, index := 0, uid := 0 }, sect := 0, word := BitVec.ofNat 256 (place opVstats 192 + place 1 61), planned := 0,
    issueLt := 0, issueSc := 0, fired := false, next := 0, pass := 0, written := 0, doneSc := some 10, claim := 0, reachLt := 0,
    issueAt := 0, waits := [], stalls := [], due := 0, redone := false }

/-- Its record on the drain path, with a copy of the store that lists byte 1 before byte 0. -/
def cutRecord : DrainRun :=
  { dep := cutProg.id, groups := [], start := 0, once := 0, rows := 1, pace := 1, reads := 0, yields := 0, red := 1, before := 0,
    store := [(1, 1), (0, 1)], storePoison := [], acc := [], accPoison := [], status := [] }

/-- A run in section 0. -/
def cutSection : Run :=
  { epoch := 0, sect := 0, sectEpoch := 0, began := 0, cancelled := none, halting := false, switching := false, points := none,
    follow := [], preemptAt := none, floatPast := false, epochSeen := false, waiting := false }

/-- `CANCEL_SECTION` of section 0 of context 0, with no successor (R443). -/
def cutCommand : FetchedCmd :=
  { header := BitVec.ofNat 256 (place 8 179 + place 0x17 152), params := leBytes 8 0xFFFF0000, seq := 1, accepted := false,
    parked := false, hostErr := false }

/-- The module with that departure in progress on Station 0 of the running context, every memory empty, and the command next. -/
def cutState : State :=
  { State.reset with
    pending := [.cancelSection 0 0], modState := .ready
    queues := [(0, { Queue.init with enable := true, log2 := 4, cmds := [cutCommand] })]
    slots := [(0, { Slot.init with state := .running, image := some { bytes := [], digest := 0, ranges := [] }, run := some cutSection })]
    stations := [(0, { Station.init with progs := [cutProg], runs := [cutRecord] })] }

theorem cutState_memoriesWf : cutState.memoriesWf := by
  refine ⟨rfl, rfl, fun k => ?_⟩
  cases k <;> rfl

/-- The cancel writes the copy's cells into the store as they stand. -/
theorem cutState_step : ∃ t, step cutState = .next t ∧ (t.station 0).store = [(1, 1), (0, 1)] := ⟨_, rfl, by decide +kernel⟩

/-- Refutes O5: the canonical form of the memories alone is not kept, because a cancel takes the store of a departure that it cuts short
back from that departure's own copy, and nothing says that the copy is canonical. -/
theorem not_memoriesStayCanonical : ¬ Obligations.MemoriesStayCanonical := by
  unfold Obligations.MemoriesStayCanonical
  intro h
  obtain ⟨t, ht, hstore⟩ := cutState_step
  obtain ⟨-, -, stores⟩ := h cutState t cutState_memoriesWf ht
  have canonical := stores 0
  rw [hstore] at canonical
  exact absurd canonical (by decide)

end Sys2Proof.Proofs
end

section
/-! Retirement and replay (O46): what frees frames, allocates pages and enters a section leaves the runs of the contexts alone. -/

namespace Sys2Proof.Proofs

open Sys2Proof Sys2Proof.Machine Sys2Proof.Laws

/-- Of a slot only its state, to `STOPPED`, the mark of a bad step and the list of live objects may have changed. -/
def Halts (x y : Slot) : Prop :=
  ∃ st b l, y = { x with state := st, step := { x.step with bad := b }, live := l } ∧ (st = x.state ∨ st = .stopped)

/-- Work on pages may stop contexts; it changes nothing else of a run, asks no replay, and leaves the collective engine alone. -/
structure Paged (s t : State) : Prop where
  slots  : ∀ c, Halts (s.slot c) (t.slot c)
  replay : s.replay = false → t.replay = false
  coll   : t.coll = s.coll

variable {s t u : State}

theorem Halts.refl (x : Slot) : Halts x x := ⟨_, _, _, rfl, .inl rfl⟩

theorem Halts.trans {x y z : Slot} (h : Halts x y) (k : Halts y z) : Halts x z := by
  obtain ⟨a, _, _, rfl, ha⟩ := h
  obtain ⟨b, _, _, rfl, hb⟩ := k
  refine ⟨b, _, _, rfl, ?_⟩
  rcases hb with rfl | rfl
  · exact ha
  · exact .inr rfl

/-- The fields that stay. -/
theorem Halts.fields {x y : Slot} (h : Halts x y) :
    y.image = x.image ∧ y.binding = x.binding ∧ y.run = x.run ∧ y.step.committed = x.step.committed ∧
    y.step.raIssued = x.step.raIssued ∧ y.step.dirty = x.step.dirty ∧ y.step.pushed = x.step.pushed := by
  obtain ⟨_, _, _, rfl, _⟩ := h
  exact ⟨rfl, rfl, rfl, rfl, rfl, rfl, rfl⟩

theorem Halts.state {x y : Slot} (h : Halts x y) : y.state = x.state ∨ y.state = .stopped := by
  obtain ⟨_, _, _, rfl, h⟩ := h
  exact h

theorem Paged.refl (s : State) : Paged s s := ⟨fun _ => .refl _, id, rfl⟩

theorem Paged.trans (h : Paged s t) (k : Paged t u) : Paged s u :=
  ⟨fun c => (h.slots c).trans (k.slots c), fun r => k.replay (h.replay r), k.coll.trans h.coll⟩

/-- A change outside the slots and the collective engine. -/
theorem Paged.of_eq (hs : t.slots = s.slots) (hr : t.replay = s.replay) (hc : t.coll = s.coll) : Paged s t :=
  ⟨fun c => by simp only [State.slot, hs]; exact .refl _, fun r => hr.trans r, hc⟩

theorem Paged.of_replied (h : Replied s t) : Paged s t := by
  obtain ⟨_, _, _, _, _, _, _, rfl, _⟩ := h
  exact .of_eq rfl rfl rfl

theorem Paged.of_logged (h : Logged s t) : Paged s t := .of_replied h.replied

variable (s)

theorem Paged.foldl {β : Type} {g : State → β → State} (h : ∀ x b, Paged x (g x b)) (l : List β) : Paged s (l.foldl g s) :=
  foldl_keeps (Paged s) g (fun x b hx => hx.trans (h x b)) l s (.refl s)

theorem Paged.modSlot (c : Nat) {f : Slot → Slot} (h : ∀ x, Halts x (f x)) : Paged s (s.modSlot c f) := by
  refine ⟨fun d => ?_, id, rfl⟩
  rw [slot_modSlot]
  split
  next e => exact e ▸ h _
  · exact .refl _

theorem bump_paged (c : Ctr) (i n : Nat) : Paged s (s.bump c i n) := .of_logged (bump_logged s c i n)

theorem report_paged (r : EvtRec) : Paged s (s.report r) := by
  obtain ⟨slots, replay, -⟩ := report_slots s r
  exact .of_eq slots replay (by simp)

theorem recovered_paged (c : Nat) : Paged s (s.recovered c) := by
  obtain ⟨t, n, h, e⟩ := recovered_eq s c
  rw [e]
  exact (Paged.of_replied h).trans (.of_eq rfl rfl rfl)

/-- A stop changes of its slot the state alone (R181). -/
theorem stopContext_paged (c : Nat) : Paged s (s.stopContext c) := by
  unfold State.stopContext
  extract_lets +onlyGivenNames ended v w
  have stopped : Paged s w := by
    have halted : Paged s v := .modSlot s c fun x => ⟨_, _, _, rfl, .inr rfl⟩
    have unasked : Paged s { v with replay := false } := ⟨halted.slots, fun _ => rfl, rfl⟩
    exact unasked.trans (.of_replied (endCommands_replied { v with replay := false } _ _))
  split
  · exact stopped.trans (recovered_paged w c)
  · exact stopped

theorem stopContext_state (c : Nat) : ((s.stopContext c).slot c).state = .stopped := by
  unfold State.stopContext
  extract_lets +onlyGivenNames ended v w
  have stopped : (w.slot c).state = .stopped := by
    have kept : w.slots = v.slots := by simp [w]
    rw [State.slot, kept]
    exact congrArg Slot.state (slot_modSlot_self s c _)
  split
  · rcases ((recovered_paged w c).slots c).state with e | e
    · exact e.trans stopped
    · exact e
  · exact stopped

theorem contractFault_paged (c b : Nat) (r : EvtRec) : Paged s (s.contractFault c b r) :=
  (report_paged s _).trans (stopContext_paged _ _)

theorem abortingError_paged (c : Nat) (r : EvtRec) : Paged s (s.abortingError c r) :=
  (report_paged s _).trans (stopContext_paged _ _)

/-! ### Frames and pages -/

/-- Frames that become free or retire leave the Placement Map alone as well. -/
structure Quits (s t : State) : Prop extends Paged s t where
  map : t.tiers.map = s.tiers.map

theorem Quits.refl : Quits s s := ⟨.refl s, rfl⟩

theorem Quits.trans {s t u : State} (h : Quits s t) (k : Quits t u) : Quits s u := ⟨h.1.trans k.1, k.2.trans h.2⟩

theorem setMem_quits (host : Bool) (m : List Host.Cell) : Quits s (s.setMem host m) := by
  cases host <;> exact ⟨.of_eq rfl rfl rfl, rfl⟩

theorem wipeFrame_quits (tier frame : Nat) : Quits s (s.wipeFrame tier frame) := by
  have cleaned : Quits s (s.cleanFrame tier frame) := ⟨.of_eq rfl rfl rfl, rfl⟩
  unfold State.wipeFrame
  dsimp only
  split
  · exact cleaned
  · exact cleaned.trans (setMem_quits _ _ _)

theorem bump_quits (c : Ctr) (i n : Nat) : Quits s (s.bump c i n) := ⟨bump_paged s c i n, by simp⟩

theorem retireFrame_quits (tier frame : Nat) : Quits s (s.retireFrame tier frame) := by
  unfold State.retireFrame
  dsimp only
  split
  · split
    · exact .refl s
    · refine Quits.trans ?_ (bump_quits _ _ _ _)
      exact ⟨.of_eq rfl rfl rfl, rfl⟩
  · split
    · exact .refl s
    · refine Quits.trans ?_ (bump_quits _ _ _ _)
      exact ⟨.of_eq rfl rfl rfl, rfl⟩

theorem checkFit_quits (w : Nat) : Quits s (s.checkFit w) := by
  unfold State.checkFit
  split
  · exact .refl s
  · refine foldl_keeps (Quits s) _ (fun x c hx => ?_) _ s (.refl s)
    dsimp only
    split
    · exact hx.trans ⟨abortingError_paged x c _, by simp⟩
    · exact hx

theorem retireQuit_quits (k : Nat) : Quits s (s.retireQuit k) := by
  unfold State.retireQuit
  split
  · refine Quits.trans (Quits.trans ?_ (retireFrame_quits _ _ _)) (checkFit_quits _ _)
    exact ⟨.of_eq rfl rfl rfl, rfl⟩
  · exact .refl s

theorem quitFrame_quits (k : Nat) : Quits s (s.quitFrame k) := (wipeFrame_quits s _ _).trans (retireQuit_quits _ k)

theorem drained_quits : Quits s s.drained := by
  unfold State.drained
  refine foldl_keeps (Quits s) _ (fun x k hx => hx.trans ?_) _ s (.refl s)
  refine Quits.trans ?_ (quitFrame_quits _ k)
  exact ⟨.of_eq rfl rfl rfl, rfl⟩

theorem leaveFrame_quits (tier frame : Nat) : Quits s (s.leaveFrame tier frame) := by
  unfold State.leaveFrame
  split
  · exact ⟨.of_eq rfl rfl rfl, rfl⟩
  · exact quitFrame_quits s _

theorem freePage_paged (e : Nat) : Paged s (s.freePage e) := by
  unfold State.freePage
  extract_lets +onlyGivenNames m _ _ _ _ freed left
  split
  · have quit : Paged s left := by
      refine Paged.trans ?_ (leaveFrame_quits freed _ _).toPaged
      exact .of_eq rfl rfl rfl
    split
    · exact quit.trans (retireQuit_quits left _).toPaged
    · exact quit
  · exact .refl s

theorem shift_paged (e tier frame : Nat) : Paged s (s.shift e tier frame) := by
  unfold State.shift
  extract_lets +onlyGivenNames m _ _ _ written _ _ _ copied entered _ _ queued left
  have moved : Paged s copied := by
    unfold copied
    split
    · exact .refl s
    · exact (setMem_quits s _ _).toPaged.trans (.of_eq rfl rfl rfl)
  have quit : Paged copied left := by
    refine Paged.trans ?_ (leaveFrame_quits queued _ _).toPaged
    exact .of_eq rfl rfl rfl
  exact ((moved.trans quit).trans (bump_paged left _ _ _)).trans (bump_paged _ _ _ _)

theorem relieve_paged (c : Nat) (order : List Nat) : Paged s (s.relieve c order) := by
  unfold State.relieve
  split
  · exact .refl s
  · split
    · split
      · exact shift_paged s _ _ _
      · exact .refl s
    · exact .refl s

theorem allocPage_paged (c e object page : Nat) (order : List Nat) (pinned : Bool) :
    Paged s (s.allocPage c e object page order pinned) := by
  unfold State.allocPage
  split
  · exact .refl s
  · exact .of_eq rfl rfl rfl

theorem allocObject_paged (c n : Nat) (d : ObjDesc) : Paged s (s.allocObject c n d) := by
  unfold State.allocObject
  split
  · exact .refl s
  · refine .foldl s (fun x p => ?_) _
    extract_lets +onlyGivenNames y
    have got : Paged x y := (relieve_paged x _ _).trans (allocPage_paged _ _ _ _ _ _ _)
    split
    · exact got
    · split
      · exact got
      · exact got.trans (abortingError_paged y _ _)

/-! ### A section begins -/

theorem lifetimes_paged (c x : Nat) : Paged s (s.lifetimes c x) := by
  unfold State.lifetimes
  split
  · exact .refl s
  next img _ =>
    extract_lets +onlyGivenNames old now v w
    have freed : Paged s v := .foldl s (fun y n => .foldl y freePage_paged _) _
    have got : Paged v w := by
      refine .foldl v (fun y n => ?_) _
      split
      · exact allocObject_paged y _ _ _
      · exact .refl y
    exact (freed.trans got).trans (.modSlot w c fun y => ⟨_, _, _, rfl, .inl rfl⟩)

theorem plan_paged : Paged s s.plan := by
  unfold State.plan
  split
  · exact .of_eq rfl rfl rfl
  · dsimp only
    split
    · exact .of_eq rfl rfl rfl
    · exact .refl s

theorem noPoints_paged (c : Nat) (img : Image) (x : Nat) : Paged s (s.noPoints c img x) := by
  unfold State.noPoints State.pointsMissing
  split
  · split
    · dsimp only
      split
      · exact contractFault_paged s _ _ _
      · exact .refl s
    · exact .refl s
  · exact .refl s

/-- A slot whose run stands at the start of section x, with the Right-aways of the slot before. -/
def Entered (x : Nat) (y z : Slot) : Prop :=
  (∃ r, z.run = some r ∧ r.sect = x ∧ r.cancelled = none) ∧ z.step.committed = y.step.committed ∧
    z.step.raIssued = y.step.raIssued

theorem Entered.halts {x : Nat} {y z w : Slot} (h : Entered x y z) (k : Halts z w) : Entered x y w := by
  obtain ⟨-, -, hrun, hcommitted, hissued, -⟩ := k.fields
  obtain ⟨run, committed, issued⟩ := h
  exact ⟨hrun ▸ run, hcommitted.trans committed, hissued.trans issued⟩

/-- R443: the section that a context enters runs uncancelled; the pages and the plan follow. -/
theorem enterSection_entered (c x epoch : Nat) (floatPast : Bool) (follow : List Nat) {run : Run} {img : Image}
    (hr : (s.slot c).run = some run) (hi : (s.slot c).image = some img) :
    ∃ v, Entered x (s.slot c) (v.slot c) ∧ v.replay = s.replay ∧ Paged v (s.enterSection c x epoch floatPast follow) := by
  unfold State.enterSection
  split
  next r i hr' hi' =>
    extract_lets +onlyGivenNames a b v w
    have entered : Entered x (s.slot c) (b.slot c) := by
      rw [show b.slot c = a.slot c from rfl, slot_modSlot_self]
      exact ⟨⟨_, rfl, rfl, rfl⟩, rfl, rfl⟩
    have planned : Paged v w := (lifetimes_paged v c x).trans (plan_paged _)
    refine ⟨v, ?_, ?_, ?_⟩
    · unfold v
      split
      · rw [slot_modSlot_self]
        exact entered
      · exact entered
    · unfold v
      split <;> rfl
    · split
      · exact planned
      · exact planned.trans (noPoints_paged w _ _ _)
  next h => exact absurd hi (h run img hr)

theorem freshStations_paged (img : Image) : Paged s (s.freshStations img) := by
  refine Paged.trans ?_ (drained_quits _).toPaged
  exact .of_eq rfl rfl rfl

theorem beginRun_entered (c runEpoch x epoch : Nat) (floatPast waiting : Bool) {img : Image} (hi : (s.slot c).image = some img) :
    ∃ v, Entered x (s.slot c) (v.slot c) ∧ v.replay = s.replay ∧ Paged v (s.beginRun c runEpoch x epoch floatPast waiting) := by
  unfold State.beginRun
  extract_lets +onlyGivenNames run v
  have running : v.slot c = { s.slot c with state := .running, run := some run } := slot_modSlot_self s c _
  obtain ⟨w, entered, unasked, paged⟩ := enterSection_entered v c x epoch floatPast [] (run := run) (img := img)
    (by rw [running]) (by rw [running]; exact hi)
  rw [running] at entered
  exact ⟨w, entered, unasked, paged⟩

/-- R408 steps 5 and 6: the context runs again from the first section of its step, and no replay is asked for. -/
theorem replayRun_entered (c : Nat) {run : Run} {img : Image} (hr : (s.slot c).run = some run) (hi : (s.slot c).image = some img) :
    ∃ r, ((s.replayRun c).slot c).run = some r ∧ r.sect = img.stepFirst ∧ r.cancelled = none ∧
      ((s.replayRun c).slot c).step.committed = (s.slot c).step.committed ∧ ((s.replayRun c).slot c).step.raIssued = none ∧
      (s.replayRun c).replay = false := by
  suffices h : ∃ y v, y.step.committed = (s.slot c).step.committed ∧ y.step.raIssued = none ∧ Entered img.stepFirst y (v.slot c) ∧
      v.replay = false ∧ Paged v (s.replayRun c) by
    obtain ⟨y, v, committed, issued, entered, unasked, paged⟩ := h
    obtain ⟨⟨r, hrun, hsect, hcancelled⟩, hcommitted, hissued⟩ := entered.halts (paged.slots c)
    exact ⟨r, hrun, hsect, hcancelled, hcommitted.trans committed, hissued.trans issued, paged.replay unasked⟩
  unfold State.replayRun
  split
  next i r hi' hr' =>
    obtain rfl := Option.some.inj (hi.symm.trans hi')
    extract_lets +onlyGivenNames v w _ asked x e begun
    obtain ⟨himage, -, -, hcommitted, -⟩ := ((freshStations_paged s img).slots c).fields
    have cleared : w.slot c = { v.slot c with step := { (v.slot c).step with collIssued := [], raIssued := none } } :=
      slot_modSlot_self v c _
    obtain ⟨u, entered, unasked, paged⟩ := beginRun_entered { asked with replay := false } c r.epoch x e.1 e.2 false (img := img)
      ((congrArg Slot.image cleared).trans (himage.trans hi))
    refine ⟨w.slot c, u, ?_, ?_, entered, unasked, (paged.trans (bump_paged begun _ _ _)).trans (recovered_paged _ c)⟩
    · rw [cleared]
      exact hcommitted
    · rw [cleared]
  next h => exact absurd hr (h img run hi)

/-! ### A step is abandoned -/

theorem cancelMessages_kept (c : Nat) (test : Nat → Bool) :
    (s.cancelMessages c test).slots = s.slots ∧ (s.cancelMessages c test).coll.replicas = s.coll.replicas ∧
    (s.cancelMessages c test).tiers = s.tiers := by
  unfold State.cancelMessages
  dsimp only
  split <;> exact ⟨rfl, rfl, rfl⟩

/-- R408 steps 1 to 3: the work of the step goes; contexts stop at most, and the replicas and the Placement Map are as they were. -/
theorem abandon_kept (c : Nat) :
    (∀ d, Halts (s.slot d) ((s.abandon c).slot d)) ∧ (s.abandon c).coll.replicas = s.coll.replicas ∧
    (s.abandon c).tiers.map = s.tiers.map := by
  unfold State.abandon
  extract_lets +onlyGivenNames sect v _ w
  obtain ⟨slots, replicas, tiers⟩ := cancelMessages_kept (s.mapStations Station.abandon) c (fun x => x == sect)
  have quits := drained_quits { w with turns := [] }.clearLoop
  refine ⟨fun d => ?_, (congrArg Collective.replicas quits.coll).trans replicas, quits.map.trans (congrArg Tiers.map tiers)⟩
  have same : v.slot d = s.slot d := congrArg (fun x => tget Slot.init x d) slots
  exact same ▸ quits.slots d

/-! ### The clauses -/

variable {s} in
theorem Halts.idle {c : Nat} (h : Halts (s.slot c) (t.slot c)) (hb : s.busy c = false) : t.busy c = false := by
  simp only [State.busy] at hb ⊢
  rcases h.state with e | e
  · rw [e]
    exact hb
  · rw [e]
    rfl

/-- With no spare left, a context that had work stops (R407). -/
def stopWork (s : State) (c : Nat) : State :=
  if (s.slot c).state = .running ∨ (s.slot c).state = .recovering ∨ (s.slot c).state = .preempted then s.stopContext c else s

theorem stopWork_paged (c : Nat) : Paged s (stopWork s c) := by
  unfold stopWork
  split
  · exact stopContext_paged s c
  · exact .refl s

theorem stopWork_stopped (c : Nat) : Stopped s (stopWork s c) := by
  unfold stopWork
  split
  · exact stopContext_stopped s c
  · exact .refl s

variable {s} in
theorem stopWork_idle (c : Nat) : (stopWork s c).busy c = false := by
  unfold stopWork
  split
  · simp [State.busy, stopContext_state]
  next h => simpa [State.busy, not_or] using ⟨fun e => h (.inl e), fun e => h (.inr (.inl e))⟩

theorem foldl_stopWork_idle (l : List Nat) (s : State) (c : Nat) (h : c ∈ l) : (l.foldl stopWork s).busy c = false := by
  induction l generalizing s with
  | nil => cases h
  | cons d l ih =>
    rcases List.mem_cons.1 h with rfl | h
    · exact ((Paged.foldl _ stopWork_paged l).slots c).idle (stopWork_idle c)
    · exact ih _ h

/-- Station p has retired for good, and the Loop is reconfigured (R106, R110, R406). -/
def struckOff (s : State) (p : Nat) : State :=
  let s := { s with retireQ := s.retireQ.filter (fun q => q != p) }
  let s := s.setFlash { s.flash with retired := s.flash.retired ++ [p] }
  (s.bump .depRetired 0 1).clearLoop

/-- Every context that had work has stopped, for a Station whose number has no spare left (R407). -/
def workStopped (s : State) (p : Nat) : State :=
  (List.range 8).foldl stopWork (s.report { EvtRec.blank with family := 2, code := 6, scope := scopeModule, pstation := p })

/-- And the module has no spare. -/
def unserved (s : State) (p : Nat) : State :=
  let s := workStopped s p
  { s with modState := if s.modState = .ready then .noSpare else s.modState, replay := false,
           startup := { s.startup with needNoSpare := true } }

theorem struckOff_fields (p : Nat) :
    (struckOff s p).flash.retired = s.flash.retired ++ [p] ∧ (struckOff s p).retireQ = s.retireQ.filter (fun q => q != p) ∧
    (struckOff s p).hops = [] ∧ (struckOff s p).stations = s.stations ∧ (struckOff s p).slots = s.slots ∧
    (struckOff s p).modState = s.modState := by
  simp [struckOff, State.clearLoop]

theorem workStopped_stopped (p : Nat) : Stopped s (workStopped s p) :=
  (report_stopped s _).trans (foldl_keeps (Stopped _) stopWork (fun x c hx => hx.trans (stopWork_stopped x c)) _ _ (.refl _))

theorem unserved_fields (p : Nat) :
    (unserved s p).flash = s.flash ∧ (unserved s p).retireQ = s.retireQ ∧ (unserved s p).hops = s.hops ∧
    (unserved s p).stations = s.stations ∧ (s.modState = .ready → (unserved s p).modState = .noSpare) := by
  obtain ⟨-, -, modState, -, flash, -, -, -, -, -, -, stations, -, hops, -, -, -, -, -, -, -, -, -, -, retireQ, -⟩ :=
    (workStopped_stopped s p).fields
  simp only [unserved]
  exact ⟨flash, retireQ, hops, stations, fun h => if_pos (modState.trans h)⟩

theorem unserved_idle (p c : Nat) (h : c < 8) : (unserved s p).busy c = false := by
  have idle : (workStopped s p).busy c = false := foldl_stopWork_idle (List.range 8) _ c (List.mem_range.2 h)
  simp only [State.busy, State.slot, unserved] at idle ⊢
  exact idle

/-- R106, R406, R407: a Station that is due retires; where it carried a number and its Sector had no spare, contexts stop. -/
theorem exec_stationRetire (p : Fin 136) (now : Nat) (hc : s.power.compStopped = false) (hq : p.val ∈ s.retireQ)
    (hr : p.val ∉ s.flash.retired) (hw : ∀ q c a r, s.census ≠ .triggered q c a r) :
    exec (.stationRetire p now) s = .next (
      if s.logical p = none ∨ hasSpare s.flash.retired (p.val / 17) = true then struckOff (s.advance now) p
      else unserved (struckOff (s.advance now) p) p) := by
  have due : (s.advance now).retireQ.contains p.val = true := by simpa using hq
  have fresh : (s.advance now).flash.retired.contains p.val = false := by simpa using hr
  have number : (s.advance now).logical p = s.logical p := by simp [State.logical]
  have spare : hasSpare (s.advance now).flash.retired (p.val / 17) = hasSpare s.flash.retired (p.val / 17) := by simp
  simp only [exec, execStationRetire, State.clocked, hc, due, fresh, number, spare]
  rw [if_neg (by decide), if_neg]
  · by_cases h : s.logical p = none ∨ hasSpare s.flash.retired (p.val / 17) = true
    · rw [if_pos h, if_pos (by simpa using h)]
      simp only [struckOff]
    · rw [if_neg h, if_neg (by simpa using h)]
      unfold unserved workStopped struckOff stopWork
      with_reducible rfl
  · intro waits
    split at waits
    next e => exact hw _ _ _ _ ((show (s.advance now).census = s.census by simp) ▸ e)
    · cases waits

/-- The hops of a Loop that has been reconfigured are empty, each with the credits of its kind (R110). -/
theorem hop_of_no_hops (h : s.hops = []) (n m : Nat) : s.hop n m = { Hop.init with credits := hopCredits s.flash.retired n m } := by
  rw [State.hop, h]
  rfl

theorem oneRuns_of_idle (h : ∀ c < 8, s.busy c = false) : s.oneRuns :=
  fun c hc _ _ hb => absurd hb (Bool.eq_false_iff.1 (h c hc))

/-- R106, R406, R407: what a retirement leaves, with the Sector's spare or without it. -/
theorem stationRetire_retires (p : Fin 136) (now : Nat) (hc : s.power.compStopped = false) (hq : p.val ∈ s.retireQ)
    (hr : p.val ∉ s.flash.retired) (hw : ∀ q c a r, s.census ≠ .triggered q c a r) :
    ∃ u, exec (.stationRetire p now) s = .next u ∧ u.flash.retired = s.flash.retired ++ [p.val] ∧ p.val ∉ u.retireQ ∧
      (∀ n m, m < 2 → (u.hop n m).moving = none ∧ (u.hop n m).held = none ∧ (u.hop n m).own = [] ∧
        (u.hop n m).credits = hopCredits u.flash.retired n m) ∧
      u.stations = s.stations ∧
      ((s.logical p = none ∨ hasSpare s.flash.retired (p.val / 17) = true) → u.slots = s.slots ∧ u.modState = s.modState) ∧
      (s.logical p ≠ none → hasSpare s.flash.retired (p.val / 17) = false →
        u.oneRuns ∧ (∀ c < 8, u.busy c = false) ∧ (s.modState = .ready → u.modState = .noSpare)) := by
  obtain ⟨retired, retireQ, hops, stations, slots, modState⟩ := struckOff_fields (s.advance now) p
  obtain ⟨flash', retireQ', hops', stations', modState'⟩ := unserved_fields (struckOff (s.advance now) p) p
  have gone : p.val ∉ (struckOff (s.advance now) p).retireQ := by simp [retireQ]
  simp only [advance_fields] at retired stations slots modState
  have empty (u : State) (hu : u.hops = []) (n m : Nat) (_ : m < 2) :
      (u.hop n m).moving = none ∧ (u.hop n m).held = none ∧ (u.hop n m).own = [] ∧
        (u.hop n m).credits = hopCredits u.flash.retired n m := by
    rw [hop_of_no_hops u hu]
    exact ⟨rfl, rfl, rfl, rfl⟩
  rw [exec_stationRetire s p now hc hq hr hw]
  split
  next h =>
    refine ⟨_, rfl, retired, gone, empty _ hops, stations, fun _ => ⟨slots, modState⟩, fun hl hs => ?_⟩
    rcases h with h | h
    · exact absurd h hl
    · exact absurd (hs.symm.trans h) Bool.false_ne_true
  next h =>
    have idle := unserved_idle (struckOff (s.advance now) p) p
    exact ⟨_, rfl, (congrArg Flash.retired flash').trans retired, retireQ'.symm ▸ gone, empty _ (hops'.trans hops),
      stations'.trans stations, fun h' => absurd h' h,
      fun _ _ => ⟨oneRuns_of_idle _ idle, idle, fun hm => modState' (modState.trans hm)⟩⟩

/-- What the advance of line time and the end of the step's work leave of context c and of what it would be replayed from. -/
theorem abandon_advance (now c : Nat) :
    let t := (s.advance now).abandon c
    Halts (s.slot c) (t.slot c) ∧ t.dirtyPages c = s.dirtyPages c ∧ (∀ b i, t.currentFrom b i = s.currentFrom b i) ∧
    t.tiers.map = s.tiers.map := by
  obtain ⟨slots, replicas, map⟩ := abandon_kept (s.advance now) c
  have halts := slots c
  rw [show (s.advance now).slot c = s.slot c by simp [State.slot]] at halts
  obtain ⟨-, -, -, -, -, dirty, pushed⟩ := halts.fields
  exact ⟨halts, by simp only [State.dirtyPages, dirty, pushed], fun b i => by simp [State.currentFrom, replicas], by simp [map]⟩

/-- What a recovering context with its step abandoned does: it runs again, asks a holder, or stops (R408). -/
def replayed (s : State) (c : Nat) (b : Binding) : State :=
  if s.dirtyPages c = [] then s.replayRun c
  else match s.currentFrom b 1 with
    | some i => { s with replay := false }.askHolder b 0 i
    | none => s.noAnswer c 0

/-- R408: once every Station that was due has retired, a recovering context abandons its step. -/
theorem exec_stepReplay (now : Nat) {c : Nat} {b : Binding} (hc : s.runSlot = some c) (hst : (s.slot c).state = .recovering)
    (hb : (s.slot c).binding = some b) (hr : s.replay = true) (hq : s.retireQ = [])
    (hw : ∀ q c a r, s.census ≠ .triggered q c a r) (ha : s.coll.asked = none) :
    exec (.stepReplay now) s = .next (replayed ((s.advance now).abandon c) c b) := by
  have slot : (s.advance now).slot c = s.slot c := by simp [State.slot]
  have runs : (s.advance now).runSlot = some c := (runSlot_of_slots (by simp)).trans hc
  have due : (s.advance now).replay = true := by simpa using hr
  have settled : (s.advance now).retireQ = [] := by simpa using hq
  have unasked : (s.advance now).coll.asked = none := by simpa using ha
  obtain ⟨halts, -⟩ := abandon_advance s now c
  obtain ⟨-, binding, -⟩ := halts.fields
  have bound : (((s.advance now).abandon c).slot c).binding = some b := binding.trans hb
  simp only [exec, execStepReplay, runs, slot, hst, due, settled, unasked, bound]
  rw [if_neg]
  · unfold replayed
    split
    · rfl
    · cases ((s.advance now).abandon c).currentFrom b 1 <;> rfl
  · intro waits
    split at waits
    next e => exact hw _ _ _ _ ((show (s.advance now).census = s.census by simp) ▸ e)
    · cases waits

theorem noAnswer_stops (c : Nat) (h : (s.slot c).state = .recovering ∨ (s.slot c).state = .stopped) :
    ((s.noAnswer c 0).slot c).state = .stopped := by
  unfold State.noAnswer
  extract_lets +onlyGivenNames _ v
  have same : v.slot c = s.slot c := rfl
  rw [if_neg (by decide), if_neg (by decide), same]
  split
  next hs => exact h.resolve_left hs
  · exact stopContext_state _ c

/-- The holder that is asked, and what the request leaves (R408, R419). -/
theorem askHolder_asked (b : Binding) (purpose i : Nat) :
    (s.askHolder b purpose i).coll.asked = some { purpose := purpose, holder := i, since := s.time.lt } ∧
    (s.askHolder b purpose i).replay = s.replay ∧ (s.askHolder b purpose i).tiers = s.tiers := by
  unfold State.askHolder
  dsimp only
  split <;> exact ⟨rfl, rfl, rfl⟩

section
variable {s : State} {now c : Nat} {img : Image} {b : Binding} {run : Run} (hc : s.runSlot = some c)
  (hst : (s.slot c).state = .recovering) (hb : (s.slot c).binding = some b) (hq : s.replay = true) (hl : s.retireQ = [])
  (hw : ∀ q c a r, s.census ≠ .triggered q c a r) (ha : s.coll.asked = none)
include hc hst hb hq hl hw ha

/-- R408: with no Class P page written, the step runs again at once. -/
theorem stepReplay_replays (hi : (s.slot c).image = some img) (hr : (s.slot c).run = some run) (hd : s.dirtyPages c = []) :
    ∃ u r, exec (.stepReplay now) s = .next u ∧ (u.slot c).run = some r ∧ r.sect = img.stepFirst ∧ r.cancelled = none ∧
      (u.slot c).step.committed = (s.slot c).step.committed ∧ (u.slot c).step.raIssued = none ∧ u.replay = false := by
  obtain ⟨halts, dirty, -⟩ := abandon_advance s now c
  obtain ⟨image, -, same, committed, -⟩ := halts.fields
  obtain ⟨r, again, sect, uncancelled, kept, issued, unasked⟩ := replayRun_entered _ c (same.trans hr) (image.trans hi)
  refine ⟨_, r, exec_stepReplay s now hc hst hb hq hl hw ha, ?_⟩
  rw [replayed, if_pos (dirty.trans hd)]
  exact ⟨again, sect, uncancelled, kept.trans committed, issued, unasked⟩

/-- R408: with one written, a holder that is `CURRENT` is asked. -/
theorem stepReplay_asks (i : Nat) (hd : s.dirtyPages c ≠ []) (hf : s.currentFrom b 1 = some i) :
    ∃ u a, exec (.stepReplay now) s = .next u ∧ u.coll.asked = some a ∧ a.purpose = 0 ∧ a.holder = i ∧ u.replay = false ∧
      u.tiers.map = s.tiers.map := by
  obtain ⟨-, dirty, current, map⟩ := abandon_advance s now c
  have asks := exec_stepReplay s now hc hst hb hq hl hw ha
  rw [replayed, if_neg (dirty ▸ hd), current, hf] at asks
  obtain ⟨asked, unasked, tiers⟩ := askHolder_asked { (s.advance now).abandon c with replay := false } b 0 i
  exact ⟨_, _, asks, asked, rfl, rfl, unasked, (congrArg Tiers.map tiers).trans map⟩

/-- R408: with no replica `CURRENT`, the context stops. -/
theorem stepReplay_stops (hd : s.dirtyPages c ≠ []) (hf : s.currentFrom b 1 = none) :
    ∃ u, exec (.stepReplay now) s = .next u ∧ (u.slot c).state = .stopped := by
  obtain ⟨halts, dirty, current, -⟩ := abandon_advance s now c
  refine ⟨_, exec_stepReplay s now hc hst hb hq hl hw ha, ?_⟩
  rw [replayed, if_neg (dirty ▸ hd), current, hf]
  exact noAnswer_stops _ c (halts.state.imp_left fun e => e.trans hst)

end

/-- Settles O46: a retirement writes the Station off and empties the Loop, and what a recovering context does after it turns on the Class P
pages that it has written; whatever its pages and its plan do then, its run stands. -/
theorem retirementAndReplay : Obligations.RetirementAndReplay := by
  unfold Obligations.RetirementAndReplay
  refine ⟨fun p now s hc hq hr hw => stationRetire_retires s p now hc hq hr hw, ?_⟩
  intro now c s img b run hc hst hi hb hr hq hl hw ha
  exact ⟨stepReplay_replays hc hst hb hq hl hw ha hi hr, stepReplay_asks hc hst hb hq hl hw ha,
    stepReplay_stops hc hst hb hq hl hw ha⟩

end Sys2Proof.Proofs
end

section
/-! The Loop: what the hops of one line can do while the Consists on it move as far as they can (R90 to R105). -/

namespace Sys2Proof.Proofs

open Sys2Proof Sys2Proof.Machine Sys2Proof.Laws

/-- The Loop's hops and the retired Stations, which its path follows, are the same in `s` and `t`. -/
def OffLoop (s t : State) : Prop := t.hops = s.hops ∧ t.flash = s.flash

/-- One change of the hop that leaves node `p`, with the condition under which it comes about. -/
inductive HopStep (p : Nat) : Hop → Hop → Prop
  /-- Flits come into the crossing buffer at its end (R99, R100). -/
  | arrive (h : Hop) (n : Nat) : HopStep p h (h.arriveFlits n)
  /-- The Consist at the node's input begins to leave (R94, R96). -/
  | pass (h : Hop) (c : Consist) (sc : Nat) : h.held = some c → c.goesOn h.mode = true → h.read = 0 → h.open = true →
      HopStep p h (h.begin { c with dep := none } true sc)
  /-- Entries of its crossing buffer are read out (R99). -/
  | free (h : Hop) (n : Nat) : HopStep p h (h.readOut n)
  /-- Flits at the head of the node's input are read out (R96). -/
  | read (h : Hop) (c : Consist) (n : Nat) : h.held = some c → n ≠ 0 → h.read + n ≤ c.size → h.mode ≠ .holding →
      HopStep p h { h with read := h.read + n }
  /-- Flits are launched (R99). -/
  | put (h : Hop) (n : Nat) : HopStep p h (h.collect.launchFlits n)
  /-- A junction begins a Consist of its Turntable (R244). -/
  | own (h : Hop) (c : Consist) (rest : List Consist) (sc : Nat) : h.own = c :: rest → h.moving = none → 136 ≤ p →
      HopStep p h ({ h with own := rest }.begin c false sc)
  /-- The node's input is done with its Consist. -/
  | taken (h : Hop) (c : Consist) : h.held = some c → h.read = c.size →
      HopStep p h { h with held := none, mode := .passing, read := 0, due := 0 }
  /-- The Consist that left is in the next node's hands. -/
  | left (h : Hop) : h.arrived = true → HopStep p h { h with moving := none }
  /-- A wait for a credit begins or ends (R111). -/
  | wait (h : Hop) (w : Option Nat) : HopStep p h { h with waitSince := w }

/-- On line `l` every hop has changed by such steps, and the Loop's path is as it was. -/
structure LineMoves (l : Nat) (s t : State) : Prop where
  flash : t.flash = s.flash
  hops  : ∀ q, Relation.ReflTransGen (HopStep q) (s.hop q l) (t.hop q l)

variable {s t u : State} {l : Nat}

theorem OffLoop.refl (s : State) : OffLoop s s := ⟨rfl, rfl⟩

theorem OffLoop.trans (h : OffLoop s t) (k : OffLoop t u) : OffLoop s u := ⟨k.1.trans h.1, k.2.trans h.2⟩

theorem OffLoop.hop (h : OffLoop s t) (p l : Nat) : t.hop p l = s.hop p l := by
  rw [State.hop, h.1, h.2]
  rfl

theorem OffLoop.of_stopped (h : Stopped s t) : OffLoop s t := by
  obtain ⟨_, _, _, _, _, _, _, _, _, _, rfl, _⟩ := h
  exact ⟨rfl, rfl⟩

theorem OffLoop.of_logged (h : Logged s t) : OffLoop s t := .of_stopped h.stopped

theorem OffLoop.of_atStations (h : AtStations s t) : OffLoop s t := by
  obtain ⟨_, _, _, _, _, _, rfl⟩ := h
  exact ⟨rfl, rfl⟩

theorem LineMoves.refl (l : Nat) (s : State) : LineMoves l s s := ⟨rfl, fun _ => .refl⟩

theorem LineMoves.trans (h : LineMoves l s t) (k : LineMoves l t u) : LineMoves l s u :=
  ⟨k.flash.trans h.flash, fun q => (h.hops q).trans (k.hops q)⟩

theorem OffLoop.moves (h : OffLoop s t) (l : Nat) : LineMoves l s t := ⟨h.2, fun q => by rw [h.hop]⟩

/-- What every change of a hop keeps holds of it after all of them. -/
theorem LineMoves.inv (h : LineMoves l s t) (q : Nat) {P : Hop → Prop} (hP : ∀ a b, HopStep q a b → P a → P b)
    (hs : P (s.hop q l)) : P (t.hop q l) := by
  have steps := h.hops q
  generalize t.hop q l = b at steps ⊢
  induction steps with
  | refl => exact hs
  | tail _ step ih => exact hP _ _ step ih

variable (s)

/-- A hop of the line is changed by one step. -/
theorem setHop_moves (p : Nat) {h : Hop} (step : HopStep p (s.hop p l) h) : LineMoves l s (s.setHop p l h) := by
  refine ⟨rfl, fun q => ?_⟩
  rw [hop_setHop]
  split
  next e =>
    obtain rfl : q = p := by omega
    exact .single step
  · exact .refl

theorem bumpNode_offLoop (p : Nat) (c : Ctr) (n : Nat) : OffLoop s (s.bumpNode p c n) := by
  unfold State.bumpNode
  split
  · exact .of_logged (bump_logged s c p n)
  · exact .refl s

theorem stall_offLoop (k : Nat) (id : DepId) (cause n : Nat) : OffLoop s (s.stall k id cause n) := by
  unfold State.stall
  split
  · exact .refl s
  · exact ⟨rfl, rfl⟩

theorem setStation_offLoop (k : Nat) (v : Station) : OffLoop s (s.setStation k v) := ⟨rfl, rfl⟩

theorem modProg_offLoop (k : Nat) (id : DepId) (g : Prog → Prog) : OffLoop s (s.modProg k id g) := ⟨rfl, rfl⟩

theorem launched_offLoop (p : Nat) (c : Consist) (start : Nat) : OffLoop s (s.launched p c start) := by
  unfold State.launched
  split
  · exact .refl s
  · extract_lets +onlyGivenNames k
    split
    · exact .refl s
    · extract_lets +onlyGivenNames sc
      split
      · exact ((modProg_offLoop s _ _ _).trans (stall_offLoop _ _ _ _ _)).trans ⟨rfl, rfl⟩
      · split
        · exact (modProg_offLoop s _ _ _).trans (stall_offLoop _ _ _ _ _)
        · exact .refl s

/-- Launching changes one hop of the Loop (R99). -/
theorem putFlits_offLoop (p l n : Nat) : OffLoop (s.setHop p l ((s.hop p l).collect.launchFlits n)) (s.putFlits p l n) := by
  unfold State.putFlits
  extract_lets +onlyGivenNames h h' v w
  have counted : OffLoop v w := by
    unfold w
    split
    · exact .of_logged (bump_logged v _ _ _)
    · exact .refl v
  have sent : OffLoop (s.setHop p l h') w := (bumpNode_offLoop _ _ _ _).trans counted
  split
  · split
    · exact sent.trans (launched_offLoop w _ _ _)
    · exact sent
  · exact sent

theorem putFlits_moves (p n : Nat) : LineMoves l s (s.putFlits p l n) :=
  (setHop_moves s p (.put _ n)).trans ((putFlits_offLoop s p l n).moves l)

theorem consume_offLoop (p l : Nat) (c : Consist) (id : DepId) (r n : Nat) : OffLoop s (s.consume p l c id r n) := by
  unfold State.consume
  split
  · exact .refl s
  · extract_lets +onlyGivenNames st
    split
    · exact .refl s
    · extract_lets +onlyGivenNames op began
      split
      · extract_lets +onlyGivenNames a from' bytes v done
        split
        · exact (((setStation_offLoop s _ _).trans (setStation_offLoop _ _ _)).trans (modProg_offLoop _ _ _ _)).trans
            (stall_offLoop _ _ _ _ _)
        · exact setStation_offLoop s _ _
      · split
        · exact ((setStation_offLoop s _ _).trans (stall_offLoop _ _ _ _ _)).trans (.of_stopped (runBad_stopped _ _))
        · exact .refl s

/-! ### The steps of a node -/

theorem arriveStep_moves (p : Nat) : LineMoves l s (s.arriveStep p l).1 := by
  unfold State.arriveStep
  extract_lets +onlyGivenNames q up here
  split
  · exact .refl l s
  · extract_lets +onlyGivenNames n
    split
    · exact .refl l s
    · exact setHop_moves s q (.arrive _ n)

theorem passStep_moves (p : Nat) : LineMoves l s (s.passStep p l).1 := by
  unfold State.passStep
  dsimp only
  split
  · exact .refl l s
  next c hc =>
    split
    next h =>
      simp only [Bool.and_eq_true, beq_iff_eq] at h
      obtain ⟨⟨goes, unread⟩, isOpen⟩ := h
      exact setHop_moves s p (.pass _ c _ hc goes unread isOpen)
    · exact .refl l s

/-- `n` flits of the Consist at the head of the input of `p` are read out and reach whatever takes them there (R96, R105). -/
def readInto (s : State) (p l : Nat) (c : Consist) (n : Nat) : State :=
  let here := s.hop p l
  let s := s.modHop (prevNode s.flash.retired p l) l (fun h => h.readOut n)
  let s := s.modHop p l (fun h => { h with read := h.read + n })
  match here.mode with
  | .given id _ => s.consume p l c id here.read n
  | .dropping => s.bumpNode p (.loopDiscard (lineOf l)) n
  | _ => s

theorem inAllow_le (p : Nat) (c : Consist) (m : InMode) : s.inAllow p c m ≤ c.size := by
  unfold State.inAllow
  split
  · exact Nat.zero_le _
  · exact le_rfl
  · exact le_rfl
  · exact le_rfl
  · split
    · exact le_rfl
    · split
      · exact Nat.min_le_left _ _
      · exact le_rfl

/-- Flits at the head of the input of `p`, where `c` is, that are read out: those that have come, as far as they may be, and where they
go on as far as there are credits for them (R96, R99). -/
def readCount (s : State) (p l : Nat) (c : Consist) : Nat :=
  let here := s.hop p l
  min (min (s.hop (prevNode s.flash.retired p l) l).occupied (s.inAllow p c here.mode - here.read))
    (if !c.goesOn here.mode then c.size
     else if here.passes && here.moving.isSome && here.sent == here.read && !here.blocked then here.credits + here.retCred
     else 0)

/-- The flits that are read out go on where their Consist does. -/
theorem readStep_held (p l : Nat) {c : Consist} (hc : (s.hop p l).held = some c) (hn : readCount s p l c ≠ 0) :
    (s.readStep p l).1 =
      if c.goesOn (s.hop p l).mode = true then (readInto s p l c (readCount s p l c)).putFlits p l (readCount s p l c)
      else readInto s p l c (readCount s p l c) := by
  simp only [State.readStep, hc]
  exact congrArg Prod.fst (if_neg hn)

/-- A node reads nothing out of its input, or some flits of the Consist there that it does not hold, which go on where the Consist
does. -/
theorem readStep_cases (p l : Nat) :
    (s.readStep p l).1 = s ∨
    ∃ c n, (s.hop p l).held = some c ∧ n ≠ 0 ∧ (s.hop p l).read + n ≤ c.size ∧ (s.hop p l).mode ≠ .holding ∧
      (s.readStep p l).1 =
        if c.goesOn (s.hop p l).mode = true then (readInto s p l c n).putFlits p l n else readInto s p l c n := by
  cases hc : (s.hop p l).held with
  | none =>
    refine .inl ?_
    simp only [State.readStep, hc]
  | some c =>
    by_cases hn : readCount s p l c = 0
    · refine .inl ?_
      simp only [State.readStep, hc]
      exact congrArg Prod.fst (if_pos hn)
    · have few : readCount s p l c ≤ s.inAllow p c (s.hop p l).mode - (s.hop p l).read :=
        (Nat.min_le_left _ _).trans (Nat.min_le_right _ _)
      have all := inAllow_le s p c (s.hop p l).mode
      refine .inr ⟨c, _, rfl, hn, by omega, fun e => hn ?_, readStep_held s p l hc hn⟩
      rw [e] at few
      exact Nat.le_zero.1 (few.trans (by simp [State.inAllow]))

/-- What the reading of flits changes on the Loop: the hop before the node, and its input. -/
theorem readInto_offLoop (p l : Nat) (c : Consist) (n : Nat) :
    OffLoop ((s.modHop (prevNode s.flash.retired p l) l (fun h => h.readOut n)).modHop p l (fun h => { h with read := h.read + n }))
      (readInto s p l c n) := by
  unfold readInto
  dsimp only
  split
  · exact consume_offLoop _ _ _ _ _ _ _
  · exact bumpNode_offLoop _ _ _ _
  · exact .refl _

theorem readInto_moves (p : Nat) {c : Consist} {n : Nat} (hc : (s.hop p l).held = some c) (hn : n ≠ 0)
    (hr : (s.hop p l).read + n ≤ c.size) (hm : (s.hop p l).mode ≠ .holding) : LineMoves l s (readInto s p l c n) := by
  refine LineMoves.trans ?_ ((readInto_offLoop s p l c n).moves l)
  have freed : LineMoves l s (s.modHop (prevNode s.flash.retired p l) l (fun h => h.readOut n)) := setHop_moves s _ (.free _ n)
  have input : let h := (s.modHop (prevNode s.flash.retired p l) l (fun h => h.readOut n)).hop p l
      h.held = (s.hop p l).held ∧ h.read = (s.hop p l).read ∧ h.mode = (s.hop p l).mode := by
    rw [State.modHop, hop_setHop]
    split
    next e =>
      rw [show prevNode s.flash.retired p l = p by omega]
      exact ⟨rfl, rfl, rfl⟩
    · exact ⟨rfl, rfl, rfl⟩
  obtain ⟨held, read, mode⟩ := input
  exact freed.trans (setHop_moves _ p (.read _ c n (held.trans hc) hn (read ▸ hr) (mode ▸ hm)))

theorem readStep_moves (p : Nat) : LineMoves l s (s.readStep p l).1 := by
  rcases readStep_cases s p l with e | ⟨c, n, hc, hn, hr, hm, e⟩
  · rw [e]
    exact .refl l s
  · have read := readInto_moves s p hc hn hr hm
    rw [e]
    split
    · exact read.trans (putFlits_moves _ p n)
    · exact read

theorem ownStep_moves (p : Nat) : LineMoves l s (s.ownStep p l).1 := by
  unfold State.ownStep
  extract_lets +onlyGivenNames here
  split
  · extract_lets +onlyGivenNames n
    split
    · exact .refl l s
    · exact putFlits_moves s p n
  next hm =>
    split
    next c rest ho =>
      extract_lets +onlyGivenNames sc waits
      split
      · exact .refl l s
      next h =>
        simp only [Bool.or_eq_true, decide_eq_true_eq, not_or] at h
        obtain ⟨⟨⟨station, -⟩, -⟩, -⟩ := h
        exact setHop_moves s p (.own _ c rest _ ho hm (Nat.not_lt.1 station))
    · exact .refl l s

/-- The end of a node's step: its input is done with its Consist or not, and then its output. -/
theorem endStep_moves (p : Nat) : LineMoves l s (s.endStep p l).1 := by
  unfold State.endStep
  extract_lets +onlyGivenNames here
  split
  next v n e =>
    have input : LineMoves l s v := by
      split at e
      next c hc =>
        split at e
        next done =>
          obtain ⟨rfl, -⟩ := Prod.mk.inj e
          simp only [State.inputDone, Bool.and_eq_true, beq_iff_eq] at done
          exact setHop_moves s p (.taken _ c hc done.1)
        · obtain ⟨rfl, -⟩ := Prod.mk.inj e
          exact .refl l s
      · obtain ⟨rfl, -⟩ := Prod.mk.inj e
        exact .refl l s
    extract_lets +onlyGivenNames there
    split
    · split
      next h =>
        simp only [Bool.and_eq_true] at h
        exact (input.trans (setHop_moves v p (.left _ h.2))).trans ((bumpNode_offLoop _ _ _ _).moves l)
      · exact input
    · exact input

theorem noteWait_moves (p : Nat) (b : Bool) : LineMoves l s (s.noteWait p l b) := by
  unfold State.noteWait
  extract_lets +onlyGivenNames h
  split
  · exact .refl l s
  · split
    · exact setHop_moves s p (.wait _ _)
    · split
      · exact (setHop_moves s p (.wait _ _)).trans ((OffLoop.of_logged (bump_logged _ _ _ _)).moves l)
      · exact .refl l s

theorem nodeStep_moves (p : Nat) : LineMoves l s (s.nodeStep p l).1 :=
  (((((arriveStep_moves s p).trans (passStep_moves _ p)).trans (readStep_moves _ p)).trans
    (ownStep_moves _ p)).trans (endStep_moves _ p)).trans (noteWait_moves _ p _)

/-! ### Until nothing moves -/

/-- What every node's step keeps holds once a line has settled. -/
theorem loopSettle_inv {I : State → Prop} (hI : ∀ x p, I x → I (x.nodeStep p l).1) (n : Nat) (work : List Nat) (s : State)
    (hs : I s) : I (s.loopSettle n work l) := by
  induction n generalizing work s with
  | zero => exact hs
  | succ n ih =>
    match work with
    | [] => exact hs
    | p :: work =>
      unfold State.loopSettle
      dsimp only
      split <;> exact ih _ _ (hI s p hs)

theorem pump_inv {I : State → Prop} (hI : ∀ x p, I x → I (x.nodeStep p l).1) {s : State} (p : Nat) (hs : I s) : I (s.pump p l) :=
  loopSettle_inv hI settleFuel [p] s hs

/-- A pump begins with the step of its own node. -/
theorem pump_inv_after {I : State → Prop} (hI : ∀ x p, I x → I (x.nodeStep p l).1) {s : State} (p : Nat)
    (hs : I (s.nodeStep p l).1) : I (s.pump p l) := by
  rw [State.pump, show settleFuel = 999999 + 1 from rfl]
  unfold State.loopSettle
  dsimp only
  split <;> exact loopSettle_inv hI _ _ _ hs

theorem pump_moves (p : Nat) : LineMoves l s (s.pump p l) :=
  pump_inv (I := LineMoves l s) (fun x q h => h.trans (nodeStep_moves x q)) p (.refl l s)

end Sys2Proof.Proofs
end

section
/-! What the Loop does to the Stations: a take writes what the flits bring, and every other step writes departures' notes alone. -/

namespace Sys2Proof.Proofs

open Sys2Proof Sys2Proof.Machine Sys2Proof.Laws

/-- `f` sees nothing of a departure in progress but its name and its word. -/
structure Steady {α : Type} (f : Station → α) : Prop where
  modProg : ∀ st id g, (∀ q : Prog, (g q).id = q.id ∧ (g q).word = q.word) → f (st.modProg id g) = f st

/-- The names and words of the departures in progress. -/
def names (st : Station) : List (DepId × BitVec 256) := st.progs.map (fun q => (q.id, q.word))

variable {α : Type} {f : Station → α} {s t : State}

theorem Blind.steady (hf : Blind f) : Steady f := ⟨fun st _ _ _ => hf.progs st _⟩

theorem names_modProg (st : Station) (id : DepId) (g : Prog → Prog) (hg : ∀ q : Prog, (g q).id = q.id ∧ (g q).word = q.word) :
    names (st.modProg id g) = names st := by
  simp only [names, Station.modProg, List.map_map]
  refine List.map_congr_left fun q _ => ?_
  simp only [Function.comp_apply]
  split
  · rw [(hg q).1, (hg q).2]
  · rfl

/-- What is seen of the store and of the departures' words. -/
def stored (st : Station) : List Host.Cell × List (DepId × BitVec 256) := (st.store, names st)

theorem steady_stored : Steady stored := ⟨fun st id g hg => by simp only [stored, names_modProg st id g hg]; rfl⟩

/-- The word of a departure in progress is known by its name. -/
theorem word_of_names (st : Station) (id : DepId) :
    (st.prog id).map (fun q => q.word) = ((names st).find? (fun q => q.1 == id)).map (fun q => q.2) := by
  simp only [Station.prog, names, List.find?_map, Option.map_map]
  rfl

variable (s)

theorem modProg_steady (hf : Steady f) (k : Nat) (id : DepId) {g : Prog → Prog}
    (hg : ∀ q : Prog, (g q).id = q.id ∧ (g q).word = q.word) : Keeps f s (s.modProg k id g) :=
  .modStation s (fun st => hf.modProg st id g hg)

theorem finish_steady (hf : Steady f) (k : Nat) (id : DepId) (sc : Nat) : Keeps f s (s.finish k id sc) :=
  modProg_steady s hf k id fun _ => ⟨rfl, rfl⟩

theorem stall_steady (hf : Steady f) (k : Nat) (id : DepId) (cause n : Nat) : Keeps f s (s.stall k id cause n) := by
  unfold State.stall
  split
  · exact .refl s
  · exact modProg_steady s hf k id fun _ => ⟨rfl, rfl⟩

theorem launched_steady (hf : Steady f) (p : Nat) (c : Consist) (start : Nat) : Keeps f s (s.launched p c start) := by
  unfold State.launched
  split
  · exact .refl s
  · extract_lets +onlyGivenNames k
    split
    · exact .refl s
    · extract_lets +onlyGivenNames sc
      split
      · refine ((modProg_steady s hf _ _ ?_).trans (stall_steady _ hf _ _ _ _)).trans (.of_eq rfl rfl)
        exact fun _ => ⟨rfl, rfl⟩
      · split
        · exact (finish_steady s hf _ _ _).trans (stall_steady _ hf _ _ _ _)
        · exact .refl s

/-- Launching tells the departure whose own Consist has left, and nobody else. -/
theorem putFlits_stations (p l n : Nat) :
    Keeps f s (s.putFlits p l n) ∨
    ∃ c v, (s.hop p l).moving = some c ∧ c.dep ≠ none ∧ Keeps f s v ∧
      s.putFlits p l n = v.launched p c (s.hop p l).startSc := by
  unfold State.putFlits
  extract_lets +onlyGivenNames h h' v w
  have counted : Keeps f v w := by
    unfold w
    split
    · exact bump_keeps v _ _ _
    · exact .refl v
  have sent : Keeps f s w := ((setHop_keeps s _ _ _).trans (bumpNode_keeps _ _ _ _)).trans counted
  split
  next c hc =>
    split
    · by_cases hd : c.dep = none
      · refine .inl (sent.trans ?_)
        unfold State.launched
        rw [hd]
        exact .refl w
      · exact .inr ⟨c, w, hc, hd, sent, rfl⟩
    · exact .inl sent
  · exact .inl sent

/-- A hop on which no departure waits for its own Consist to leave. -/
def Silent (h : Hop) : Prop := h.own = [] ∧ ∀ c, h.moving = some c → c.dep = none

theorem silent_step (q : Nat) (a b : Hop) (h : HopStep q a b) (ha : Silent a) : Silent b := by
  obtain ⟨own, moving⟩ := ha
  cases h with
  | arrive n =>
    unfold Hop.arriveFlits
    split <;> exact ⟨own, moving⟩
  | pass c sc => exact ⟨own, fun x hx => by cases hx; rfl⟩
  | own c rest sc ho => exact absurd (own.symm.trans ho) (List.cons_ne_nil c rest).symm
  | left => exact ⟨own, fun x hx => nomatch hx⟩
  | free | read | put | taken | wait => exact ⟨own, moving⟩

theorem putFlits_quiet (p l n : Nat) (hf : Steady f ∨ Silent (s.hop p l)) : Keeps f s (s.putFlits p l n) := by
  rcases putFlits_stations (f := f) s p l n with h | ⟨c, v, hc, hd, hv, e⟩
  · exact h
  · rcases hf with hf | ⟨-, silent⟩
    · rw [e]
      exact hv.trans (launched_steady v hf p c _)
    · exact absurd (silent c hc) hd

/-! ### The step of a node -/

/-- What of a hop belongs to its node's input: the Consist there, what is done with it, and its flits read out. -/
def input (h : Hop) : Option Consist × InMode × Nat := (h.held, h.mode, h.read)

theorem arriveStep_input (p l : Nat) : input ((s.arriveStep p l).1.hop p l) = input (s.hop p l) := by
  unfold State.arriveStep
  extract_lets +onlyGivenNames q up here
  split
  · rfl
  · extract_lets +onlyGivenNames n
    split
    · rfl
    · rw [hop_setHop]
      split
      next e =>
        rw [show p = q by omega]
        unfold Hop.arriveFlits
        split <;> rfl
      · rfl

theorem passStep_input (p l : Nat) : input ((s.passStep p l).1.hop p l) = input (s.hop p l) := by
  unfold State.passStep
  dsimp only
  split
  · rfl
  · split
    · rw [hop_setHop_self]
      rfl
    · rfl

theorem ownStep_quiet (p l : Nat) (hf : Steady f ∨ Silent (s.hop p l)) : Keeps f s (s.ownStep p l).1 := by
  unfold State.ownStep
  extract_lets +onlyGivenNames here
  split
  · extract_lets +onlyGivenNames n
    split
    · exact .refl s
    · exact putFlits_quiet s p l n hf
  · split
    · extract_lets +onlyGivenNames sc waits
      split
      · exact .refl s
      · exact setHop_keeps s _ _ _
    · exact .refl s

/-- What a node's step does to the Stations: nothing that a steady `f` sees, nor any other where the hop is silent, but for what the
flits bring that it reads out to a departure. -/
theorem nodeStep_stations (p l : Nat) (hf : Steady f ∨ Silent (s.hop p l)) :
    Keeps f s (s.nodeStep p l).1 ∨
    ∃ c id first n v, (s.hop p l).held = some c ∧ (s.hop p l).mode = .given id first ∧ (s.hop p l).read + n ≤ c.size ∧
      v.flash = s.flash ∧ Keeps f s v ∧ Keeps f (v.consume p l c id (s.hop p l).read n) (s.nodeStep p l).1 := by
  let a := (s.arriveStep p l).1
  let b := (a.passStep p l).1
  have before : Keeps f s b := (arriveStep_keeps s p l).trans (passStep_keeps a p l)
  have moved : LineMoves l s b := (arriveStep_moves s p).trans (passStep_moves a p)
  have same : input (b.hop p l) = input (s.hop p l) := (passStep_input a p l).trans (arriveStep_input s p l)
  have quiet {x : State} (h : LineMoves l s x) : Steady f ∨ Silent (x.hop p l) := hf.imp_right (h.inv p (silent_step p))
  have rest : Keeps f (b.readStep p l).1 (s.nodeStep p l).1 :=
    ((ownStep_quiet (b.readStep p l).1 p l (quiet (moved.trans (readStep_moves b p)))).trans (endStep_keeps _ p l)).trans
      (noteWait_keeps _ p l _)
  simp only [input, Prod.mk.injEq] at same
  obtain ⟨held, mode, read⟩ := same
  rcases readStep_cases b p l with e | ⟨c, n, hc, hn, hr, hm, e⟩
  · refine .inl (before.trans (Keeps.trans ?_ rest))
    rw [e]
    exact .refl b
  · have forwarded : Keeps f (readInto b p l c n) (b.readStep p l).1 := by
      rw [e]
      split
      · exact putFlits_quiet _ p l n (quiet (moved.trans (readInto_moves b p hc hn hr hm)))
      · exact .refl _
    have read' : Keeps f b ((b.modHop (prevNode b.flash.retired p l) l (fun h => h.readOut n)).modHop p l
        (fun h => { h with read := h.read + n })) := .of_eq rfl rfl
    unfold readInto at forwarded
    dsimp only at forwarded
    split at forwarded
    next id first given =>
      refine .inr ⟨c, id, first, n, _, held ▸ hc, mode ▸ given, read ▸ hr, ?_, before.trans read', ?_⟩
      · exact moved.flash
      · rw [← read]
        exact forwarded.trans rest
    · exact .inl (((before.trans (read'.trans (bumpNode_keeps _ _ _ _))).trans forwarded).trans rest)
    · exact .inl (((before.trans read').trans forwarded).trans rest)

/-- With nothing given to a departure at its input, a node's step leaves the stores as they are. -/
theorem nodeStep_store (p l : Nat) (h : ∀ id first, (s.hop p l).mode ≠ .given id first) :
    Keeps Station.store s (s.nodeStep p l).1 := by
  rcases nodeStep_stations s p l (.inl blind_store.steady) with k | ⟨_, id, first, _, _, _, hm, _⟩
  · exact k
  · exact absurd hm (h id first)

/-! ### What a departure takes -/

/-- Every Station but Station k is the same in `s` and `t`. -/
def ElsewhereSame (k : Nat) (s t : State) : Prop := ∀ n, n ≠ k → t.station n = s.station n

variable {k : Nat}

theorem ElsewhereSame.trans {s t u : State} (h : ElsewhereSame k s t) (i : ElsewhereSame k t u) : ElsewhereSame k s u :=
  fun n hn => (i n hn).trans (h n hn)

theorem setStation_elsewhere (v : Station) : ElsewhereSame k s (s.setStation k v) := fun n hn => by
  rw [station_setStation, if_neg hn]

theorem stall_elsewhere (id : DepId) (cause n : Nat) : ElsewhereSame k s (s.stall k id cause n) := by
  unfold State.stall
  split
  · exact fun _ _ => rfl
  · exact setStation_elsewhere s _

/-- Only the Station of the node takes anything from its input. -/
theorem consume_elsewhere (p l : Nat) (c : Consist) (id : DepId) (r n : Nat) (i : Nat) (h : s.logical p ≠ some i) :
    (s.consume p l c id r n).station i = s.station i := by
  unfold State.consume
  split
  · rfl
  next k hk =>
    have other : i ≠ k := fun e => h (e ▸ hk)
    have bad (x : State) (b : Bool) : ElsewhereSame k x (x.runBad b) := fun n _ => congrArg (fun y => tget Station.init y n)
      (by simp)
    extract_lets +onlyGivenNames st
    split
    · rfl
    · extract_lets +onlyGivenNames op began
      split
      · extract_lets +onlyGivenNames a from' bytes v done
        split
        · exact ((((setStation_elsewhere s _).trans (setStation_elsewhere v _)).trans (setStation_elsewhere _ _)).trans
            (stall_elsewhere _ _ _ _)) i other
        · exact setStation_elsewhere s _ i other
      · split
        · exact (((setStation_elsewhere s _).trans (stall_elsewhere _ _ _ _)).trans (bad _ _)) i other
        · rfl

/-- The Station after flits `r` to `r + n - 1` of a Consist have been written by the store take `pr` (R96, R205). -/
def takenInto (st : Station) (pr : Prog) (c : Consist) (r n : Nat) : Station :=
  let a := (takeOps pr.word).addr
  let from' := 256 * (max r 1 - 1)
  st.storeWrite (64 * a + from') (sliceBytes c.data from' (256 * (r + n - 1) - from')) (fun g => c.poison.contains (g - a))

/-- A store take writes what its flits bring, and with the last of them it is done. -/
theorem consume_take (p l : Nat) (c : Consist) (id : DepId) (r n : Nat) {pr : Prog} (hl : s.logical p = some k)
    (hp : (s.station k).prog id = some pr) (ho : Dep.opcode pr.word = opTake) :
    s.consume p l c id r n =
      let v := s.setStation k (takenInto (s.station k) pr c r n)
      if r + n = c.size then
        let done := max ((s.hop p l).heldSince + c.flits) (v.cycle p)
        ((v.modStation k (fun st => st.dropTake id)).finish k id done).stall k id 4 (done - (pr.issueSc + c.flits))
      else v := by
  simp only [State.consume, hl, hp, ho]
  rfl

/-- A slice that ends within the list is its part. -/
theorem sliceBytes_within (d : List Byte) (i n : Nat) (h : i + n ≤ d.length) : sliceBytes d i n = (d.drop i).take n := by
  simp only [sliceBytes, List.length_take, List.length_drop]
  rw [show n - min n (d.length - i) = 0 by omega, List.replicate_zero, List.append_nil]

/-- The bytes of a store take are those of its Consist, at their place (R205). -/
theorem takenInto_store (st : Station) (pr : Prog) (c : Consist) (r n x : Nat) (h : 256 * (r + n - 1) ≤ c.data.length) :
    memRead (takenInto st pr c r n).store x =
      if 64 * (takeOps pr.word).addr + 256 * (max r 1 - 1) ≤ x ∧ x < 64 * (takeOps pr.word).addr + 256 * (r + n - 1) then
        c.data.getD (x - 64 * (takeOps pr.word).addr) 0
      else memRead st.store x := by
  obtain ⟨i, hi⟩ : ∃ i, i = 256 * (max r 1 - 1) := ⟨_, rfl⟩
  obtain ⟨e, he⟩ : ∃ e, e = 256 * (r + n - 1) := ⟨_, rfl⟩
  have order : i ≤ e := by omega
  simp only [takenInto, Station.storeWrite, ← hi, ← he] at h ⊢
  rw [sliceBytes_within c.data i (e - i) (by omega), memRead_writeBytes]
  have len : ((c.data.drop i).take (e - i)).length = e - i := by
    rw [List.length_take, List.length_drop]
    omega
  rw [len, show 64 * (takeOps pr.word).addr + i + (e - i) = 64 * (takeOps pr.word).addr + e by omega]
  split
  next within =>
    rw [List.getD_eq_getElem?_getD, List.getElem?_take_of_lt (by omega), List.getElem?_drop, ← List.getD_eq_getElem?_getD,
      show i + (x - (64 * (takeOps pr.word).addr + i)) = x - 64 * (takeOps pr.word).addr by omega]
    rfl
  · rfl

end Sys2Proof.Proofs
end

section
/-! Consists inserted, arriving and replayed (O45): each event changes the books of its hop, and what then moves along the line keeps
what the clause says of the node. -/

namespace Sys2Proof.Proofs

open Sys2Proof Sys2Proof.Machine Sys2Proof.Laws

variable (s : State)

/-! ### A header at a node's input -/

/-- Where nothing is held for a take, nothing meets one. -/
theorem matchHeld_idle (p l : Nat)
    (h : (s.hop p l).held = none ∨ (s.hop p l).mode ≠ .holding ∨ ∀ k, s.logical p = some k → (s.station k).takes = []) :
    s.matchHeld p l = s := by
  unfold State.matchHeld
  dsimp only
  split
  next k c hk hc =>
    rcases h with h | h | h
    · exact nomatch hc.symm.trans h
    · split
      next hm _ => exact absurd hm h
      · rfl
    · rw [Station.takeFor, h k hk]
      split
      next hn => cases hn
      · rfl
  · rfl

/-- No node of line `l` gives a Consist to a departure. -/
def Ungiven (l : Nat) (s : State) : Prop := ∀ n id m, (s.hop n l).mode ≠ .given id m

theorem ungiven_step (q : Nat) (a b : Hop) (h : HopStep q a b) (ha : ∀ id m, a.mode ≠ .given id m) :
    ∀ id m, b.mode ≠ .given id m := by
  cases h with
  | arrive n =>
    unfold Hop.arriveFlits
    split <;> exact ha
  | taken => exact fun _ _ e => nomatch e
  | pass | free | read | put | own | left | wait => exact ha

/-- While no Consist is given to a departure, what moves on a line writes no store. -/
theorem pump_sameStores (p l : Nat) (h : Ungiven l s) : Keeps Station.store s (s.pump p l) :=
  (pump_inv (I := fun x => Ungiven l x ∧ Keeps Station.store s x) (fun x q ⟨given, kept⟩ =>
    ⟨fun n => (nodeStep_moves x q).inv n (ungiven_step n) (given n), kept.trans (nodeStep_store x q l (given q))⟩) p
    ⟨h, .refl s⟩).2

/-- The input of a node that holds `c` for a take: as long as nothing takes it, it stays. -/
def Waits (c : Consist) (h : Hop) : Prop := h.held = some c ∧ h.mode = .holding ∧ h.read = 0

theorem waits_step {c : Consist} (hc : c.size ≠ 0) (q : Nat) (a b : Hop) (h : HopStep q a b) (ha : Waits c a) : Waits c b := by
  obtain ⟨held, mode, read⟩ := ha
  cases h with
  | arrive n =>
    unfold Hop.arriveFlits
    split <;> exact ⟨held, mode, read⟩
  | read _ _ _ _ _ hm => exact absurd mode hm
  | taken c' hc' hr =>
    cases hc'.symm.trans held
    exact absurd (hr.symm.trans read) hc
  | pass | free | put | own | left | wait => exact ⟨held, mode, read⟩

/-- The output of a node by which `c` goes on, with its header on the hop. -/
def GoesOn (c : Consist) (h : Hop) : Prop := h.moving = some c ∧ h.passes = true ∧ h.arrived = false ∧ 1 ≤ h.sent

theorem goesOn_step {c : Consist} (q : Nat) (a b : Hop) (h : HopStep q a b) (ha : GoesOn c a) : GoesOn c b := by
  obtain ⟨moving, passes, arrived, sent⟩ := ha
  cases h with
  | arrive n =>
    unfold Hop.arriveFlits
    split <;> exact ⟨moving, passes, arrived, sent⟩
  | pass c' sc hc' goes read isOpen => simp [Hop.open, moving] at isOpen
  | put n => exact ⟨moving, passes, arrived, sent.trans (Nat.le_add_right _ n)⟩
  | own _ _ _ _ hm => exact nomatch moving.symm.trans hm
  | left ha => exact nomatch arrived.symm.trans ha
  | free | read | taken | wait => exact ⟨moving, passes, arrived, sent⟩

/-- A node whose input goes no further, and whose output is free. -/
def Ends (h : Hop) : Prop := h.moving = none ∧ (h.held = none ∨ h.mode = .dropping ∨ h.mode = .ending)

theorem ends_step {q : Nat} (hq : q < 136) (a b : Hop) (h : HopStep q a b) (ha : Ends a) : Ends b := by
  obtain ⟨moving, input⟩ := ha
  cases h with
  | arrive n =>
    unfold Hop.arriveFlits
    split <;> exact ⟨moving, input⟩
  | pass c sc hc goes =>
    rcases input with e | e | e
    · exact nomatch hc.symm.trans e
    · simp [e, Consist.goesOn] at goes
    · simp [e, Consist.goesOn] at goes
  | own _ _ _ _ _ hp => omega
  | taken => exact ⟨moving, .inl rfl⟩
  | left => exact ⟨rfl, input⟩
  | free | read | put | wait => exact ⟨moving, input⟩

/-! ### A Consist goes on -/

/-- A hop by which a Consist has begun to go on, none of whose flits has been read out yet. -/
structure Begun (x y : Consist) (h : Hop) : Prop where
  held    : h.held = some x
  mode    : h.mode = .passing
  read    : h.read = 0
  moving  : h.moving = some y
  passes  : h.passes = true
  sent    : h.sent = 0
  arrived : h.arrived = false
  ready   : h.blocked = false
  credits : 0 < h.credits + h.retCred

/-- With a flit at the input, a Consist that has begun to go on launches it (R96). -/
theorem readStep_goesOn (p l : Nat) {x y : Consist} (h : Begun x y (s.hop p l)) (hx : x.size ≠ 0)
    (hq : prevNode s.flash.retired p l ≠ p) (ho : (s.hop (prevNode s.flash.retired p l) l).occupied ≠ 0) :
    GoesOn y ((s.readStep p l).1.hop p l) := by
  obtain ⟨held, mode, read, moving, passes, sent, arrived, ready, credits⟩ := h
  have goes : x.goesOn (s.hop p l).mode = true := by rw [mode]; rfl
  have some : readCount s p l x ≠ 0 := by
    have all : s.inAllow p x (s.hop p l).mode = x.size := by rw [mode]; rfl
    simp only [readCount, goes, passes, moving, sent, read, ready, all]
    simp only [Bool.not_true, Bool.false_eq_true, if_false, Option.isSome_some, Bool.not_false, Bool.and_self, beq_self_eq_true,
      if_true, Nat.sub_zero]
    omega
  have e := readStep_held s p l held some
  rw [if_pos goes] at e
  generalize readCount s p l x = n at some e
  have input : (readInto s p l x n).hop p l = { s.hop p l with read := (s.hop p l).read + n } := by
    rw [(readInto_offLoop s p l x n).hop, State.modHop, hop_setHop_self, State.modHop, hop_setHop, if_neg (by omega)]
  rw [e, (putFlits_offLoop _ p l n).hop, hop_setHop_self, input]
  exact ⟨moving, passes, arrived, (Nat.one_le_iff_ne_zero.2 some).trans (Nat.le_add_left n _)⟩

theorem arriveStep_kept (p l : Nat) (hq : prevNode s.flash.retired p l ≠ p) :
    (s.arriveStep p l).1.hop p l = s.hop p l ∧ (s.arriveStep p l).1.flash = s.flash ∧
    (s.hop (prevNode s.flash.retired p l) l).occupied ≤ ((s.arriveStep p l).1.hop (prevNode s.flash.retired p l) l).occupied := by
  unfold State.arriveStep
  extract_lets +onlyGivenNames q up here
  split
  · exact ⟨rfl, rfl, le_rfl⟩
  · extract_lets +onlyGivenNames n
    split
    · exact ⟨rfl, rfl, le_rfl⟩
    next hn =>
      refine ⟨?_, rfl, ?_⟩
      · rw [hop_setHop, if_neg (by omega)]
      · rw [hop_setHop_self, Hop.arriveFlits, if_neg hn]
        exact Nat.le_add_right _ n

/-- A Consist whose way on is open goes on with its first flit (R94 to R96). -/
theorem nodeStep_goesOn (p l : Nat) {x : Consist} (held : (s.hop p l).held = some x) (mode : (s.hop p l).mode = .passing)
    (read : (s.hop p l).read = 0) (isOpen : (s.hop p l).open = true) (hx : x.size ≠ 0) (hq : prevNode s.flash.retired p l ≠ p)
    (ho : (s.hop (prevNode s.flash.retired p l) l).occupied ≠ 0) :
    GoesOn { x with dep := none } ((s.nodeStep p l).1.hop p l) := by
  let a := (s.arriveStep p l).1
  let b := (a.passStep p l).1
  obtain ⟨same, flash, more⟩ := arriveStep_kept s p l hq
  have begins : b = a.setHop p l ((a.hop p l).begin { x with dep := none } true (a.cycle p)) := by
    have goes : x.goesOn (a.hop p l).mode = true := by rw [same, mode]; rfl
    unfold b State.passStep
    simp only [show (a.hop p l).held = some x from same ▸ held, goes, show (a.hop p l).read = 0 from same ▸ read,
      show (a.hop p l).open = true from same ▸ isOpen]
    rfl
  have begun : Begun x { x with dep := none } (b.hop p l) := by
    simp only [Hop.open, Bool.and_eq_true, Bool.not_eq_true', decide_eq_true_eq] at isOpen
    obtain ⟨⟨ready, -⟩, credits⟩ := isOpen
    rw [begins, hop_setHop_self, same]
    exact ⟨held, mode, read, rfl, rfl, rfl, rfl, ready, credits⟩
  have path : prevNode b.flash.retired p l = prevNode s.flash.retired p l := by
    rw [begins]
    exact congrArg (fun f => prevNode f.retired p l) flash
  have left : GoesOn { x with dep := none } ((b.readStep p l).1.hop p l) := by
    refine readStep_goesOn b p l begun hx (path ▸ hq) ?_
    rw [path, begins, hop_setHop, if_neg (by omega)]
    exact Nat.ne_of_gt ((Nat.pos_of_ne_zero ho).trans_le more)
  have rest : LineMoves l (b.readStep p l).1 (s.nodeStep p l).1 :=
    ((ownStep_moves _ p).trans (endStep_moves _ p)).trans (noteWait_moves _ p _)
  exact rest.inv p (goesOn_step p) left

/-! ### Arrival -/

/-- Is node `p` a Station that carries a number? -/
def numbered (s : State) (p : Nat) : Bool := decide (p < 136) && (s.logical p).isSome

/-- The Consist as node `p` reads its header: a Station counts itself (R95). -/
def counted (s : State) (p : Nat) (c : Consist) : Consist := if numbered s p then { c with dist := c.dist + 1 } else c

/-- What the node does with it (R95, R96, R105). -/
def headerMode (s : State) (p : Nat) (c : Consist) : InMode :=
  let x := counted s p c
  if p < 136 ∧ s.discards c.sect = true then .dropping
  else if (numbered s p && x.usedAt x.dist) = true then .holding
  else if (numbered s p && decide (x.hops ≤ x.dist)) = true then .ending
  else .passing

theorem counted_eq (p : Nat) (c : Consist) : counted s p c =
    { c with dist := if numbered s p = true then c.dist + 1 else c.dist } := by
  unfold counted
  split <;> rfl

/-- The books of the two hops of a node when a header is read at its input (R96, R100). -/
theorem headerArrives_hops (p l flits : Nat) (c : Consist) (hq : prevNode s.flash.retired p l ≠ p) :
    let q := prevNode s.flash.retired p l
    let v := s.headerArrives p l flits c
    (∃ due sc lt, v.hop p l =
      { s.hop p l with held := some (counted s p c), mode := headerMode s p c, read := 0, due := due, heldSince := sc, heldLt := lt }) ∧
    (v.hop q l).occupied ≠ 0 ∧
    (∀ n, n ≠ p → (v.hop n l).mode = (s.hop n l).mode) := by
  obtain ⟨v, hv⟩ : ∃ v, v = s.headerArrives p l flits c := ⟨_, rfl⟩
  have shape : v = (s.modHop (prevNode s.flash.retired p l) l (fun h => { h.arriveFlits 1 with arrived := true })).modHop p l
      (fun h => { h with held := some (counted s p c), mode := headerMode s p c, read := 0, due := max 1 flits,
                         heldSince := s.cycle p, heldLt := s.time.lt }) := by
    rw [hv]
    simp only [headerMode, counted_eq]
    rfl
  simp only [← hv]
  rw [shape]
  refine ⟨⟨max 1 flits, s.cycle p, s.time.lt, ?_⟩, ?_, fun n hn => ?_⟩
  · rw [State.modHop, hop_setHop_self, State.modHop, hop_setHop, if_neg (by omega)]
  · rw [State.modHop, hop_setHop, if_neg (by omega), State.modHop, hop_setHop_self]
    simp [Hop.arriveFlits]
  · rw [State.modHop, hop_setHop, if_neg (by omega), State.modHop, hop_setHop]
    split
    next e => rw [show n = prevNode s.flash.retired p l by omega]; rfl
    · rfl

/-- `v` is `s` after the header of `c` has been read at the input of node `p`, on a line that gives nothing to a departure. -/
structure Arrived (s : State) (p l : Nat) (c : Consist) (v : State) : Prop where
  flash    : v.flash = s.flash
  stations : v.stations = s.stations
  hop      : ∃ due sc lt, v.hop p l =
    { s.hop p l with held := some (counted s p c), mode := headerMode s p c, read := 0, due := due, heldSince := sc, heldLt := lt }
  ready    : (v.hop (prevNode s.flash.retired p l) l).occupied ≠ 0
  ungiven  : Ungiven l v

section
variable {s : State} {p : Nat} {c : Consist}

theorem headerMode_holding (hn : numbered s p = true) (hd : s.discards c.sect = false)
    (hu : (counted s p c).usedAt (counted s p c).dist = true) : headerMode s p c = .holding := by
  rw [headerMode, if_neg fun h => Bool.false_ne_true (hd.symm.trans h.2), if_pos (Bool.and_eq_true_iff.2 ⟨hn, hu⟩)]

theorem headerMode_passing (hd : p < 136 → s.discards c.sect = false)
    (hu : numbered s p = true →
      (counted s p c).usedAt (counted s p c).dist = false ∧ (counted s p c).dist < (counted s p c).hops) :
    headerMode s p c = .passing := by
  rw [headerMode, if_neg fun ⟨h, h'⟩ => Bool.false_ne_true ((hd h).symm.trans h'), if_neg, if_neg]
  · intro h
    obtain ⟨hn, he⟩ := Bool.and_eq_true_iff.1 h
    exact absurd (of_decide_eq_true he) (Nat.not_le.2 (hu hn).2)
  · intro h
    obtain ⟨hn, he⟩ := Bool.and_eq_true_iff.1 h
    exact Bool.false_ne_true ((hu hn).1.symm.trans he)

theorem headerMode_ends (hn : numbered s p = true)
    (hd : s.discards c.sect = true ∨
      (counted s p c).usedAt (counted s p c).dist = false ∧ (counted s p c).hops ≤ (counted s p c).dist) :
    headerMode s p c = .dropping ∨ headerMode s p c = .ending := by
  rw [headerMode]
  split
  · exact .inl rfl
  next h =>
    obtain ⟨unused, near⟩ := hd.resolve_left fun hd => h ⟨of_decide_eq_true (Bool.and_eq_true_iff.1 hn).1, hd⟩
    rw [if_neg fun h => Bool.false_ne_true (unused.symm.trans (Bool.and_eq_true_iff.1 h).2),
      if_pos (Bool.and_eq_true_iff.2 ⟨hn, decide_eq_true near⟩)]
    exact .inr rfl

end

theorem headerMode_not_given (p : Nat) (c : Consist) (id : DepId) (m : Nat) : headerMode s p c ≠ .given id m := by
  simp only [headerMode]
  repeat' split
  all_goals exact fun e => nomatch e

theorem headerArrives_arrived (p l flits now : Nat) (c : Consist) (hq : prevNode s.flash.retired p l ≠ p) (hg : Ungiven l s) :
    Arrived s p l c ((s.advance now).headerArrives p l flits c) := by
  have flash : (s.advance now).flash = s.flash := by simp
  have hop (n m : Nat) : (s.advance now).hop n m = s.hop n m := by simp [State.hop]
  have mode : headerMode (s.advance now) p c = headerMode s p c := by
    simp [headerMode, counted, numbered, State.logical, State.discards, State.runSlot, State.slot]
  have count : counted (s.advance now) p c = counted s p c := by simp [counted, numbered, State.logical]
  obtain ⟨⟨due, sc, lt, input⟩, ready, others⟩ := headerArrives_hops (s.advance now) p l flits c (flash.symm ▸ hq)
  rw [hop, mode, count] at input
  rw [flash] at ready
  refine ⟨flash, (show (s.advance now).stations = s.stations by simp), ⟨due, sc, lt, input⟩, ready, fun n id m => ?_⟩
  by_cases hn : n = p
  · rw [hn, input]
    exact headerMode_not_given s p c id m
  · rw [others n hn, hop]
    exact hg n id m

section
variable {s : State} {p l : Nat} {c : Consist} {v : State} (h : Arrived s p l c v)
include h

theorem Arrived.sameStores : s.sameStores (v.pump p l) := sameStores_of_keeps h.stations (pump_sameStores v p l h.ungiven)

/-- A Consist that the Station uses is held while no take names it (R96). -/
theorem Arrived.waits (hm : headerMode s p c = .holding) (hs : c.size ≠ 0)
    (ht : ∀ k, s.logical p = some k → (s.station k).takes = []) :
    v.matchHeld p l = v ∧ Waits (counted s p c) ((v.pump p l).hop p l) := by
  obtain ⟨_, _, _, input⟩ := h.hop
  refine ⟨matchHeld_idle v p l (.inr (.inr fun k hk => ?_)), ?_⟩
  · rw [State.station, h.stations]
    exact ht k (by rwa [State.logical, h.flash] at hk)
  · refine (pump_moves v p).inv p (waits_step ?_ p) ?_
    · rwa [counted_eq]
    · rw [input]
      exact ⟨rfl, hm, rfl⟩

/-- One that passes goes on by the node's output, where that is free (R95, R96). -/
theorem Arrived.goesOn (hm : headerMode s p c = .passing) (hs : c.size ≠ 0) (hq : prevNode s.flash.retired p l ≠ p)
    (ho : (s.hop p l).open = true) :
    v.matchHeld p l = v ∧ GoesOn { counted s p c with dep := none } ((v.pump p l).hop p l) := by
  obtain ⟨_, _, _, input⟩ := h.hop
  have mode : (v.hop p l).mode = .passing := by rw [input]; exact hm
  refine ⟨matchHeld_idle v p l (.inr (.inl fun e => nomatch mode.symm.trans e)), ?_⟩
  refine pump_inv_after (I := fun x => GoesOn _ (x.hop p l)) (fun x q hx => (nodeStep_moves x q).inv p (goesOn_step p) hx) p ?_
  refine nodeStep_goesOn v p l ?_ mode ?_ ?_ ?_ (h.flash ▸ hq) (h.flash ▸ h.ready)
  · rw [input]
  · rw [input]
  · rw [input]
    exact ho
  · rwa [counted_eq]

/-- One whose path ends here, or whose section is cancelled, goes no further (R95, R105). -/
theorem Arrived.ends (hp : p < 136) (hm : headerMode s p c = .dropping ∨ headerMode s p c = .ending)
    (ho : (s.hop p l).moving = none) : v.matchHeld p l = v ∧ ((v.pump p l).hop p l).moving = none := by
  obtain ⟨_, _, _, input⟩ := h.hop
  have mode : (v.hop p l).mode = headerMode s p c := by rw [input]
  refine ⟨matchHeld_idle v p l (.inr (.inl fun e => ?_)), ?_⟩
  · rcases hm with hm | hm <;> exact nomatch (mode.trans hm).symm.trans e
  · refine ((pump_moves v p).inv p (ends_step hp) ?_).1
    rw [input]
    exact ⟨ho, .inr hm⟩

end

theorem exec_consistArrive (p : Fin 144) (l : Fin 2) (flits now : Nat) {c : Consist} (hp : s.power.compStopped = false)
    (hm : (s.hop (prevNode s.flash.retired p l) l).moving = some c) (ha : (s.hop (prevNode s.flash.retired p l) l).arrived = false)
    (hb : (s.hop (prevNode s.flash.retired p l) l).blocked = false) (hi : (s.hop (prevNode s.flash.retired p l) l).inFlight ≠ 0)
    (hh : (s.hop p l).held = none) (hr : p.val ∉ s.flash.retired) :
    exec (.consistArrive p l ⟨flits, now⟩) s = .next ((((s.advance now).headerArrives p l flits c).matchHeld p l).pump p l) := by
  have hop (n m : Nat) : (s.advance now).hop n m = s.hop n m := by simp [State.hop]
  have flash : (s.advance now).flash = s.flash := by simp
  simp only [exec, execConsistArrive, State.clocked, hp, hop, flash, hm, ha, hb, hh]
  rw [if_neg (by decide), if_neg (by simpa using hr), if_neg (by simpa using hi)]

/-- R95, R96, R100, R105: what comes of a Consist whose header arrives. -/
theorem consistArrive_disposes (p : Fin 144) (l : Fin 2) (flits now : Nat) (s : State) (c : Consist) (hp : s.power.compStopped = false) :
    let q := prevNode s.flash.retired p l
    (s.hop q l).moving = some c → (s.hop q l).arrived = false → (s.hop q l).blocked = false → (s.hop q l).inFlight ≠ 0 →
    (s.hop p l).held = none → p.val ∉ s.flash.retired → q ≠ p.val → c.size ≠ 0 → (∀ n id m, (s.hop n l).mode ≠ .given id m) →
    let here := decide (p.val < 136) && (s.logical p).isSome
    let x := if here then { c with dist := c.dist + 1 } else c
    (here = true → s.discards c.sect = false → x.usedAt x.dist = true → (∀ k, s.logical p = some k → (s.station k).takes = []) →
      ∃ u, exec (.consistArrive p l ⟨flits, now⟩) s = .next u ∧ (u.hop p l).held = some x ∧ (u.hop p l).mode = .holding ∧
        s.sameStores u) ∧
    ((p.val < 136 → s.discards c.sect = false) → (here = true → x.usedAt x.dist = false ∧ x.dist < x.hops) →
      (s.hop p l).open = true →
      ∃ u, exec (.consistArrive p l ⟨flits, now⟩) s = .next u ∧ (u.hop p l).moving = some { x with dep := none } ∧
        (u.hop p l).passes = true ∧ 1 ≤ (u.hop p l).sent ∧ s.sameStores u) ∧
    (here = true → (s.discards c.sect = true ∨ x.usedAt x.dist = false ∧ x.hops ≤ x.dist) → (s.hop p l).moving = none →
      ∃ u, exec (.consistArrive p l ⟨flits, now⟩) s = .next u ∧ s.sameStores u ∧ (u.hop p l).moving = none) := by
  intro q hm ha hb hi hh hr hq hs hg here x
  have arrived := headerArrives_arrived s p l flits now c hq hg
  have runs := exec_consistArrive s p l flits now hp hm ha hb hi hh hr
  generalize (s.advance now).headerArrives p l flits c = v at arrived runs
  refine ⟨fun hr hd hu ht => ?_, fun hd hu ho => ?_, fun hr hd ho => ?_⟩
  · obtain ⟨idle, held, holding, -⟩ := arrived.waits (headerMode_holding hr hd hu) hs ht
    rw [idle] at runs
    exact ⟨_, runs, held, holding, arrived.sameStores⟩
  · obtain ⟨idle, moving, passes, -, sent⟩ := arrived.goesOn (headerMode_passing hd hu) hs hq ho
    rw [idle] at runs
    exact ⟨_, runs, moving, passes, sent, arrived.sameStores⟩
  · have station : p.val < 136 := of_decide_eq_true (Bool.and_eq_true_iff.1 hr).1
    obtain ⟨idle, moving⟩ := arrived.ends station (headerMode_ends hr hd) ho
    rw [idle] at runs
    exact ⟨_, runs, arrived.sameStores, moving⟩

/-! ### The other events -/

/-- R90, R94, R99: a Station inserts its own Consist, as far as it has credits. -/
theorem consistInsert_launches (p : Fin 136) (l : Fin 2) (s : State) (c : Consist) (rest : List Consist)
    (hp : s.power.compStopped = false) (ho : (s.hop p l).own = c :: rest) (hopen : (s.hop p l).open = true)
    (hw : ∀ x, (s.hop p l).held = some x → x.goesOn (s.hop p l).mode = true → (s.hop p l).read ≠ 0) :
    let n := min c.size ((s.hop p l).credits + (s.hop p l).retCred)
    ∃ u, exec (.consistInsert p l) s = .next u ∧ (u.hop p l).own = rest ∧ (u.hop p l).moving = some c ∧ (u.hop p l).sent = n ∧
      (u.hop p l).credits = (s.hop p l).credits + (s.hop p l).retCred - n ∧ (u.hop p l).retCred = 0 ∧
      (u.hop p l).inFlight = (s.hop p l).inFlight + n ∧ (u.hop p l).seq = ((s.hop p l).seq + n) % 32 ∧ s.sameStores u ∧
      ∀ i m, 2 * i + m ≠ 2 * p.val + l.val → u.hop i m = s.hop i m := by
  intro n
  obtain ⟨h, hh⟩ : ∃ h, h = { s.hop p l with own := rest }.begin c false (s.cycle p) := ⟨_, rfl⟩
  have runs : exec (.consistInsert p l) s = .next ((s.setHop p l h).putFlits p l n) := by
    simp only [exec, execConsistInsert, State.clocked, hp, ho, hopen]
    rw [if_neg (by decide), if_neg, hh]
    split
    next x hx => simpa using fun goes => hw x hx goes
    · decide
  have moves := putFlits_offLoop (s.setHop p l h) p l n
  have hop : ((s.setHop p l h).putFlits p l n).hop p l = h.collect.launchFlits n := by
    rw [moves.hop, hop_setHop_self, hop_setHop_self]
  refine ⟨_, runs, ?_⟩
  rw [hop]
  refine ⟨hh ▸ rfl, hh ▸ rfl, hh ▸ Nat.zero_add n, hh ▸ rfl, hh ▸ rfl, hh ▸ rfl, hh ▸ rfl, ?_, fun i m hn => ?_⟩
  · exact sameStores_of_keeps (t := s.setHop p l h) rfl (putFlits_keeps _ blind_store.progs p l n)
  · rw [moves.hop, hop_setHop, if_neg hn, hop_setHop, if_neg hn]

/-- R92, R100, R101: a flit with bad parity is discarded with all that follow it on its hop, and a replay is asked for. -/
theorem parityError_discards (p : Fin 144) (l : Fin 2) (flips : List (Fin 2092)) (s : State) (c : Consist) (i n : Nat) (rest : List Nat)
    (hp : s.power.compStopped = false) (hf : s.oldestFlit p l = some (c, i)) (hr : (s.hop p l).replay = n :: rest)
    (hb : (s.hop p l).blocked = false) (hi : (s.hop p l).inFlight ≠ 0)
    (hbad : parityBad (c.arrives i n flips).1 (c.arrives i n flips).2 = true) :
    ∃ u, exec (.loopFlitParityError p ⟨l, flips⟩) s = .next u ∧
      u = { s with hops := u.hops, ctrs := u.ctrs, evt := u.evt, hostMem := u.hostMem, vectors := u.vectors } ∧
      u.hop p l = { s.hop p l with
        inFlight := 0, retCred := (s.hop p l).retCred + (s.hop p l).inFlight, fails := (s.hop p l).fails + 1,
        request := if (s.hop p l).fails + 1 ≤ 8 then some n else none } := by
  obtain ⟨h, hh⟩ : ∃ h, h = { s.hop p l with
    inFlight := 0, retCred := (s.hop p l).retCred + (s.hop p l).inFlight, fails := (s.hop p l).fails + 1,
    request := if (s.hop p l).fails + 1 ≤ 8 then some n else none } := ⟨_, rfl⟩
  have runs : exec (.loopFlitParityError p ⟨l, flips⟩) s = .next (
      if (s.hop p l).fails + 1 ≤ 8 then
        (s.setHop p l h).bumpNode (nextNode s.flash.retired p l) (.loopReplay l) 1
      else s.setHop p l h) := by
    simp only [exec, execLoopFlitParityError, State.clocked, hp, hf, hr, hb, hbad]
    rw [if_neg (by decide), if_neg (by simpa using hi), hh]
    simp only [hr]
    rfl
  rw [← hh]
  refine ⟨_, runs, ?_⟩
  split
  · refine ⟨?_, ?_⟩
    · unfold State.bumpNode
      split
      · obtain ⟨_, _, _, _, e, _⟩ := bump_logged (s.setHop p l h) (.loopReplay l) (nextNode s.flash.retired p l) 1
        rw [e]
        rfl
      · rfl
    · rw [(bumpNode_offLoop _ _ _ _).hop, hop_setHop_self]
  · exact ⟨rfl, hop_setHop_self s p l h⟩

/-- R99, R100: the replay launches the kept flits again, each with a credit. -/
theorem replayRequest_relaunches (p : Fin 144) (l : Fin 2) (s : State) (hp : s.power.compStopped = false)
    (hr : (s.hop p l).request.isSome = true) :
    let n := (s.hop p l).replay.length
    ∃ u, exec (.loopReplayRequest p l) s = .next u ∧ u = { s with hops := u.hops } ∧
      u.hop p l = { s.hop p l with
        request := none, inFlight := (s.hop p l).inFlight + n, credits := (s.hop p l).credits + (s.hop p l).retCred - n,
        retCred := 0 } := by
  intro n
  refine ⟨s.setHop p l { s.hop p l with
    request := none, inFlight := (s.hop p l).inFlight + n, credits := (s.hop p l).credits + (s.hop p l).retCred - n,
    retCred := 0 }, ?_, rfl, hop_setHop_self s p l _⟩
  simp only [exec, execLoopReplayRequest, State.clocked, hp]
  rw [if_neg (by decide), if_pos hr]

theorem stationCheck_offLoop (p reason : Nat) (r : EvtRec) :
    OffLoop s (s.stationCheck p reason r) ∧ (s.stationCheck p reason r).stations = s.stations := by
  obtain ⟨x, q, l, b, pl, ⟨_, _, _, _, _, _, _, _, _, _, rfl, _⟩, e⟩ := stationCheck_eq s p reason r
  rw [e]
  exact ⟨⟨rfl, rfl⟩, rfl⟩

/-- R101, R403, R406: the ninth failure takes the hop down, and a Station is to be retired. -/
theorem hopDown_retires (p : Fin 144) (l : Fin 2) (now : Nat) (s : State) (hp : s.power.compStopped = false)
    (hf : (s.hop p l).fails = 9) (hd : (s.hop p l).down = false) :
    ∃ u, exec (.loopHopDown p l now) s = .next u ∧ u.hop p l = { s.hop p l with down := true } ∧
      hopVictim s.flash.retired p l ∈ u.retireQ ∧ u.stations = s.stations := by
  have hop : (s.advance now).hop p l = s.hop p l := by simp [State.hop]
  have flash : (s.advance now).flash = s.flash := by simp
  obtain ⟨v, hv⟩ : ∃ v, v = ((s.advance now).setHop p l { s.hop p l with down := true }).report
    { EvtRec.blank with family := 4, scope := scopeNone, loc := place 3 60 + place l 17 + p } := ⟨_, rfl⟩
  have reported : Stopped ((s.advance now).setHop p l { s.hop p l with down := true }) v := hv ▸ report_stopped _ _
  have flash' : v.flash = s.flash := (OffLoop.of_stopped reported).2.trans flash
  have stations : v.stations = s.stations := by
    rw [hv]
    simp [State.setHop]
  obtain ⟨r, runs⟩ : ∃ r, exec (.loopHopDown p l now) s = .next (v.stationCheck (hopVictim v.flash.retired p l) 4 r) := by
    refine ⟨{ EvtRec.blank with lstation := (v.logical (hopVictim v.flash.retired p l)).getD 255 }, ?_⟩
    simp only [exec, execLoopHopDown, State.clocked, hp, hop, hf, hd]
    rw [if_neg (by decide), if_pos (by decide), hv]
    simp only [hf]
  rw [flash'] at runs
  obtain ⟨off, same⟩ := stationCheck_offLoop v (hopVictim s.flash.retired p l) 4 r
  refine ⟨_, runs, ?_, (stationCheck_retires v _ 4 r).1, same.trans stations⟩
  rw [off.hop, (OffLoop.of_stopped reported).hop, hop_setHop_self]

/-- Settles O45: each event by its own clause; what moves along the line after an arrival by what every step of a node keeps. -/
theorem loopEvents : Obligations.LoopEvents := by
  unfold Obligations.LoopEvents
  exact ⟨consistInsert_launches, consistArrive_disposes, parityError_discards, replayRequest_relaunches, hopDown_retires⟩

end Sys2Proof.Proofs
end

section
/-! An issue (R155, R156): what every departure does at its issue, before and after its own effect. -/

namespace Sys2Proof.Proofs

open Sys2Proof Sys2Proof.Machine Sys2Proof.Laws

/-! ### The numbers of the Stations -/

theorem phys_of_logOf {retired : List Nat} {p k : Nat} (h : logOf retired p = some k) : physOf retired k = some p := by
  simpa using List.find?_some h

/-- Where a physical Station that carries number k stands: in the Sector of k, one place on where the Sector has used its spare (R106). -/
theorem physOf_cases {retired : List Nat} {k p : Nat} (h : physOf retired k = some p) :
    (∃ r, firstRetired retired (k / 16) = some r ∧
      (17 * (k / 16) + k % 16 < r ∧ p = 17 * (k / 16) + k % 16 ∨ r ≤ 17 * (k / 16) + k % 16 ∧ p = 17 * (k / 16) + k % 16 + 1)) ∨
    firstRetired retired (k / 16) = none ∧ p = 17 * (k / 16) + k % 16 := by
  unfold physOf at h
  obtain ⟨-, place⟩ := Option.ite_none_left_eq_some.1 h
  cases hr : firstRetired retired (k / 16) with
  | none =>
    simp only [hr] at place
    exact .inr ⟨rfl, (Option.some.inj place).symm⟩
  | some r =>
    simp only [hr] at place
    refine .inl ⟨r, rfl, ?_⟩
    have place' := Option.some.inj place
    split at place'
    next hlt => exact .inl ⟨hlt, place'.symm⟩
    next hge => exact .inr ⟨Nat.not_lt.1 hge, place'.symm⟩

theorem physOf_sector {retired : List Nat} {k p : Nat} (h : physOf retired k = some p) : p / 17 = k / 16 := by
  rcases physOf_cases h with ⟨r, -, ⟨-, rfl⟩ | ⟨-, rfl⟩⟩ | ⟨-, rfl⟩ <;> omega

theorem physOf_inj {retired : List Nat} {i k p : Nat} (hi : physOf retired i = some p) (hk : physOf retired k = some p) : i = k := by
  have sector : i / 16 = k / 16 := (physOf_sector hi).symm.trans (physOf_sector hk)
  have first := physOf_cases hi
  rw [sector] at first
  rcases physOf_cases hk with ⟨x, hx, place'⟩ | ⟨hn', place'⟩
  · rcases first with ⟨r, hr, place⟩ | ⟨hn, -⟩
    · cases hr.symm.trans hx
      omega
    · exact nomatch hn.symm.trans hx
  · rcases first with ⟨r, hr, -⟩ | ⟨-, place⟩
    · exact nomatch hr.symm.trans hn'
    · omega

theorem logOf_of_phys {retired : List Nat} {p k : Nat} (h : physOf retired k = some p) : logOf retired p = some k := by
  have sector := physOf_sector h
  have listed : k ∈ (List.range 16).map (fun i => 16 * (p / 17) + i) :=
    List.mem_map.2 ⟨k % 16, List.mem_range.2 (Nat.mod_lt k (by decide)), by omega⟩
  cases hl : logOf retired p with
  | none => exact absurd (beq_iff_eq.2 h) (List.find?_eq_none.1 hl k listed)
  | some i => rw [physOf_inj (phys_of_logOf hl) h]

/-! ### The head -/

variable {s t u : State}

/-- The head of a line is of the context that runs, and of the physical Station that carries its number. -/
theorem headOf_head {k j : Nat} {h : Head} (hh : s.headOf k j = .head h) : s.runSlot = some h.c ∧ s.phys k = some h.p := by
  unfold State.headOf at hh
  split at hh
  · cases hh
  next c hc =>
    dsimp only at hh
    split at hh
    next hp =>
      split at hh
      · cases hh
      · split at hh
        · cases hh
        · cases hh
          exact ⟨hc, hp⟩
    · cases hh

theorem departed_trans (h : s.departed t) (i : t.departed u) : s.departed u := by
  unfold State.departed at *
  rw [i, h]

theorem AtStations.departed (h : AtStations s t) : s.departed t := by
  obtain ⟨_, _, _, _, _, _, rfl⟩ := h
  rfl

theorem departed_fields (h : s.departed t) : t.flash = s.flash ∧ t.slots = s.slots ∧ t.hops = s.hops := by
  unfold State.departed at h
  rw [h]
  exact ⟨rfl, rfl, rfl⟩

theorem departed_offLoop (h : s.departed t) : OffLoop s t := ⟨(departed_fields h).2.2, (departed_fields h).1⟩

/-! ### What every issue does -/

variable (s)

/-- The Station after the issue of its head h at cycle `sc`, before the departure's own effect (R155, R156, R158, R163). -/
def begun (k j : Nat) (h : Head) (sc : Nat) : Station :=
  let st := s.station k
  let ws := Dep.waits h.word
  { st with
    tokens := consume st.tokens ws, bound := bindTokens st.bound j ws,
    lines := linesAfter st j sc s.time.lt (Dep.opcode h.word == opSectionEnd) s.power.tight
      ((readyLines s k sc).filter (fun i => i != j)) (s.lineDelays k j h),
    issued := st.issued + 1, lastIssue := some sc, progs := st.progs ++ [newProg s k j h sc] }

theorem issueCommon_eq (k j : Nat) (h : Head) (sc : Nat) :
    ∃ v e, Logged (s.setStation k (begun s k j h sc)) v ∧ issueCommon s k j h sc = { v with power := e } := by
  obtain ⟨v, hv⟩ : ∃ v, v = ((s.setStation k (begun s k j h sc)).bump .ttIssued h.p 1).bump .ttDispatchPassed h.p
    (if (readyLines s k sc).filter (fun i => i != j) = [] then 0 else 1) := ⟨_, rfl⟩
  refine ⟨v, { v.power with energyWin := v.power.energyWin + 2 ^ Dep.energy h.word }, ?_, ?_⟩
  · rw [hv]
    exact (bump_logged _ _ _ _).trans (bump_logged _ _ _ _)
  · rw [hv]
    simp only [issueCommon, begun]

theorem issueCommon_departed (k j : Nat) (h : Head) (sc : Nat) : s.departed (issueCommon s k j h sc) := by
  obtain ⟨v, e, ⟨_, _, _, _, rfl, _⟩, eq⟩ := issueCommon_eq s k j h sc
  rw [eq]
  rfl

theorem issueCommon_stations (k j : Nat) (h : Head) (sc : Nat) :
    (issueCommon s k j h sc).stations = (s.setStation k (begun s k j h sc)).stations ∧
    (issueCommon s k j h sc).cycles = s.cycles := by
  obtain ⟨v, e, ⟨_, _, _, _, rfl, _⟩, eq⟩ := issueCommon_eq s k j h sc
  rw [eq]
  exact ⟨rfl, rfl⟩

theorem note_atStations (b : Station) (k : Nat) : AtStations s (s.note b k) :=
  (modStation_atStations s k _).trans (noteHeads_atStations _ b k)

theorem note_keeps {α : Type} {f : Station → α} (hf : ∀ st x, f { st with lines := x } = f st) (b : Station) (k : Nat) :
    Keeps f s (s.note b k) :=
  (Keeps.modStation s (fun st => hf st _)).trans (noteHeads_keeps _ hf b k)

theorem storeErrors_offLoop (k j sect index : Nat) (bad : List Nat) : OffLoop s (s.storeErrors k j sect index bad) := by
  unfold State.storeErrors
  refine foldl_keeps (OffLoop s) _ (fun x g hx => hx.trans ?_) _ s (.refl s)
  exact (setStation_offLoop x k _).trans (.of_stopped (flowingError_stopped _ _))

/-- The state at whose end the effect of a departure's own begins. -/
def issuing (k j : Nat) (t : IssueTick) (h : Head) : State := issueCommon (s.atIssue h t) k j h ((s.atIssue h t).cycle h.p)

/-- The departure as it begins. -/
def startedProg (k j : Nat) (t : IssueTick) (h : Head) : Prog := newProg (s.atIssue h t) k j h ((s.atIssue h t).cycle h.p)

variable {s}

/-- An issue that R155 allows: its common effect, the departure's own, and the notes. -/
theorem issue_of_issues {k j : Nat} {t : IssueTick} {r : DepRule} {h : Head} (hi : s.issues k j t r h) :
    issue r k j t s =
      (r.effect ((issuing s k j t h).storeErrors k j h.sect h.index (if readsStore r.op then t.bad else [])) k h
        (startedProg s k j t h)).note ((s.atIssue h t).station k) k := by
  obtain ⟨head, op, form, fresh, turn, check⟩ := hi
  have own : (Dep.opcode h.word == r.op) = true := beq_iff_eq.2 op
  simp only [State.atIssue] at form fresh turn check
  simp only [issue, head, own, form, turn, check, if_true]
  rw [if_neg]
  · rfl
  · simpa using fresh

end Sys2Proof.Proofs
end

section
/-! `LOOP_SEND` and the issue of `LOOP_TAKE` (R203 to R205). -/

namespace Sys2Proof.Proofs

open Sys2Proof Sys2Proof.Machine Sys2Proof.Laws

variable {s : State} {α : Type} {f : Station → α}

/-! ### Before a departure's own effect -/

theorem atIssue_departed (h : Head) (t : IssueTick) : s.departed (s.atIssue h t) := by
  refine departed_trans (t := s.advance t.lt) ?_ (advanceSc_atStations _ _ _).departed
  unfold State.advance
  split <;> rfl

theorem issuing_departed (k j : Nat) (t : IssueTick) (h : Head) : s.departed (issuing s k j t h) :=
  departed_trans (atIssue_departed h t) (issueCommon_departed _ _ _ _ _)

theorem atIssue_station (h : Head) (t : IssueTick) (n : Nat) : (s.atIssue h t).station n = s.station n := by
  simp [State.atIssue, State.station, State.advanceSc]

theorem startedProg_id (k j : Nat) (t : IssueTick) (h : Head) : (startedProg s k j t h).id = s.depId k j h := by
  simp only [startedProg, newProg, State.depId, atIssue_station]

theorem issuing_station (k j : Nat) (t : IssueTick) (h : Head) :
    (issuing s k j t h).station k = begun (s.atIssue h t) k j h ((s.atIssue h t).cycle h.p) := by
  rw [issuing, State.station, (issueCommon_stations _ k j h _).1]
  exact station_setStation_self _ _ _

/-- What the common effect of an issue leaves: `f` is blind to what a Station counts, binds, and lists of the departures in progress. -/
theorem issuing_keeps
    (hf : ∀ st a b c d e g, f { st with tokens := a, bound := b, lines := c, issued := d, lastIssue := e, progs := g } = f st) (k j : Nat)
    (t : IssueTick) (h : Head) (n : Nat) : f ((issuing s k j t h).station n) = f (s.station n) := by
  rw [issuing, State.station, (issueCommon_stations _ k j h _).1, ← atIssue_station (s := s) h t n]
  change f (((s.atIssue h t).setStation k _).station n) = _
  rw [station_setStation]
  split
  next e => rw [e]; exact hf _ _ _ _ _ _ _
  · rfl

theorem issuing_sameStores (k j : Nat) (t : IssueTick) (h : Head) : s.sameStores (issuing s k j t h) :=
  issuing_keeps (fun _ _ _ _ _ _ _ => rfl) k j t h

theorem sameStores_trans_keeps {t u : State} (h : s.sameStores t) (k : Keeps Station.store t u) : s.sameStores u :=
  fun n => (k.2 n).trans (h n)

/-! ### LOOP_SEND -/

/-- A send from the store puts its Consist among the Station's own (R204). -/
theorem sendEffect_store (w : State) (k : Nat) (h : Head) (pr : Prog) (hs : (sendOps h.word).siding = false) :
    let o := sendOps h.word
    Keeps Station.store w (sendEffect w k h pr) ∧ ∃ row col poison,
      (o.cind = false → row = o.trow ∧ col = o.tcol) ∧
      OffLoop (w.modHop h.p o.line (fun x => { x with own := x.own ++
        [sendConsist o k h.sect row col o.object (storeRead (w.station k) (64 * o.src) (64 * recGran o.fmt)) poison pr.id] }))
        (sendEffect w k h pr) := by
  intro o
  unfold sendEffect
  extract_lets +onlyGivenNames _ st n poison rc bad c v x
  rw [if_neg (show ¬o.siding = true by rw [hs]; decide)]
  have sent : Keeps Station.store w x := (modProg_keeps w blind_store.progs k pr.id _).trans (modHop_keeps v _ _ _)
  have put : OffLoop (w.modHop h.p o.line (fun x => { x with own := x.own ++ [c] })) x := ⟨rfl, rfl⟩
  refine ⟨?_, rc.1, rc.2, poison, ?_, ?_⟩
  · split
    · exact sent.trans (.of_stopped (markStepBad_stopped x h.c))
    · exact sent
  · intro hc
    have at' : rc = (o.trow, o.tcol) := if_neg (by rw [hc]; decide)
    exact ⟨congrArg Prod.fst at', congrArg Prod.snd at'⟩
  · split
    · exact put.trans (.of_stopped (markStepBad_stopped x h.c))
    · exact put

section
variable {k : Fin 128} {j : Fin 4} {t : IssueTick} {h : Head}

theorem loopSend_sends (hi : s.issues k j t sendRule h) (hs : (sendOps h.word).siding = false) :
    let o := sendOps h.word
    ∃ u row col poison, exec (.loopSend k j t) s = .next u ∧ s.sameStores u ∧ (o.cind = false → row = o.trow ∧ col = o.tcol) ∧
      (u.hop h.p o.line).own = (s.hop h.p o.line).own ++
        [sendConsist o k h.sect row col o.object (storeRead (s.station k) (64 * o.src) (64 * recGran o.fmt)) poison
          (s.depId k j h)] ∧
      ∀ p l, 2 * p + l ≠ 2 * h.p + o.line → u.hop p l = s.hop p l := by
  intro o
  let w := (issuing s k j t h).storeErrors k j h.sect h.index t.bad
  have runs : exec (.loopSend k j t) s =
      .next ((sendEffect w k h (startedProg s k j t h)).note ((s.atIssue h t).station k) k) :=
    congrArg _ (issue_of_issues hi)
  have stores : s.sameStores w :=
    sameStores_trans_keeps (issuing_sameStores k j t h) (storeErrors_keeps _ (fun _ _ => rfl) _ _ _ _ _)
  have loop : OffLoop s w := (departed_offLoop (issuing_departed k j t h)).trans (storeErrors_offLoop _ _ _ _ _ _)
  obtain ⟨kept, row, col, poison, place, put⟩ := sendEffect_store w k h (startedProg s k j t h) hs
  have all := put.trans (.of_atStations (note_atStations _ ((s.atIssue h t).station k) k))
  refine ⟨_, row, col, poison, runs, ?_, place, ?_, fun p l hn => ?_⟩
  · exact sameStores_trans_keeps stores (kept.trans (note_keeps _ (fun _ _ => rfl) _ _))
  · rw [all.hop, State.modHop, hop_setHop_self, loop.hop, startedProg_id]
    simp only [storeRead, stores k]
    rfl
  · rw [all.hop, State.modHop, hop_setHop, if_neg hn, loop.hop]

end

/-- Positions that have been claimed of Siding `d`. -/
def claimedOf (d : Nat) (st : Station) : Nat := (st.siding d).claimed

theorem claimedOf_setSiding (st : Station) (d sid : Nat) (v : Siding) (h : v.claimed = (st.siding sid).claimed) :
    claimedOf d (st.setSiding sid v) = claimedOf d st := by
  simp only [claimedOf, Station.siding, Station.setSiding] at h ⊢
  rw [tget_tset]
  split
  next e => rw [h, e]
  · rfl

theorem noteFills_claimed (s : State) (d k : Nat) : Keeps (claimedOf d) s (s.noteFills k) := by
  unfold State.noteFills
  split
  · exact .refl s
  next p _ =>
    refine .foldl s (fun x sid => ?_) _
    unfold State.noteSiding
    extract_lets +onlyGivenNames y v waits wait
    have counted : Keeps (claimedOf d) x v := by
      unfold v
      split
      · exact bump_keeps x _ _ _
      · exact .refl x
    split
    · exact counted
    · exact counted.trans (.modStation v (fun st => claimedOf_setSiding st d sid _ rfl))

theorem feedSend_keeps (s : State) (hf : ∀ st x, f { st with progs := x } = f st) (k : Nat) (pr : Prog) :
    Keeps f s (s.feedSend k pr) := by
  unfold State.feedSend
  dsimp only
  split
  · split
    · unfold State.malformedProg
      split
      · exact .of_stopped (malformed_stopped _ _ _ _ _ _ _)
      · exact .refl s
    · exact ((modProg_keeps s hf _ _ _).trans (stall_keeps _ hf _ _ _ _)).trans (modHop_keeps _ _ _ _)
  · exact .refl s

/-- A send from a Siding claims one position of it (R204, R288). -/
theorem sendEffect_siding (w : State) (k : Nat) (h : Head) (pr : Prog) (hs : (sendOps h.word).siding = true) :
    let d := (sendOps h.word).src % 16
    Keeps Station.store w (sendEffect w k h pr) ∧
    claimedOf d ((sendEffect w k h pr).station k) = claimedOf d (w.station k) + 1 := by
  intro d
  obtain ⟨v, hv⟩ : ∃ v, v = w.claim k d 1 pr.id := ⟨_, rfl⟩
  have fed {β : Type} {g : Station → β} (hg : ∀ st x, g { st with progs := x } = g st) : Keeps g v (sendEffect w k h pr) := by
    unfold sendEffect
    extract_lets +onlyGivenNames o x
    rw [if_pos hs, show x = v from hv.symm]
    split
    · exact feedSend_keeps v hg k _
    · exact .refl v
  have claimed : claimedOf d (v.station k) = claimedOf d (w.station k) + 1 := by
    rw [hv, State.claim, (noteFills_claimed _ d k).2, station_modStation_self]
    simp [claimedOf, Station.modProg, Station.siding, Station.setSiding]
  have stores : Keeps Station.store w v := by
    rw [hv]
    refine Keeps.trans ?_ (noteFills_keeps _ (fun _ _ => rfl) k)
    exact .modStation w (fun _ => rfl)
  exact ⟨stores.trans (fed fun _ _ => rfl), ((fed fun _ _ => rfl).2 k).trans claimed⟩

section
variable {k : Fin 128} {j : Fin 4} {t : IssueTick} {h : Head}

theorem loopSend_claims (hi : s.issues k j t sendRule h) (hs : (sendOps h.word).siding = true) :
    let o := sendOps h.word
    ∃ u, exec (.loopSend k j t) s = .next u ∧ s.sameStores u ∧
      ((u.station k).siding (o.src % 16)).claimed = ((s.station k).siding (o.src % 16)).claimed + 1 := by
  intro o
  let w := (issuing s k j t h).storeErrors k j h.sect h.index t.bad
  have runs : exec (.loopSend k j t) s =
      .next ((sendEffect w k h (startedProg s k j t h)).note ((s.atIssue h t).station k) k) :=
    congrArg _ (issue_of_issues hi)
  have before {β : Type} {g : Station → β} (hg : ∀ st x, g { st with storePoison := x } = g st)
      (hg' : ∀ st a b c d e p, g { st with tokens := a, bound := b, lines := c, issued := d, lastIssue := e, progs := p } = g st)
      (n : Nat) : g (w.station n) = g (s.station n) :=
    ((storeErrors_keeps _ hg _ _ _ _ _).2 n).trans (issuing_keeps hg' k j t h n)
  obtain ⟨kept, claimed⟩ := sendEffect_siding w k h (startedProg s k j t h) hs
  refine ⟨_, runs, ?_, ?_⟩
  · refine sameStores_trans_keeps (before ?_ ?_) (kept.trans (note_keeps _ ?_ _ _)) <;> intros <;> rfl
  · refine ((note_keeps (f := claimedOf (o.src % 16)) _ (fun _ _ => rfl) _ _).2 k).trans (claimed.trans (congrArg (· + 1) ?_))
    exact before (g := claimedOf (o.src % 16)) (fun _ _ => rfl) (fun _ _ _ _ _ _ _ => rfl) k

end

end Sys2Proof.Proofs
end

section
/-! `LOOP_TAKE` (R205): the take that is listed meets the Consist at its line's input, whose flits then come into the store. -/

namespace Sys2Proof.Proofs

open Sys2Proof Sys2Proof.Machine Sys2Proof.Laws

variable {s : State} {k : Fin 128} {j : Fin 4} {t : IssueTick} {h : Head}

/-- The state in which a take that has just issued waits for its tag (R96). -/
def listed (s : State) (k j : Nat) (t : IssueTick) (h : Head) : State :=
  (issuing s k j t h).modStation k (fun st =>
    { st with takes := st.takes ++ [((startedProg s k j t h).id, (takeOps h.word).line, (takeOps h.word).tag)] })

/-- What stands in the state in which a take has been listed. -/
structure Listed (s : State) (k j : Nat) (t : IssueTick) (h : Head) (v : State) : Prop where
  departed : s.departed v
  stores   : s.sameStores v
  takes    : (v.station k).takes = (s.station k).takes ++ [(s.depId k j h, (takeOps h.word).line, (takeOps h.word).tag)]
  progs    : (v.station k).progs = (s.station k).progs ++ [startedProg s k j t h]
  runs     : v.runSlot = some h.c
  number   : v.logical h.p = some k
  only     : ∀ q, v.logical q = some k → q = h.p

theorem loopTake_listed (hi : s.issues k j t takeRule h) :
    Listed s k j t h (listed s k j t h) ∧
    exec (.loopTake k j t) s =
      .next (((listed s k j t h).matchHeld h.p (takeOps h.word).line).note ((s.atIssue h t).station k) k) := by
  obtain ⟨hc, hp⟩ := headOf_head hi.1
  have departed : s.departed (listed s k j t h) :=
    departed_trans (issuing_departed k j t h) (modStation_atStations _ _ _).departed
  obtain ⟨flash, slots, -⟩ := departed_fields departed
  have number : physOf (listed s k j t h).flash.retired k = some h.p := by
    rw [flash, ← hp, State.phys]
    simp
  have station : (listed s k j t h).station k = { (issuing s k j t h).station k with
      takes := ((issuing s k j t h).station k).takes ++
        [((startedProg s k j t h).id, (takeOps h.word).line, (takeOps h.word).tag)] } := station_modStation_self _ _ _
  refine ⟨⟨departed, ?_, ?_, ?_, ?_, logOf_of_phys number, fun q hq => ?_⟩, congrArg _ (issue_of_issues hi)⟩
  · exact sameStores_trans_keeps (issuing_sameStores k j t h) (.modStation _ (fun _ => rfl))
  · rw [station, startedProg_id]
    exact congrArg (· ++ _) (issuing_keeps (f := Station.takes) (fun _ _ _ _ _ _ _ => rfl) k j t h k)
  · rw [station, issuing_station]
    exact congrArg (fun st : Station => st.progs ++ [startedProg s k j t h]) (atIssue_station h t k)
  · rw [runSlot_of_slots slots, ← hc]
    exact (runSlot_of_slots (by simp)).symm
  · exact Option.some.inj ((phys_of_logOf hq).symm.trans number)

section
variable {v : State} {c : Consist} (hv : Listed s k j t h v)
include hv

theorem Listed.hop (p l : Nat) : v.hop p l = s.hop p l := (departed_offLoop hv.departed).hop p l

/-- The departure itself is found by its name. -/
theorem Listed.prog (hp : (s.station k).prog (s.depId k j h) = none) :
    (v.station k).prog (s.depId k j h) = some (startedProg s k j t h) := by
  simp only [Station.prog] at hp ⊢
  rw [hv.progs, List.find?_append, hp, Option.none_or, List.find?_singleton, startedProg_id]
  simp

theorem Listed.takeFor (ht : (s.station k).takes = []) (hc : c.tag = (takeOps h.word).tag) :
    (v.station k).takeFor (takeOps h.word).line c.tag = some (s.depId k j h) := by
  simp [Station.takeFor, hv.takes, ht, hc]

end

/-- A take that meets no Consist waits (R96, R205). -/
theorem loopTake_waits (hi : s.issues k j t takeRule h)
    (hm : (s.hop h.p (takeOps h.word).line).held = none ∨ (s.hop h.p (takeOps h.word).line).mode ≠ .holding) :
    ∃ u, exec (.loopTake k j t) s = .next u ∧ s.departed u ∧ s.sameStores u ∧
      (u.station k).takes = (s.station k).takes ++ [(s.depId k j h, (takeOps h.word).line, (takeOps h.word).tag)] := by
  obtain ⟨hv, runs⟩ := loopTake_listed hi
  generalize listed s k j t h = v at hv runs
  rw [matchHeld_idle v _ _ (by rw [hv.hop]; exact hm.imp_right .inl)] at runs
  refine ⟨_, runs, departed_trans hv.departed (note_atStations _ _ _).departed, ?_, ?_⟩
  · exact sameStores_trans_keeps hv.stores (note_keeps _ (fun _ _ => rfl) _ _)
  · exact ((note_keeps (f := Station.takes) _ (fun _ _ => rfl) _ _).2 k).trans hv.takes

/-! ### The meeting -/

/-- The state in which the Consist at the input has been given to departure `id`, from its row `first` on (R96). -/
def giving (v : State) (p l : Nat) (id : DepId) (first : Nat) : State :=
  let w := v.setHop p l { v.hop p l with mode := .given id first, heldSince := v.cycle p }
  w.bumpNode p (.loopHeld (lineOf l)) (w.cycle p - (v.hop p l).heldSince)

/-- A Consist that is held is given to the take of its tag, if its format is the take's (R96, R184). -/
theorem matchHeld_take (v : State) {p l k : Nat} {c : Consist} {id : DepId} {pr : Prog} (hk : v.logical p = some k)
    (hc : (v.hop p l).held = some c) (hm : (v.hop p l).mode = .holding) (ht : (v.station k).takeFor l c.tag = some id)
    (hp : (v.station k).prog id = some pr) (ho : Dep.opcode pr.word = opTake) :
    v.matchHeld p l =
      if c.fmt = (takeOps pr.word).fmt then (giving v p l id pr.next).pump p l else v.malformedProg k pr 6 := by
  simp only [State.matchHeld, hk, hc, hm, ht, hp, ho, if_true]
  by_cases hf : c.fmt = (takeOps pr.word).fmt
  · rw [if_pos hf, if_neg (by simpa using hf)]
    simp only [giving, hc]
  · rw [if_neg hf, if_pos (by simpa using hf)]

section
variable {c : Consist} (hi : s.issues k j t takeRule h) (hc : (s.hop h.p (takeOps h.word).line).held = some c)
  (hm : (s.hop h.p (takeOps h.word).line).mode = .holding) (hg : c.tag = (takeOps h.word).tag) (ht : (s.station k).takes = [])
  (hp : (s.station k).prog (s.depId k j h) = none)
include hi hc hm hg ht hp

/-- The take that has been listed meets the Consist that is held at its line's input. -/
theorem Listed.matchHeld {v : State} (hv : Listed s k j t h v) :
    v.matchHeld h.p (takeOps h.word).line =
      if c.fmt = (takeOps h.word).fmt then (giving v h.p (takeOps h.word).line (s.depId k j h) 0).pump h.p (takeOps h.word).line
      else v.malformedProg k (startedProg s k j t h) 6 :=
  matchHeld_take v hv.number (by rwa [hv.hop]) (by rwa [hv.hop]) (hv.takeFor ht hg) (hv.prog hp) hi.2.1

/-- A Consist of another format stops the context (R184). -/
theorem loopTake_malformed (hf : c.fmt ≠ (takeOps h.word).fmt) :
    ∃ u, exec (.loopTake k j t) s = .next u ∧ (u.slot h.c).state = .stopped ∧ s.sameStores u := by
  obtain ⟨hv, runs⟩ := loopTake_listed hi
  generalize listed s k j t h = v at hv runs
  rw [Listed.matchHeld hi hc hm hg ht hp hv, if_neg hf] at runs
  have stops : v.malformedProg k (startedProg s k j t h) 6 =
      v.malformed h.c k (startedProg s k j t h).id.line (startedProg s k j t h).sect (startedProg s k j t h).id.index 6 := by
    simp only [State.malformedProg, hv.runs]
  refine ⟨_, runs, ?_, ?_⟩
  · obtain ⟨_, _, _, _, _, _, e⟩ := note_atStations (v.malformedProg k (startedProg s k j t h) 6) ((s.atIssue h t).station k) k
    rw [e, stops]
    exact stopContext_state _ h.c
  · refine sameStores_trans_keeps hv.stores (Keeps.trans ?_ (note_keeps _ (fun _ _ => rfl) _ _))
    rw [stops]
    exact .of_stopped (malformed_stopped _ _ _ _ _ _ _)

end

/-! ### What its flits write -/

/-- What a store take leaves of its Station's store and of the departures' words. -/
theorem consume_stored (s : State) {k p l r n : Nat} {c : Consist} {id : DepId} {pr : Prog} (hl : s.logical p = some k)
    (hp : (s.station k).prog id = some pr) (ho : Dep.opcode pr.word = opTake) :
    stored ((s.consume p l c id r n).station k) = ((takenInto (s.station k) pr c r n).store, names (s.station k)) := by
  obtain ⟨v, hv⟩ : ∃ v, v = s.setStation k (takenInto (s.station k) pr c r n) := ⟨_, rfl⟩
  have written : stored (v.station k) = ((takenInto (s.station k) pr c r n).store, names (s.station k)) := by
    rw [hv, station_setStation_self]
    rfl
  rw [consume_take s p l c id r n hl hp ho, ← written, ← hv]
  dsimp only
  split
  · refine (Keeps.trans ?_ ((finish_steady _ steady_stored _ _ _).trans (stall_steady _ steady_stored _ _ _ _))).2 k
    exact .modStation v (fun _ => rfl)
  · rfl

section
variable {k p l first : Nat} {id : DepId} {w : BitVec 256} {c : Consist} {old : List Host.Cell} {x y : State}

/-- The input of a Station that takes `c`, or has done so. -/
def Given (id : DepId) (first : Nat) (c : Consist) (h : Hop) : Prop := h.held = none ∨ h.held = some c ∧ h.mode = .given id first

theorem given_step (q : Nat) (a b : Hop) (h : HopStep q a b) (ha : Given id first c a) : Given id first c b := by
  cases h with
  | arrive n =>
    unfold Hop.arriveFlits
    split <;> exact ha
  | taken => exact .inl rfl
  | pass | free | read | put | own | left | wait => exact ha

/-- What `Taking` says of a store. -/
def Brings (a : Nat) (c : Consist) (old new : List Host.Cell) : Prop :=
  ∀ y, memRead new y = memRead old y ∨
    64 * a ≤ y ∧ y < 64 * a + c.data.length ∧ memRead new y = c.data.getD (y - 64 * a) 0

/-- While departure `id` of Station k, whose word is `w`, takes `c` on line `l`: the Consist stands at the Station's input or is done
with, and its store holds bytes of `c` in their place, or what was there before. -/
structure Taking (k p l : Nat) (id : DepId) (first : Nat) (w : BitVec 256) (c : Consist) (old : List Host.Cell) (x : State) : Prop where
  only  : ∀ q, x.logical q = some k → q = p
  input : Given id first c (x.hop p l)
  word  : ((x.station k).prog id).map (fun q => q.word) = some w
  bytes : Brings (takeOps w).addr c old (x.station k).store

/-- It stays so while the line moves and the departures keep their words, as long as the store holds what it says. -/
theorem Taking.moves (hx : Taking k p l id first w c old x) (hm : LineMoves l x y) (hn : names (y.station k) = names (x.station k))
    (hb : Brings (takeOps w).addr c old (y.station k).store) : Taking k p l id first w c old y := by
  obtain ⟨only, input, word, -⟩ := hx
  refine ⟨fun q hq => only q ?_, hm.inv p (given_step p) input, ?_, hb⟩
  · rwa [State.logical, hm.flash] at hq
  · rw [word_of_names, hn, ← word_of_names, word]

/-- The step of a node keeps it: only at the Station's own node does it write the store, and then bytes of the Consist. -/
theorem Taking.nodeStep (ho : Dep.opcode w = opTake) (hc : c.size ≤ c.data.length / 256 + 1) (q : Nat)
    (hx : Taking k p l id first w c old x) : Taking k p l id first w c old (x.nodeStep q l).1 := by
  have moves := nodeStep_moves (l := l) x q
  have still (h : stored ((x.nodeStep q l).1.station k) = stored (x.station k)) : Taking k p l id first w c old (x.nodeStep q l).1 := by
    obtain ⟨store, named⟩ := Prod.mk.inj h
    exact hx.moves moves named (store.symm ▸ hx.bytes)
  rcases nodeStep_stations x q l (.inl steady_stored) with same | ⟨c', id', first', n, v, held, mode, within, flash, before, after⟩
  · exact still (same.2 k)
  · obtain ⟨store, named⟩ := Prod.mk.inj (before.2 k)
    by_cases hq : v.logical q = some k
    · obtain rfl : q = p := hx.only q (by rwa [State.logical, flash] at hq)
      obtain ⟨held', mode'⟩ := hx.input.resolve_left fun e => nomatch held.symm.trans e
      obtain rfl : c' = c := Option.some.inj (held.symm.trans held')
      obtain ⟨rfl, rfl⟩ := InMode.given.inj (mode.symm.trans mode')
      have word : ((v.station k).prog id').map (fun q => q.word) = some w := by
        rw [word_of_names, named, ← word_of_names, hx.word]
      obtain ⟨pr, hp, rfl⟩ := Option.map_eq_some_iff.1 word
      obtain ⟨store', named'⟩ := Prod.mk.inj ((after.2 k).trans (consume_stored v hq hp ho))
      refine hx.moves moves (named'.trans named) fun y => ?_
      rw [store', takenInto_store _ _ _ _ _ _ (by omega)]
      split
      · exact .inr ⟨by omega, by omega, rfl⟩
      · rw [store]
        exact hx.bytes y
    · refine still ((after.2 k).trans ?_)
      rw [consume_elsewhere v q l c' id' _ n k hq]
      exact before.2 k

end

/-! ### The take -/

section
variable {v : State} {p l : Nat} {id : DepId} {first : Nat}

theorem giving_offLoop (v : State) (p l : Nat) (id : DepId) (first : Nat) :
    OffLoop (v.setHop p l { v.hop p l with mode := .given id first, heldSince := v.cycle p }) (giving v p l id first) :=
  bumpNode_offLoop _ _ _ _

theorem giving_keeps : Keeps (fun st => st) v (giving v p l id first) :=
  (setHop_keeps v _ _ _).trans (bumpNode_keeps _ _ _ _)

theorem giving_station (n : Nat) : (giving v p l id first).station n = v.station n := giving_keeps.2 n

end

section
variable {c : Consist} (hi : s.issues k j t takeRule h) (hc : (s.hop h.p (takeOps h.word).line).held = some c)
  (hm : (s.hop h.p (takeOps h.word).line).mode = .holding) (hg : c.tag = (takeOps h.word).tag) (ht : (s.station k).takes = [])
  (hp : (s.station k).prog (s.depId k j h) = none) (hf : c.fmt = (takeOps h.word).fmt) (hs : c.size = c.data.length / 256 + 1)
include hi hc hm hg ht hp hf hs

/-- Of a Consist of its tag and format, a take writes the bytes that have come, and no others (R205). -/
theorem loopTake_writes :
    ∃ u, exec (.loopTake k j t) s = .next u ∧ Brings (takeOps h.word).addr c (s.station k).store (u.station k).store := by
  obtain ⟨hv, runs⟩ := loopTake_listed hi
  generalize listed s k j t h = v at hv runs
  rw [Listed.matchHeld hi hc hm hg ht hp hv, if_pos hf] at runs
  have begins : Taking k h.p (takeOps h.word).line (s.depId k j h) 0 h.word c (s.station k).store
      (giving v h.p (takeOps h.word).line (s.depId k j h) 0) := by
    have off := giving_offLoop v h.p (takeOps h.word).line (s.depId k j h) 0
    refine ⟨fun q hq => hv.only q ?_, .inr ?_, ?_, fun y => .inl ?_⟩
    · rwa [State.logical, off.2] at hq
    · rw [off.hop, hop_setHop_self]
      exact ⟨(hv.hop _ _ ▸ hc :), rfl⟩
    · rw [giving_station, hv.prog hp]
      rfl
    · rw [giving_station, hv.stores k]
  have ends := pump_inv (fun x q hx => Taking.nodeStep hi.2.1 hs.le q hx) h.p begins
  refine ⟨_, runs, ?_⟩
  rw [(note_keeps (f := Station.store) _ (fun _ _ => rfl) _ _).2 k]
  exact ends.bytes

end

end Sys2Proof.Proofs
end

section
/-! A `LOOP_TAKE` of a Consist that has come whole, on a Loop that carries nothing else (R96, R205): one step of its node does it all. -/

namespace Sys2Proof.Proofs

open Sys2Proof Sys2Proof.Machine Sys2Proof.Laws

/-! ### The take is done -/

/-- Departure `id` stands in a Station's books as done at cycle `sc`. -/
def doneIn (st : Station) (id : DepId) (sc : Nat) : Prop := ∃ q ∈ st.progs, q.id = id ∧ q.doneSc = some sc

theorem doneIn_modProg {st : Station} {id i : DepId} {sc : Nat} {g : Prog → Prog}
    (hg : ∀ q, (g q).id = q.id ∧ (g q).doneSc = q.doneSc)
    (h : doneIn st id sc) : doneIn (st.modProg i g) id sc := by
  obtain ⟨q, hq, hid, hdone⟩ := h
  refine ⟨_, List.mem_map_of_mem hq, ?_⟩
  split
  · exact ⟨(hg q).1.trans hid, (hg q).2.trans hdone⟩
  · exact ⟨hid, hdone⟩

theorem finish_done (s : State) {k : Nat} {id : DepId} {pr : Prog} (sc : Nat) (h : (s.station k).prog id = some pr) :
    doneIn ((s.finish k id sc).station k) id sc := by
  have named : (pr.id == id) = true := List.find?_some (p := fun q : Prog => q.id == id) h
  rw [State.finish, State.modProg, station_modStation_self]
  refine ⟨_, List.mem_map_of_mem (List.mem_of_find?_eq_some h), ?_⟩
  rw [if_pos named]
  exact ⟨beq_iff_eq.1 named, rfl⟩

theorem stall_done (s : State) {k : Nat} {id : DepId} {sc : Nat} (cause n : Nat) (h : doneIn (s.station k) id sc) :
    doneIn ((s.stall k id cause n).station k) id sc := by
  unfold State.stall
  split
  · exact h
  · rw [State.modProg, station_modStation_self]
    exact doneIn_modProg (fun _ => ⟨rfl, rfl⟩) h

theorem loopBlind_const : LoopBlind (fun _ : Station => ()) :=
  { lines := fun _ _ => rfl, progs := fun _ _ => rfl, mulq := fun _ _ => rfl, takes := fun _ _ => rfl, shadow := fun _ _ => rfl,
    feeds := fun _ _ => rfl, drain := fun _ _ _ _ => rfl, store := fun _ _ _ => rfl }

theorem consume_cycles (s : State) (p l : Nat) (c : Consist) (id : DepId) (r n : Nat) : (s.consume p l c id r n).cycles = s.cycles :=
  (consume_keeps s loopBlind_const p l c id r n).1

/-- With the last of its flits a store take is done, and waits for no Consist any more (R205). -/
theorem consume_done (s : State) {k p l r n : Nat} {c : Consist} {id : DepId} {pr : Prog} (hl : s.logical p = some k)
    (hp : (s.station k).prog id = some pr) (ho : Dep.opcode pr.word = opTake) (hr : r + n = c.size) :
    ((s.consume p l c id r n).station k).takes = (s.station k).takes.filter (fun t => t.1 != id) ∧
    doneIn ((s.consume p l c id r n).station k) id (max ((s.hop p l).heldSince + c.flits) (s.cycle p)) := by
  obtain ⟨v, hv⟩ : ∃ v, v = (s.setStation k (takenInto (s.station k) pr c r n)).modStation k (fun st => st.dropTake id) :=
    ⟨_, rfl⟩
  have station : v.station k = (takenInto (s.station k) pr c r n).dropTake id := by
    rw [hv, station_modStation_self, station_setStation_self]
  have prog : (v.station k).prog id = some pr := by
    rw [station]
    exact hp
  have cycle : (s.setStation k (takenInto (s.station k) pr c r n)).cycle p = s.cycle p := rfl
  rw [consume_take s p l c id r n hl hp ho]
  dsimp only
  rw [if_pos hr, ← hv, cycle]
  have kept : Keeps Station.takes v ((v.finish k id (max ((s.hop p l).heldSince + c.flits) (s.cycle p))).stall k id 4
      (max ((s.hop p l).heldSince + c.flits) (s.cycle p) - (pr.issueSc + c.flits))) :=
    (finish_keeps v (fun _ _ => rfl) _ _ _).trans (stall_keeps _ (fun _ _ => rfl) _ _ _ _)
  refine ⟨?_, stall_done _ _ _ (finish_done v _ prog)⟩
  rw [kept.2 k, station]
  rfl

/-- A step of a node ends with its input, its output, and the note of a wait. -/
theorem nodeStep_ends (s : State) (p l : Nat) : ∃ b, (s.nodeStep p l).1 =
    (((((s.arriveStep p l).1.passStep p l).1.readStep p l).1.ownStep p l).1.endStep p l).1.noteWait p l b := ⟨_, rfl⟩

theorem free_step (q : Nat) (a b : Hop) (h : HopStep q a b) (ha : a.held = none) : b.held = none := by
  cases h with
  | arrive n =>
    unfold Hop.arriveFlits
    split <;> exact ha
  | taken => rfl
  | pass | free | read | put | own | left | wait => exact ha

theorem endStep_frees (s : State) {p l : Nat} {c : Consist} (hc : (s.hop p l).held = some c)
    (hd : s.inputDone p c (s.hop p l) = true) (hm : (s.hop p l).moving = none) : ((s.endStep p l).1.hop p l).held = none := by
  simp only [State.endStep, hc, hd, if_true, State.modHop, hop_setHop_self, hm]

/-! ### The step that takes it -/

/-- A node at whose input stands the whole of Consist `c`, which a store take has been given and which ends there; its output is free. -/
structure Ready (k p l : Nat) (id : DepId) (first : Nat) (pr : Prog) (c : Consist) (x : State) : Prop where
  number : x.logical p = some k
  prog   : (x.station k).prog id = some pr
  take   : Dep.opcode pr.word = opTake
  held   : (x.hop p l).held = some c
  mode   : (x.hop p l).mode = .given id first
  read   : (x.hop p l).read = 0
  ends   : c.hops ≤ c.dist
  size   : c.size ≠ 0
  came   : (x.hop (prevNode x.flash.retired p l) l).occupied = c.size
  empty  : ∀ q, (x.hop q l).moving = none ∧ (x.hop q l).own = []

section
variable {k p l first : Nat} {id : DepId} {pr : Prog} {c : Consist} {x : State} (hx : Ready k p l id first pr c x)
include hx

theorem Ready.goes : c.goesOn (x.hop p l).mode = false := by
  rw [hx.mode]
  exact decide_eq_false (Nat.not_lt.2 hx.ends)

theorem Ready.arriveStep : (x.arriveStep p l).1 = x := by
  simp only [State.arriveStep, hx.held, State.launchedTo, hx.empty, hx.read, hx.came]
  rw [if_pos]
  split
  · rfl
  · simp only [Option.isSome_none, Bool.false_and, Bool.false_eq_true, if_false]
    omega

theorem Ready.passStep : (x.passStep p l).1 = x := by
  simp only [State.passStep, hx.held, hx.goes]
  rfl

theorem Ready.readCount : readCount x p l c = c.size := by
  have all : x.inAllow p c (x.hop p l).mode = c.size := by
    simp only [State.inAllow, hx.mode, hx.number, Option.bind_some, hx.prog, hx.take]
    rfl
  simp only [Proofs.readCount, hx.goes, all, hx.came, hx.read]
  simp

/-- All flits go to the take, and it is done (R205). -/
theorem Ready.readStep :
    (x.readStep p l).1 = readInto x p l c c.size := by
  have step := readStep_held x p l hx.held (hx.readCount ▸ hx.size)
  rwa [if_neg (by rw [hx.goes]; decide), hx.readCount] at step

/-- The state from which the take reads. -/
theorem Ready.reads : ∃ m : State, (x.readStep p l).1 = m.consume p l c id 0 c.size ∧ m.flash = x.flash ∧ m.stations = x.stations ∧
    m.cycles = x.cycles ∧ ∃ o r, m.hop p l = { x.hop p l with occupied := o, retCred := r, read := c.size } := by
  have step := hx.readStep
  obtain ⟨m, hm⟩ : ∃ m, m = (x.modHop (prevNode x.flash.retired p l) l (fun h => h.readOut c.size)).modHop p l
    (fun h => { h with read := h.read + c.size }) := ⟨_, rfl⟩
  refine ⟨m, ?_, by rw [hm]; rfl, by rw [hm]; rfl, by rw [hm]; rfl, ?_⟩
  · rw [step, hm]
    unfold readInto
    simp only [hx.mode, hx.read]
  · rw [hm, State.modHop, hop_setHop_self, State.modHop, hop_setHop]
    split
    next e =>
      rw [show prevNode x.flash.retired p l = p by omega, Hop.readOut, hx.read, Nat.zero_add]
      exact ⟨_, _, rfl⟩
    · rw [hx.read, Nat.zero_add]
      exact ⟨_, _, rfl⟩

/-- The step of the node gives the take all its flits and frees the input. -/
theorem Ready.nodeStep :
    let z := (x.nodeStep p l).1
    (z.hop p l).held = none ∧ z.cycles = x.cycles ∧ (z.station k).takes = (x.station k).takes.filter (fun t => t.1 != id) ∧
    (z.station k).store = (takenInto (x.station k) pr c 0 c.size).store ∧
    doneIn (z.station k) id (max ((x.hop p l).heldSince + c.flits) (x.cycle p)) := by
  obtain ⟨m, e, flash, stations, cycles, o, r, input⟩ := hx.reads
  obtain ⟨y, hy⟩ : ∃ y, y = m.consume p l c id 0 c.size := ⟨_, rfl⟩
  have number : m.logical p = some k := by rw [State.logical, flash]; exact hx.number
  have station : m.station k = x.station k := by rw [State.station, stations]; rfl
  have prog : (m.station k).prog id = some pr := station ▸ hx.prog
  obtain ⟨takes, done⟩ := consume_done m (l := l) (r := 0) (n := c.size) number prog hx.take (Nat.zero_add _)
  obtain ⟨store, named⟩ := Prod.mk.inj (consume_stored m (l := l) (r := 0) (n := c.size) (c := c) number prog hx.take)
  have off : OffLoop m y := hy ▸ consume_offLoop m p l c id 0 c.size
  have cycles' : y.cycles = m.cycles := hy ▸ consume_cycles m p l c id 0 c.size
  rw [← hy] at e takes done store named
  have here : y.hop p l = { x.hop p l with occupied := o, retCred := r, read := c.size } := (off.hop p l).trans input
  have own : (y.ownStep p l).1 = y := by
    simp only [State.ownStep, here, hx.empty]
  have free : ((y.endStep p l).1.hop p l).held = none := by
    refine endStep_frees y (c := c) ?_ ?_ ?_
    · rw [here]
      exact hx.held
    · have number' : y.logical p = some k := by rw [State.logical, off.2]; exact number
      have word : ((y.station k).prog id).map (fun q => q.word) = some pr.word := by
        rw [word_of_names, named, ← word_of_names, prog]
        rfl
      obtain ⟨pr', hp', hw⟩ := Option.map_eq_some_iff.1 word
      rw [here]
      simp only [State.inputDone, hx.mode, number', Option.bind_some, hp', hw, hx.take]
      simp [opTake, opMma]
    · rw [here]
      exact (hx.empty p).1
  obtain ⟨b, shape⟩ := nodeStep_ends x p l
  rw [hx.arriveStep, hx.passStep, e, own] at shape
  have rest : Keeps (fun st => st) y (x.nodeStep p l).1 := by
    rw [shape]
    exact (endStep_keeps y p l).trans (noteWait_keeps _ p l b)
  refine ⟨?_, rest.1.trans (cycles'.trans cycles), ?_⟩
  · rw [shape]
    refine (noteWait_moves (y.endStep p l).1 p b).inv p (P := fun h => h.held = none) (free_step p) ?_
    exact free
  · rw [show (x.nodeStep p l).1.station k = y.station k from rest.2 k, takes, store, station]
    refine ⟨rfl, rfl, ?_⟩
    rw [input, State.cycle, cycles] at done
    exact done

end

/-! ### And then nothing more -/

/-- The Station has nothing to take on its line, and no departure there waits for its own Consist to leave. -/
structure Still (k p l : Nat) (st : Station) (cycles : Table Nat) (x : State) : Prop where
  only    : ∀ q, x.logical q = some k → q = p
  silent  : ∀ q, Silent (x.hop q l)
  free    : (x.hop p l).held = none
  station : x.station k = st
  cycles  : x.cycles = cycles

theorem Still.nodeStep {k p l : Nat} {st : Station} {cycles : Table Nat} {x : State} (q : Nat) (hx : Still k p l st cycles x) :
    Still k p l st cycles (x.nodeStep q l).1 := by
  have moves := nodeStep_moves (l := l) x q
  have kept : (x.nodeStep q l).1.station k = x.station k ∧ (x.nodeStep q l).1.cycles = x.cycles := by
    rcases nodeStep_stations (f := fun st => st) x q l (.inr (hx.silent q)) with
      same | ⟨c, id, first, n, v, held, mode, within, flash, before, after⟩
    · exact ⟨same.2 k, same.1⟩
    · have elsewhere : v.logical q ≠ some k := fun hq => by
        rw [hx.only q (by rwa [State.logical, flash] at hq), hx.free] at held
        cases held
      refine ⟨(after.2 k).trans ?_, after.1.trans ?_⟩
      · exact (consume_elsewhere v q l c id _ n k elsewhere).trans (before.2 k)
      · exact (consume_cycles v q l c id _ n).trans before.1
  refine ⟨fun i hi => hx.only i ?_, fun i => ?_, ?_, kept.1.trans hx.station, kept.2.trans hx.cycles⟩
  · rwa [State.logical, moves.flash] at hi
  · exact moves.inv i (silent_step i) (hx.silent i)
  · exact moves.inv p (free_step p) hx.free

theorem giving_hops (v : State) (p l : Nat) (id : DepId) (first q : Nat) :
    ((giving v p l id first).hop q l).moving = (v.hop q l).moving ∧ ((giving v p l id first).hop q l).own = (v.hop q l).own ∧
    ((giving v p l id first).hop q l).occupied = (v.hop q l).occupied := by
  rw [(giving_offLoop v p l id first).hop, hop_setHop]
  split
  next e =>
    obtain rfl : q = p := by omega
    exact ⟨rfl, rfl, rfl⟩
  · exact ⟨rfl, rfl, rfl⟩

section
variable {s : State} {k : Fin 128} {j : Fin 4} {t : IssueTick} {h : Head} {c : Consist} (hi : s.issues k j t takeRule h)
  (hc : (s.hop h.p (takeOps h.word).line).held = some c) (hm : (s.hop h.p (takeOps h.word).line).mode = .holding)
  (hr : (s.hop h.p (takeOps h.word).line).read = 0) (hg : c.tag = (takeOps h.word).tag) (hf : c.fmt = (takeOps h.word).fmt)
  (ht : (s.station k).takes = []) (hp : (s.station k).prog (s.depId k j h) = none) (hs : c.size = c.data.length / 256 + 1)
  (hd : c.data.length % 256 = 0) (he : c.hops ≤ c.dist) (hl : ∀ n l, (s.hop n l).moving = none ∧ (s.hop n l).own = [])
  (ho : (s.hop (prevNode s.flash.retired h.p (takeOps h.word).line) (takeOps h.word).line).occupied = c.size)

include hi hc hr hp hs he hl ho in
/-- The state in which the Consist has been given to the take. -/
theorem Listed.ready {v : State} (hv : Listed s k j t h v) :
    let x := giving v h.p (takeOps h.word).line (s.depId k j h) 0
    Ready k h.p (takeOps h.word).line (s.depId k j h) 0 (startedProg s k j t h) c x ∧
    (x.hop h.p (takeOps h.word).line).heldSince = v.cycle h.p := by
  obtain ⟨x, hx⟩ : ∃ x, x = giving v h.p (takeOps h.word).line (s.depId k j h) 0 := ⟨_, rfl⟩
  have off := giving_offLoop v h.p (takeOps h.word).line (s.depId k j h) 0
  have others := giving_hops v h.p (takeOps h.word).line (s.depId k j h) 0
  have station : x.station k = v.station k := hx ▸ giving_station k
  rw [← hx] at off others
  rw [← hx]
  have input : x.hop h.p (takeOps h.word).line =
      { s.hop h.p (takeOps h.word).line with mode := .given (s.depId k j h) 0, heldSince := v.cycle h.p } := by
    rw [off.hop, hop_setHop_self, hv.hop]
  have same : x.flash = v.flash := off.2
  have flash : x.flash = s.flash := same.trans (departed_fields hv.departed).1
  refine ⟨⟨?_, station ▸ hv.prog hp, hi.2.1, ?_, ?_, ?_, he, by omega, ?_, fun q => ?_⟩, ?_⟩
  · rw [State.logical, same]; exact hv.number
  · rw [input]; exact hc
  · rw [input]
  · rw [input]; exact hr
  · rw [(others _).2.2, hv.hop, flash]; exact ho
  · rw [(others _).1, (others _).2.1, hv.hop]; exact hl _ _
  · rw [input]

include hi hc hm hr hg hf ht hp hs hd he hl ho

/-- A Consist that has come whole is written whole, and the take is done after its flits (R205). -/
theorem loopTake_completes :
    ∃ u, exec (.loopTake k j t) s = .next u ∧ u.doneAt k (s.depId k j h) (u.cycle h.p + c.flits) ∧ (u.station k).takes = [] ∧
      (u.hop h.p (takeOps h.word).line).held = none ∧
      (∀ i < c.data.length, memRead (u.station k).store (64 * (takeOps h.word).addr + i) = c.data.getD i 0) ∧
      ∀ a, a < 64 * (takeOps h.word).addr ∨ 64 * (takeOps h.word).addr + c.data.length ≤ a →
        memRead (u.station k).store a = memRead (s.station k).store a := by
  obtain ⟨hv, runs⟩ := loopTake_listed hi
  generalize listed s k j t h = v at hv runs
  rw [Listed.matchHeld hi hc hm hg ht hp hv, if_pos hf] at runs
  obtain ⟨ready, heldSince⟩ := Listed.ready hi hc hr hp hs he hl ho hv
  have station : (giving v h.p (takeOps h.word).line (s.depId k j h) 0).station k = v.station k := giving_station k
  have cycle : (giving v h.p (takeOps h.word).line (s.depId k j h) 0).cycle h.p = v.cycle h.p := giving_keeps.cycle h.p
  have same : (giving v h.p (takeOps h.word).line (s.depId k j h) 0).flash = v.flash := (giving_offLoop v _ _ _ _).2
  generalize giving v h.p (takeOps h.word).line (s.depId k j h) 0 = x at runs ready heldSince station cycle same
  obtain ⟨free, cycles, takes, store, done⟩ := ready.nodeStep
  have first : Still k h.p (takeOps h.word).line ((x.nodeStep h.p (takeOps h.word).line).1.station k) x.cycles
      (x.nodeStep h.p (takeOps h.word).line).1 := by
    have moves := nodeStep_moves (l := (takeOps h.word).line) x h.p
    refine ⟨fun q hq => hv.only q ?_, fun q => moves.inv q (silent_step q) ?_, free, rfl, cycles⟩
    · rwa [State.logical, moves.flash, same] at hq
    · exact ⟨(ready.empty q).2, fun y hy => nomatch (ready.empty q).1.symm.trans hy⟩
  have last := pump_inv_after (fun y q hy => Still.nodeStep q hy) h.p first
  obtain ⟨w, hw⟩ : ∃ w, w = x.pump h.p (takeOps h.word).line := ⟨_, rfl⟩
  rw [← hw] at last runs
  have noted {β : Type} {g : Station → β} (hg : ∀ st y, g { st with lines := y } = g st) :
      Keeps g w (w.note ((s.atIssue h t).station k) k) := note_keeps w hg _ _
  have after := OffLoop.of_atStations (note_atStations w ((s.atIssue h t).station k) k)
  have bytes : ∀ a, memRead ((w.note ((s.atIssue h t).station k) k).station k).store a =
      if 64 * (takeOps h.word).addr ≤ a ∧ a < 64 * (takeOps h.word).addr + c.data.length then
        c.data.getD (a - 64 * (takeOps h.word).addr) 0
      else memRead (s.station k).store a := fun a => by
    rw [(noted (g := Station.store) fun _ _ => rfl).2 k, last.station, store, takenInto_store _ _ _ _ _ _ (by omega), station,
      hv.stores k, show (startedProg s k j t h).word = h.word from rfl]
    rw [show 256 * (0 + c.size - 1) = c.data.length by omega, show 256 * (max 0 1 - 1) = 0 from rfl, Nat.add_zero]
  refine ⟨_, runs, ?_, ?_, ?_, fun i hi => ?_, fun a ha => ?_⟩
  · have cycle' : (w.note ((s.atIssue h t).station k) k).cycle h.p = v.cycle h.p :=
      ((noted (g := fun _ => ()) fun _ _ => rfl).cycle h.p).trans ((congrArg (fun y => tget 0 y h.p) last.cycles).trans cycle)
    have progs : ((w.note ((s.atIssue h t).station k) k).station k).progs = ((x.nodeStep h.p (takeOps h.word).line).1.station k).progs :=
      ((noted (g := Station.progs) fun _ _ => rfl).2 k).trans (congrArg Station.progs last.station)
    rw [heldSince, cycle, Nat.max_eq_left (Nat.le_add_right _ _)] at done
    unfold doneIn at done
    rwa [cycle', State.doneAt, progs]
  · rw [(noted (g := Station.takes) fun _ _ => rfl).2 k, last.station, takes, station, hv.takes, ht]
    simp
  · rw [after.hop]
    exact last.free
  · rw [bytes, if_pos (by omega), Nat.add_sub_cancel_left]
  · rw [bytes, if_neg (by omega)]

end

/-- Settles O36: a send by its own effect; a take by what every step of a node keeps while the Loop moves, and, where the Consist has come
whole and nothing else moves, by the one step that takes it. -/
theorem loopDepartures : Obligations.LoopDepartures := by
  unfold Obligations.LoopDepartures
  refine fun k j t s h => ⟨fun hi => ⟨loopSend_sends hi, loopSend_claims hi⟩, fun hi => ⟨loopTake_waits hi, ?_, ?_, ?_⟩⟩
  · intro c hc hm _ hg hf ht hp hs
    obtain ⟨u, runs, bytes⟩ := loopTake_writes hi hc hm hg ht hp hf hs
    refine ⟨u, runs, fun i _ => ?_, fun a ha => ?_⟩
    · rcases bytes (64 * (takeOps h.word).addr + i) with old | ⟨-, -, new⟩
      · exact .inr old
      · rw [Nat.add_sub_cancel_left] at new
        exact .inl new
    · exact (bytes a).resolve_right fun ⟨low, high, _⟩ => by omega
  · intro c hc hm hr hg hf ht hp hs hd he _ hl ho
    exact loopTake_completes hi hc hm hr hg hf ht hp hs hd he hl ho
  · intro c hc hm hg hf ht hp
    exact loopTake_malformed hi hc hm hg ht hp hf

end Sys2Proof.Proofs
end

section
/-! `GROUP_OPEN` and `GROUP_CLOSE` (R115, R131, R132, R207, R208), and what a departure finds at its issue. -/

namespace Sys2Proof.Proofs

open Sys2Proof Sys2Proof.Machine Sys2Proof.Laws

/-! ### The forms -/

theorem leastOf_none_iff (l : List Nat) : leastOf l = none ↔ l = [] := by
  cases l with
  | nil => simp [leastOf]
  | cons a t =>
    simp only [leastOf, reduceCtorEq, iff_false]
    split <;> simp

/-- A check that gives no reason finds none of its cases. -/
theorem reasonsOf_nil_iff (l : List (Bool × Nat)) : reasonsOf l = [] ↔ ∀ x ∈ l, x.1 = false := by
  simp [reasonsOf, List.filter_eq_nil_iff]

/-- A departure that issues has passed its own form check (R153). -/
theorem form_of_issues {s : State} {k j : Nat} {t : IssueTick} {r : DepRule} {h : Head} (hi : s.issues k j t r h) : r.form k h = [] := by
  obtain ⟨-, -, form, -⟩ := hi
  exact (List.append_eq_nil_iff.1 ((leastOf_none_iff _).1 form)).2

/-- The partner of a cascaded pair is another slot (R116). -/
theorem openForm_partner {d : BitVec 256} (hf : openForm d = []) (hc : (openOps d).cascade = true) :
    (openOps d).partner ≠ (openOps d).slot := by
  have passed := (reasonsOf_nil_iff _).1 hf ((openOps d).cascade && (openOps d).partner == (openOps d).slot, 7) (by simp)
  simpa [hc] using passed

/-! ### The slots and tile rows of a Station -/

section
variable {α : Type} {f : Station → α} (st : Station)

theorem group_setGroup (g i : Nat) (v : Group) : (st.setGroup g v).group i = if i = g then v else st.group i :=
  tget_tset Group.init st.groups g i v

@[simp] theorem group_setGroup_self (g : Nat) (v : Group) : (st.setGroup g v).group g = v := by simp [group_setGroup]

theorem row_setRow (r i : Nat) (v : RowStatus) : (st.setRow r v).row i = if i = r then v else st.row i :=
  tget_tset RowStatus.init st.rows r i v

theorem clearRows_keeps (hf : ∀ st x, f { st with rows := x } = f st) (base count : Nat) : f (st.clearRows base count) = f st :=
  foldl_keeps (fun x => f x = f st) _ (fun x _ hx => (hf x _).trans hx) _ _ rfl

/-- The tile rows of a span read as clear, and the others as before (R131). -/
theorem row_clearRows (base count r : Nat) :
    (st.clearRows base count).row r = if base ≤ r ∧ r < base + count then RowStatus.init else st.row r := by
  unfold Station.clearRows
  induction count with
  | zero => rw [if_neg (by omega)]; rfl
  | succ n ih =>
    rw [List.range_succ, List.foldl_append, List.foldl_cons, List.foldl_nil, Station.clearRow, row_setRow, ih]
    by_cases hr : r = base + n
    · rw [if_pos hr, if_pos (by omega)]
    · rw [if_neg hr]
      exact if_congr (by omega) rfl rfl

end

/-! ### What a departure finds at its issue -/

section
variable (s : State) (k j : Nat) (t : IssueTick) (h : Head)

theorem issuing_cycle : (issuing s k j t h).cycle h.p = (startedProg s k j t h).issueSc :=
  congrArg (fun x => tget 0 x h.p) (issueCommon_stations _ k j h _).2

theorem issuing_inProgress : InProgress ((issuing s k j t h).station k) (startedProg s k j t h).id := by
  rw [issuing_station]
  exact ⟨_, List.mem_append_right _ (List.mem_singleton_self _), rfl⟩

theorem issuing_group (n g : Nat) : ((issuing s k j t h).station n).group g = (s.station n).group g :=
  issuing_keeps (f := fun st => st.group g) (fun _ _ _ _ _ _ _ => rfl) k j t h n

end

/-- Of a departure that does not read the store, no error there is told. -/
theorem issue_unread {s : State} {k j : Nat} {t : IssueTick} {r : DepRule} {h : Head} (hi : s.issues k j t r h)
    (hr : readsStore r.op = false) :
    issue r k j t s = (r.effect (issuing s k j t h) k h (startedProg s k j t h)).note ((s.atIssue h t).station k) k := by
  rw [issue_of_issues hi, if_neg (Bool.eq_false_iff.1 hr)]
  rfl

/-! ### A departure that changes its own Station alone -/

/-- A departure that leaves its Station as `v`. -/
def settled (s : State) (k j : Nat) (t : IssueTick) (h : Head) (v : Station) : State :=
  ((issuing s k j t h).setStation k v).note ((s.atIssue h t).station k) k

/-- A departure that leaves its Station as `v` and is done at cycle `sc`. -/
def completed (s : State) (k j : Nat) (t : IssueTick) (h : Head) (v : Station) (sc : Nat) : State :=
  (((issuing s k j t h).setStation k v).finish k (startedProg s k j t h).id sc).note ((s.atIssue h t).station k) k

section
variable (s : State) (k j : Nat) (t : IssueTick) (h : Head) (v : Station) (sc : Nat) {α : Type} {f : Station → α}

theorem settled_departed : s.departed (settled s k j t h v) :=
  departed_trans (issuing_departed k j t h) ((setStation_atStations _ k v).trans (note_atStations _ _ _)).departed

theorem completed_departed : s.departed (completed s k j t h v sc) :=
  departed_trans (issuing_departed k j t h)
    (((setStation_atStations _ k v).trans (finish_atStations _ _ _ _)).trans (note_atStations _ _ _)).departed

theorem settled_keeps (hl : ∀ st x, f { st with lines := x } = f st) :
    Keeps f ((issuing s k j t h).setStation k v) (settled s k j t h v) := note_keeps _ hl _ _

theorem completed_keeps (hl : ∀ st x, f { st with lines := x } = f st) (hp : ∀ st x, f { st with progs := x } = f st) :
    Keeps f ((issuing s k j t h).setStation k v) (completed s k j t h v sc) :=
  (finish_keeps _ hp _ _ _).trans (note_keeps _ hl _ _)

theorem settled_sees (hl : ∀ st x, f { st with lines := x } = f st) : f ((settled s k j t h v).station k) = f v := by
  rw [(settled_keeps s k j t h v hl).2, station_setStation_self]

theorem completed_sees (hl : ∀ st x, f { st with lines := x } = f st) (hp : ∀ st x, f { st with progs := x } = f st) :
    f ((completed s k j t h v sc).station k) = f v := by
  rw [(completed_keeps s k j t h v sc hl hp).2, station_setStation_self]

theorem settled_sameStores (hv : v.store = ((issuing s k j t h).station k).store) : s.sameStores (settled s k j t h v) :=
  sameStores_trans_keeps (issuing_sameStores k j t h) (Keeps.trans (.setStation _ hv) (settled_keeps s k j t h v fun _ _ => rfl))

theorem completed_sameStores (hv : v.store = ((issuing s k j t h).station k).store) : s.sameStores (completed s k j t h v sc) :=
  sameStores_trans_keeps (issuing_sameStores k j t h)
    (Keeps.trans (.setStation _ hv) (completed_keeps s k j t h v sc (fun _ _ => rfl) (fun _ _ => rfl)))

theorem completed_cycle : (completed s k j t h v sc).cycle h.p = (startedProg s k j t h).issueSc :=
  ((completed_keeps s k j t h v sc (f := fun _ => ()) (fun _ _ => rfl) (fun _ _ => rfl)).cycle h.p).trans (issuing_cycle s k j t h)

theorem completed_doneAt (hv : v.progs = ((issuing s k j t h).station k).progs) :
    (completed s k j t h v sc).doneAt k (s.depId k j h) sc := by
  rw [← startedProg_id]
  refine doneAt_keeps (finish_doneAt sc ?_) (note_keeps _ (fun _ _ => rfl) _ _)
  rw [station_setStation_self]
  exact inProgress_of_progs hv (issuing_inProgress s k j t h)

end

/-! ### `GROUP_OPEN` -/

/-- A Station whose slot, or pair of slots, has been opened (R115, R131, R207). -/
def opened (st : Station) (o : OpenOps) (j sect : Nat) : Station :=
  let st := st.setGroup o.slot (openGroup o j sect false)
  let st := if o.cascade then st.setGroup o.partner (openGroup o j sect true) else st
  let st := if o.clear then st.clearRows o.base o.count else st
  if o.clear && o.cascade then st.clearRows o.partnerBase o.count else st

theorem openEffect_eq (w : State) (k : Nat) (h : Head) (pr : Prog) :
    openEffect w k h pr =
      (w.setStation k (opened (w.station k) (openOps h.word) pr.id.line h.sect)).finish k pr.id (pr.issueSc + 1) := rfl

section
variable (st : Station) (o : OpenOps) (j sect : Nat)

theorem opened_keeps {α : Type} {f : Station → α} (hg : ∀ st x, f { st with groups := x } = f st)
    (hr : ∀ st x, f { st with rows := x } = f st) : f (opened st o j sect) = f st := by
  unfold opened
  extract_lets a b c
  have slot : f a = f st := hg st _
  have pair : f b = f st := by
    unfold b
    split
    · exact (hg a _).trans slot
    · exact slot
  have own : f c = f st := by
    unfold c
    split
    · exact (clearRows_keeps b hr _ _).trans pair
    · exact pair
  split
  · exact (clearRows_keeps c hr _ _).trans own
  · exact own

/-- The slots after the opening. -/
theorem opened_group (g : Nat) : (opened st o j sect).group g =
    if o.cascade ∧ g = o.partner then openGroup o j sect true else if g = o.slot then openGroup o j sect false else st.group g := by
  have kept (x : Station) (b c : Nat) : (x.clearRows b c).group g = x.group g :=
    clearRows_keeps x (f := fun y => y.group g) (fun _ _ => rfl) b c
  unfold opened
  cases o.cascade <;> cases o.clear <;> simp [kept, group_setGroup]

theorem opened_rows_kept (hc : o.clear = false) : (opened st o j sect).rows = st.rows := by
  unfold opened
  cases o.cascade <;> simp [hc, Station.setGroup]

theorem opened_row (hc : o.clear = true) {r : Nat} (hr : o.base ≤ r ∧ r < o.base + o.count) :
    (opened st o j sect).row r = RowStatus.init := by
  unfold opened
  cases o.cascade <;> simp [hc, hr, row_clearRows]

end

section
variable {s : State} {k : Fin 128} {j : Fin 4} {t : IssueTick} {h : Head}

/-- R115, R131, R207: an opening fills the slot's record, clears its tile rows where it asks for that, and is done one cycle later. -/
theorem groupOpen_opens (hi : s.issues k j t openRule h) :
    let o := openOps h.word
    ∃ u, exec (.groupOpen k j t) s = .next u ∧ s.departed u ∧ s.sameStores u ∧
      (u.station k).group o.slot = openGroup o j h.sect false ∧
      (o.cascade = true → (u.station k).group o.partner = openGroup o j h.sect true) ∧
      (∀ g, g ≠ o.slot → (o.cascade = true → g ≠ o.partner) → (u.station k).group g = (s.station k).group g) ∧
      (o.clear = true → ∀ r, o.base ≤ r → r < o.base + o.count → (u.station k).row r = RowStatus.init) ∧
      (o.clear = false → (u.station k).rows = (s.station k).rows) ∧ (u.station k).acc = (s.station k).acc ∧
      u.doneAt k (s.depId k j h) (u.cycle h.p + 1) := by
  intro o
  let v := opened ((issuing s k j t h).station k) o j h.sect
  let sc := (startedProg s k j t h).issueSc + 1
  have runs : exec (.groupOpen k j t) s = .next (completed s k j t h v sc) := congrArg _ (issue_unread hi rfl)
  have sees {β : Type} {f : Station → β} (hl) (hp) := completed_sees s k j t h v sc (f := f) hl hp
  have kept {β : Type} {f : Station → β} (hg) (hr) := opened_keeps ((issuing s k j t h).station k) o j h.sect (f := f) hg hr
  have began {β : Type} {f : Station → β} (hf) : f ((issuing s k j t h).station k) = f (s.station k) :=
    issuing_keeps (f := f) hf k j t h k
  have group (g : Nat) := (sees (f := fun st => st.group g) (fun _ _ => rfl) (fun _ _ => rfl)).trans (opened_group _ o j h.sect g)
  have partner : o.cascade = true → o.partner ≠ o.slot := openForm_partner (form_of_issues hi)
  refine ⟨_, runs, completed_departed s k j t h v sc, ?_, ?_, fun hc => ?_, fun g hs hp => ?_, fun hc r low high => ?_, fun hc => ?_, ?_, ?_⟩
  · exact completed_sameStores s k j t h v sc (kept (fun _ _ => rfl) (fun _ _ => rfl))
  · rw [group, if_neg fun hp => partner hp.1 hp.2.symm, if_pos rfl]
  · rw [group, if_pos ⟨hc, rfl⟩]
  · rw [group, if_neg fun hg => hp hg.1 hg.2, if_neg hs]
    exact issuing_group s k j t h k g
  · exact (sees (f := fun st => st.row r) (fun _ _ => rfl) (fun _ _ => rfl)).trans (opened_row _ o j h.sect hc ⟨low, high⟩)
  · exact ((sees (fun _ _ => rfl) (fun _ _ => rfl)).trans (opened_rows_kept _ o j h.sect hc)).trans (began fun _ _ _ _ _ _ _ => rfl)
  · exact ((sees (fun _ _ => rfl) (fun _ _ => rfl)).trans (kept (fun _ _ => rfl) (fun _ _ => rfl))).trans (began fun _ _ _ _ _ _ _ => rfl)
  · rw [completed_cycle]
    exact completed_doneAt s k j t h v sc (kept (fun _ _ => rfl) (fun _ _ => rfl))

end

/-! ### `GROUP_CLOSE` -/

/-- A Station where one departure more holds the interlock (R130, R132). -/
def interlocked (st : Station) (x : Waiting) : Station := { st with waits := st.waits ++ [x] }

theorem interlocked_keeps {α : Type} {f : Station → α} (hw : ∀ st x, f { st with waits := x } = f st) (st : Station) (x : Waiting) :
    f (interlocked st x) = f st := hw st _

theorem interlocked_waits (st : Station) (x : Waiting) : (interlocked st x).waits = st.waits ++ [x] := rfl

/-- A Station with one of its slots closing (R117, R132). -/
def closing (st : Station) (g : Nat) : Station :=
  (st.enterGroup g 0).setGroup g { (st.enterGroup g 0).group g with closing := true }

section
variable (st : Station) (g : Nat)

theorem quiet_singleton : st.quiet [g] = decide ((st.group g).inFlight = 0) := by
  simp [Station.quiet, Bool.beq_eq_decide_eq]

theorem enterGroup_inFlight (i : Nat) : ((st.enterGroup g 0).group i).inFlight = (st.group i).inFlight := by
  unfold Station.enterGroup
  rw [group_setGroup]
  split
  next e => rw [e]; rfl
  · rfl

theorem closing_group : (closing st g).group g = { (st.enterGroup g 0).group g with closing := true } := group_setGroup_self _ _ _

theorem closing_quiet : (closing st g).quiet [g] = decide ((st.group g).inFlight = 0) := by
  rw [quiet_singleton, closing_group]
  exact congrArg (fun n => decide (n = 0)) (enterGroup_inFlight st g g)

theorem closing_keeps {α : Type} {f : Station → α} (hf : ∀ st x, f { st with groups := x } = f st) : f (closing st g) = f st :=
  (hf _ _).trans (hf st _)

theorem closing_isOpen : ((closing st g).group g).isOpen = (st.group g).isOpen := by
  rw [closing_group, Station.enterGroup, group_setGroup_self]

theorem freeGroup_keeps {α : Type} {f : Station → α} (hf : ∀ st x, f { st with groups := x } = f st) : f (st.freeGroup g) = f st := by
  unfold Station.freeGroup
  dsimp only
  split
  · exact (hf _ _).trans (hf st _)
  · exact hf st _

/-- Of a freed slot nothing is left; another is as it was, or freed as its partner (R132). -/
theorem freeGroup_group (i : Nat) :
    (st.freeGroup g).group i = Group.init ∨ i ≠ g ∧ (st.freeGroup g).group i = st.group i := by
  unfold Station.freeGroup
  dsimp only
  by_cases hg : i = g
  · left
    split <;> simp [group_setGroup, hg]
  · split
    · by_cases hp : i = (st.group g).partner
      · exact .inl (by simp [hp])
      · exact .inr ⟨hg, by simp [group_setGroup, hp, hg]⟩
    · exact .inr ⟨hg, by simp [group_setGroup, hg]⟩

theorem freeGroup_group_self : (st.freeGroup g).group g = Group.init := (freeGroup_group st g g).resolve_right fun h => h.1 rfl

end

theorem closeEffect_eq (w : State) (k : Nat) (h : Head) (pr : Prog) :
    closeEffect w k h pr =
      let g := (closeOps h.word).slot
      let st := w.station k
      if (closing st g).quiet [g] then (w.setStation k ((closing st g).freeGroup g)).finish k pr.id pr.issueSc
      else w.setStation k (interlocked (closing st g) { dep := pr.id, isClose := true, groups := [g], since := pr.issueSc }) := rfl

section
variable {s : State} {k : Fin 128} {j : Fin 4} {t : IssueTick} {h : Head}

/-- At its close a slot has in flight what it had. -/
theorem issuing_closing_quiet (g : Nat) :
    (closing ((issuing s k j t h).station k) g).quiet [g] = decide (((s.station k).group g).inFlight = 0) := by
  rw [closing_quiet, issuing_group]

theorem groupClose_runs (hi : s.issues k j t closeRule h) :
    exec (.groupClose k j t) s =
      .next ((closeEffect (issuing s k j t h) k h (startedProg s k j t h)).note ((s.atIssue h t).station k) k) := by
  have issued := issue_unread hi rfl
  rw [show closeRule.effect = closeEffect from rfl] at issued
  exact congrArg Host.Outcome.next issued

/-- R132: a slot with nothing in flight is freed at once. -/
theorem groupClose_frees (hi : s.issues k j t closeRule h) (hq : ((s.station k).group (closeOps h.word).slot).inFlight = 0) :
    ∃ u, exec (.groupClose k j t) s = .next u ∧ s.departed u ∧ s.sameStores u ∧
      (u.station k).group (closeOps h.word).slot = Group.init ∧ u.doneAt k (s.depId k j h) (u.cycle h.p) := by
  let g := (closeOps h.word).slot
  let c := closing ((issuing s k j t h).station k) g
  let sc := (startedProg s k j t h).issueSc
  have quiet : c.quiet [g] = true := (issuing_closing_quiet g).trans (decide_eq_true hq)
  have runs : exec (.groupClose k j t) s = .next (completed s k j t h (c.freeGroup g) sc) := by
    rw [groupClose_runs hi, closeEffect_eq, if_pos quiet]
    rfl
  have kept {β : Type} {f : Station → β} (hf : ∀ st x, f { st with groups := x } = f st) :
      f (c.freeGroup g) = f ((issuing s k j t h).station k) := (freeGroup_keeps _ g hf).trans (closing_keeps _ g hf)
  refine ⟨_, runs, completed_departed s k j t h _ sc, completed_sameStores s k j t h _ sc (kept fun _ _ => rfl), ?_, ?_⟩
  · exact (completed_sees s k j t h _ sc (f := fun st => st.group g) (fun _ _ => rfl) (fun _ _ => rfl)).trans (freeGroup_group_self c g)
  · rw [completed_cycle]
    exact completed_doneAt s k j t h _ sc (kept fun _ _ => rfl)

/-- R132: one with rows in flight holds the interlock. -/
theorem groupClose_waits (hi : s.issues k j t closeRule h) (hq : ((s.station k).group (closeOps h.word).slot).inFlight ≠ 0) :
    ∃ u, exec (.groupClose k j t) s = .next u ∧ s.departed u ∧ s.sameStores u ∧
      ((u.station k).group (closeOps h.word).slot).closing = true ∧
      ((u.station k).group (closeOps h.word).slot).isOpen = ((s.station k).group (closeOps h.word).slot).isOpen ∧
      ∃ w, (u.station k).waits = (s.station k).waits ++ [w] ∧ w.dep = s.depId k j h ∧ w.isClose = true ∧
        w.groups = [(closeOps h.word).slot] := by
  let g := (closeOps h.word).slot
  let st := (issuing s k j t h).station k
  let x : Waiting := { dep := (startedProg s k j t h).id, isClose := true, groups := [g], since := (startedProg s k j t h).issueSc }
  let v := interlocked (closing st g) x
  have busy : (closing st g).quiet [g] = false := (issuing_closing_quiet g).trans (decide_eq_false hq)
  have runs : exec (.groupClose k j t) s = .next (settled s k j t h v) := by
    rw [groupClose_runs hi, closeEffect_eq, if_neg (Bool.eq_false_iff.1 busy)]
    rfl
  have group : ((settled s k j t h v).station k).group g = (closing st g).group g :=
    (settled_sees s k j t h v (f := fun st => st.group g) fun _ _ => rfl).trans (interlocked_keeps (f := fun st => st.group g) (fun _ _ => rfl) _ x)
  refine ⟨_, runs, settled_departed s k j t h v, settled_sameStores s k j t h v ?_, ?_, ?_, x, ?_, startedProg_id k j t h, rfl, rfl⟩
  · exact (interlocked_keeps (fun _ _ => rfl) _ x).trans (closing_keeps st g fun _ _ => rfl)
  · rw [group, closing_group]
  · rw [group, closing_isOpen, issuing_group]
  · rw [settled_sees s k j t h v (f := Station.waits) fun _ _ => rfl, interlocked_waits, closing_keeps (f := Station.waits) st g fun _ _ => rfl]
    exact congrArg (· ++ [x]) (issuing_keeps (f := Station.waits) (fun _ _ _ _ _ _ _ => rfl) k j t h k)

end

/-- Settles O37: an opening or a close changes its Station once, and what follows sees only lines and departures. -/
theorem groupDepartures : Obligations.GroupDepartures := by
  unfold Obligations.GroupDepartures
  exact fun k j t s h => ⟨groupOpen_opens, fun hi => ⟨groupClose_frees hi, groupClose_waits hi⟩⟩

end Sys2Proof.Proofs
end

section
/-! What the drain path does to a Station (R213 to R224): the extent that its rows and its reduction results stay within, and what it
leaves as it is. -/

namespace Sys2Proof.Proofs

open Sys2Proof Sys2Proof.Machine Sys2Proof.Laws

/-! ### Extents of the store -/

/-- From `st` to `x` no byte of the store has changed outside [lo, hi). -/
def WritesIn (lo hi : Nat) (st x : Station) : Prop := ∀ a, a < lo ∨ hi ≤ a → memRead x.store a = memRead st.store a

section
variable {lo hi : Nat} {st x y : Station}

theorem WritesIn.of_store (h : x.store = st.store) : WritesIn lo hi st x := fun a _ => by rw [h]

theorem WritesIn.trans (h : WritesIn lo hi st x) (k : WritesIn lo hi x y) : WritesIn lo hi st y := fun a ha => (k a ha).trans (h a ha)

theorem WritesIn.mono {lo' hi' : Nat} (h : WritesIn lo hi st x) (hl : lo' ≤ lo) (hh : hi ≤ hi') : WritesIn lo' hi' st x :=
  fun a ha => h a (by omega)

theorem storeWrite_writesIn (st : Station) {a : Nat} {bs : List Byte} (bad : Nat → Bool) (hl : lo ≤ a) (hh : a + bs.length ≤ hi) :
    WritesIn lo hi st (st.storeWrite a bs bad) := fun b hb => by
  rw [Station.storeWrite, memRead_writeBytes, if_neg (by omega)]

end

/-! ### One row -/

/-- A descriptor names the unscaled ZF12 format, whose rows lie six granules apart, by one code alone (R34, R60). -/
theorem ofDesc_zf12 {d : Nat} {f : Fmt} (hd : d < 256) (hf : Fmt.ofDesc d = some f) : f.elem = .zf12 ↔ d = 0x0F := by
  have codes : ∀ d : Fin 256, ∀ f ∈ Fmt.ofDesc d, f.elem = .zf12 ↔ d.val = 0x0F := by decide +kernel
  exact codes ⟨d, hd⟩ f hf

theorem zf12Bytes_length (n : Nat) (cs : List Nat) : (zf12Bytes n cs).length ≤ 12 * n := by
  induction n generalizing cs with
  | zero => simp [zf12Bytes]
  | succ n ih =>
    unfold zf12Bytes
    split
    · simp
    · have rest := ih (cs.drop 8)
      simp only [List.length_append, zf12Group, List.length_map, List.length_range]
      omega

/-- The granules of a record hold its bytes (R47). -/
theorem recGran_bytes {d : Nat} {f : Fmt} (hf : Fmt.ofDesc d = some f) : 64 * recGran d = 256 * f.rowBytes + 256 * f.blocks := by
  simp only [recGran, hf, Fmt.recordGran, Fmt.recordBytes]
  omega

/-- Row i of n lies in the record of its 256 rows, and that record among those of the n rows (R213). -/
theorem record_within (i n r : Nat) (hi : i < n) : i / 256 * r + r ≤ ceilDiv n 256 * r := by
  have records : i / 256 + 1 ≤ ceilDiv n 256 := by unfold ceilDiv; omega
  calc i / 256 * r + r = (i / 256 + 1) * r := (Nat.succ_mul _ _).symm
    _ ≤ ceilDiv n 256 * r := Nat.mul_le_mul_right r records

/-- The rows of a record are as many parts of it. -/
theorem row_within (i b : Nat) : i % 256 * b + b ≤ 256 * b :=
  calc i % 256 * b + b = (i % 256 + 1) * b := (Nat.succ_mul _ _).symm
    _ ≤ 256 * b := Nat.mul_le_mul_right b (Nat.mod_lt i (by decide))

/-- Output row i of n is written in the extent of the n rows (R60, R213). -/
theorem writeRow_writesIn (st : Station) {d : Nat} {f : Fmt} (dst : Nat) {i n : Nat} (c : RowCodes) (bad : List Bool) (hd : d < 256)
    (hf : Fmt.ofDesc d = some f) (hi : i < n) : WritesIn (64 * dst) (64 * (dst + rowsGran d n)) st (st.writeRow f dst i c bad) := by
  unfold Station.writeRow
  split
  next hz =>
    have size := zf12Bytes_length 32 c.codes
    rw [rowsGran, if_pos ((ofDesc_zf12 hd hf).1 hz)]
    exact storeWrite_writesIn st _ (by omega) (by omega)
  next hz =>
    have gran : 64 * (dst + rowsGran d n) = 64 * dst + ceilDiv n 256 * (256 * f.rowBytes + 256 * f.blocks) := by
      rw [rowsGran, if_neg fun e => hz ((ofDesc_zf12 hd hf).2 e), Nat.mul_add, ← recGran_bytes hf, Nat.mul_left_comm]
    have record := record_within i n (256 * f.rowBytes + 256 * f.blocks) hi
    have row := row_within i f.rowBytes
    have scales := row_within i f.blocks
    have codes := storeWrite_writesIn (lo := 64 * dst) (hi := 64 * (dst + rowsGran d n)) st
      (a := 64 * dst + i / 256 * f.recordBytes + i % 256 * f.rowBytes) (bs := leBytes f.rowBytes (packCodes f.elem.bits c.codes))
      (rowBadGranules false (64 * dst + i / 256 * f.recordBytes + i % 256 * f.rowBytes) f.elem.bits bad).contains (by omega)
      (by rw [leBytes_length, gran, Fmt.recordBytes]; omega)
    dsimp only
    split
    · refine codes.trans (storeWrite_writesIn _ _ (by omega) ?_)
      have few : ((c.scales.take f.blocks).map (fun x => BitVec.ofNat 8 x)).length ≤ f.blocks := by
        rw [List.length_map, List.length_take]
        exact Nat.min_le_left _ _
      rw [gran, Fmt.recordBytes]
      omega
    · exact codes

theorem writeRow_keeps {α : Type} {g : Station → α} (hg : ∀ st x y, g { st with store := x, storePoison := y } = g st) (st : Station)
    (f : Fmt) (dst i : Nat) (c : RowCodes) (bad : List Bool) : g (st.writeRow f dst i c bad) = g st := by
  unfold Station.writeRow
  split
  · exact hg st _ _
  · dsimp only
    split
    · exact (hg _ _ _).trans (hg st _ _)
    · exact hg st _ _

/-! ### Reduction results -/

/-- A result vector of n values takes 8 or 4 bytes for each (R224). -/
theorem writeVector_writesIn (st : Station) (gran : Nat) (r64 : Bool) (xs : List PVal) :
    WritesIn (64 * gran) (64 * gran + xs.length * (if r64 then 8 else 4)) st (st.writeVector gran r64 xs) := by
  refine storeWrite_writesIn st _ (Nat.le_refl _) ?_
  cases r64 <;> simp [Elem.bits, Nat.mul_comm]

theorem writeVector_keeps {α : Type} {g : Station → α} (hg : ∀ st x y, g { st with store := x, storePoison := y } = g st) (st : Station)
    (gran : Nat) (r64 : Bool) (xs : List PVal) : g (st.writeVector gran r64 xs) = g st := hg st _ _

theorem reduceRows_length (code : Nat) (cols sample : Bool) (rows : List (List PVal)) :
    (reduceRows code cols sample rows).length = if cols then rows.length else 256 := by
  cases cols <;> simp [reduceRows]

/-- The granules of a vector hold its bytes. -/
theorem redVecGran_bytes (cols r64 : Bool) (n : Nat) :
    (if cols then n else 256) * (if r64 then 8 else 4) ≤ 64 * redVecGran cols r64 n := by
  unfold redVecGran ceilDiv
  omega

/-- The vectors of a reduction are written one behind the other (R224). -/
theorem writeReduction_writesIn (st : Station) (gran code : Nat) (cols sample r64 : Bool) (rows : List (List PVal)) :
    WritesIn (64 * gran) (64 * (gran + redVectors code * redVecGran cols r64 rows.length)) st
      (st.writeReduction gran code cols sample r64 rows) := by
  unfold Station.writeReduction
  dsimp only
  suffices h : ∀ m, m ≤ redVectors code → WritesIn (64 * gran) (64 * (gran + m * redVecGran cols r64 rows.length)) st
      ((List.range m).foldl (fun st v => st.writeVector (gran + v * redVecGran cols r64 rows.length) r64
        ((reduceRows code cols sample rows).map (fun q => (q.1.getD v .zero, q.2)))) st) from h _ (Nat.le_refl _)
  intro m
  induction m with
  | zero => exact fun _ => .of_store rfl
  | succ m ih =>
    intro hm
    rw [List.range_succ, List.foldl_append, List.foldl_cons, List.foldl_nil]
    have next : (m + 1) * redVecGran cols r64 rows.length = m * redVecGran cols r64 rows.length + redVecGran cols r64 rows.length :=
      Nat.succ_mul _ _
    refine ((ih (Nat.le_of_succ_le hm)).mono (Nat.le_refl _) (by omega)).trans ((writeVector_writesIn _ _ _ _).mono (by omega) ?_)
    have bytes := redVecGran_bytes cols r64 rows.length
    rw [List.length_map, reduceRows_length]
    omega

theorem writeReduction_keeps {α : Type} {g : Station → α} (hg : ∀ st x y, g { st with store := x, storePoison := y } = g st)
    (st : Station) (gran code : Nat) (cols sample r64 : Bool) (rows : List (List PVal)) :
    g (st.writeReduction gran code cols sample r64 rows) = g st :=
  foldl_keeps (fun x => g x = g st) _ (fun x _ hx => (writeVector_keeps hg x _ _ _).trans hx) _ _ rfl

/-! ### The stores of the module -/

section
variable {s t u : State} {k g n : Nat}

theorem storesIn_trans (h : s.storesIn t k g n) (i : t.storesIn u k g n) : s.storesIn u k g n :=
  ⟨fun j hj => (i.1 j hj).trans (h.1 j hj), fun a ha => (i.2 a ha).trans (h.2 a ha)⟩

theorem storesIn_of_sameStores (h : s.sameStores t) : s.storesIn t k g n :=
  ⟨fun j _ => h j, fun a _ => by rw [h k]⟩

theorem storesIn_of_keeps (h : Keeps Station.store s t) : s.storesIn t k g n := storesIn_of_sameStores h.2

theorem storesIn_modStation (s : State) {f : Station → Station} {lo hi : Nat} (h : ∀ st, WritesIn lo hi st (f st)) (hl : 64 * g ≤ lo)
    (hh : hi ≤ 64 * (g + n)) : s.storesIn (s.modStation k f) k g n := by
  refine ⟨fun j hj => by rw [station_modStation, if_neg hj], fun a ha => ?_⟩
  rw [station_modStation_self]
  exact h _ a (by omega)

theorem storesIn_mono {g' n' : Nat} (h : s.storesIn t k g n) (hl : g' ≤ g) (hh : g + n ≤ g' + n') : s.storesIn t k g' n' :=
  ⟨h.1, fun a ha => h.2 a (by omega)⟩

/-- Two extents that follow each other are one. -/
theorem storesIn_append {m : Nat} (h : s.storesIn t k g m) (i : t.storesIn u k (g + m) n) : s.storesIn u k g (m + n) := by
  refine storesIn_trans (storesIn_mono h (Nat.le_refl g) ?_) (storesIn_mono i ?_ ?_) <;> omega

end

/-! ### Rows of values -/

section
variable {α : Type} {f : Station → α} (s : State)

theorem outRow_keeps (hf : ∀ st x y, f { st with store := x, storePoison := y } = f st) (k : Nat) (o : OutFmt) (row off : Nat)
    (xs : List PVal) : Keeps f s (s.outRow k o row off xs) := by
  unfold State.outRow
  split
  · exact ((Keeps.modStation s fun st => writeRow_keeps hf st _ _ _ _ _).trans (bump_keeps _ _ _ _)).trans (bump_keeps _ _ _ _)
  · exact .refl s

/-- Row `row` of n goes into the extent of the n rows (R213). -/
theorem outRow_storesIn (k : Nat) (o : OutFmt) {row n : Nat} (off : Nat) (xs : List PVal) (hd : o.desc < 256) (hr : row < n) :
    s.storesIn (s.outRow k o row off xs) k o.dst (rowsGran o.desc n) := by
  unfold State.outRow
  split
  next hf _ =>
    refine storesIn_trans (storesIn_modStation s (fun st => ?_) (Nat.le_refl _) (Nat.le_refl _))
      (storesIn_of_keeps ((bump_keeps _ _ _ _).trans (bump_keeps _ _ _ _)))
    exact writeRow_writesIn st o.dst _ _ hd hf hr
  · exact storesIn_of_keeps (.refl s)

/-- n rows go into their extent, whatever each is. -/
theorem outRows_storesIn (k n : Nat) (o : OutFmt) (off : Nat → Nat) (xs : Nat → List PVal) (hd : o.desc < 256) :
    s.storesIn ((List.range n).foldl (fun x i => x.outRow k o i (off i) (xs i)) s) k o.dst (rowsGran o.desc n) := by
  suffices h : ∀ m, m ≤ n →
      s.storesIn ((List.range m).foldl (fun x i => x.outRow k o i (off i) (xs i)) s) k o.dst (rowsGran o.desc n) from h n (Nat.le_refl n)
  intro m
  induction m with
  | zero => exact fun _ => storesIn_of_keeps (.refl s)
  | succ m ih =>
    intro hm
    rw [List.range_succ, List.foldl_append, List.foldl_cons, List.foldl_nil]
    exact storesIn_trans (ih (Nat.le_of_succ_le hm)) (outRow_storesIn _ k o _ _ hd hm)

theorem outRows_keeps (hf : ∀ st x y, f { st with store := x, storePoison := y } = f st) (k n : Nat) (o : OutFmt) (off : Nat → Nat)
    (xs : Nat → List PVal) : Keeps f s ((List.range n).foldl (fun x i => x.outRow k o i (off i) (xs i)) s) :=
  .foldl s (fun x i => outRow_keeps x hf k o i _ _) _

end

/-! ### Reads of the accumulators -/

section
variable {α : Type} {f : Station → α} (s : State) (hf : ∀ st x y, f { st with acc := x, accPoison := y } = f st)

theorem accReport_stopped (k p r col : Nat) : Stopped s (s.accReport k p r col) :=
  (bump_logged s _ _ _).stopped.trans (flowingError_stopped _ _)

include hf

theorem accError_keeps (k p kind r : Nat) (e : AccError) : Keeps f s (s.accError k p kind r e) := by
  unfold State.accError
  dsimp only
  split
  · exact .refl s
  · split
    · exact bump_keeps s _ _ _
    · exact (Keeps.setStation s (hf _ _ _)).trans (.of_stopped (accReport_stopped _ _ _ _ _))

theorem accErrors_keeps (k p kind : Nat) (rows : List Nat) (errs : List AccError) : Keeps f s (s.accErrors k p kind rows errs) :=
  .foldl s (fun x r => .foldl x (fun y e => accError_keeps y hf k p kind r e) _) _

theorem drainErrors_keeps (k p : Nat) (groups : List Nat) (off n : Nat) (errs : List AccError) :
    Keeps f s (s.drainErrors k p groups off n errs) :=
  .foldl s (fun x _ => accErrors_keeps x hf _ _ _ _ _) _

end

theorem clearDrained_keeps {α : Type} {f : Station → α} (hf : ∀ st x, f { st with rows := x } = f st) (st : Station) (g : Group)
    (off n : Nat) : f (st.clearDrained g off n) = f st := by
  unfold Station.clearDrained
  dsimp only
  split
  · exact (clearRows_keeps _ hf _ _).trans (clearRows_keeps st hf _ _)
  · exact clearRows_keeps st hf _ _

theorem drainClear_keeps {α : Type} {f : Station → α} (hf : ∀ st x, f { st with rows := x } = f st) (st : Station) (o : DrainOps)
    (groups : List Nat) (n : Nat) : f (st.drainClear o groups n) = f st := by
  unfold Station.drainClear
  split
  · exact foldl_keeps (fun x => f x = f st) _ (fun x _ hx => (clearDrained_keeps hf x _ _ _).trans hx) _ _ rfl
  · rfl

/-! ### The schedule -/

section
variable {α : Type} {f : Station → α} (s : State) (k p : Nat) (pr : Prog) (t : Nat) (b : Station) (q : DrainPace)

/-- The books of the drain path after a departure has been scheduled. -/
def booked (st : Station) (free last : Nat) (r : DrainRun) : Station :=
  { st with drainFree := free, drainLast := last, runs := st.runs ++ [r] }

theorem booked_keeps (hd : ∀ st x a b, f { st with runs := x, drainFree := a, drainLast := b } = f st) (st : Station) (free last : Nat)
    (r : DrainRun) : f (booked st free last r) = f st := hd st _ _ _

theorem pathLatency_pos : 0 < s.pathLatency := by
  unfold State.pathLatency State.drainLatency
  split
  · split <;> split <;> decide
  · split <;> decide

theorem run_start : (q.run pr.id t b).start = t := by
  have yielded (r : DrainRun) (scs : List Nat) : (r.yieldIn scs).start = r.start :=
    foldl_keeps (fun x : DrainRun => x.start = r.start) _ (fun x sc hx => by split <;> exact hx) _ _ rfl
  exact yielded _ _

/-- A schedule books a run, completes its departure at one cycle after `t`, and charges stalls (R216 to R218). -/
theorem schedule_eq : ∃ free last done busy yields a c d, t < done ∧
    s.schedule k p pr t b q =
      (((((((s.setStation k (booked (s.station k) free last (q.run pr.id t b))).bump .vecFeedYield p yields).bump
        .drainPathBusy p busy).finish k pr.id done).stall k pr.id 8 a).stall k pr.id 3 c).stall k pr.id 7 d) := by
  unfold State.schedule
  extract_lets r last done first st shift busy st' v w
  refine ⟨last + 1, done + shift, done + shift, busy, r.yields, t - pr.issueSc, r.yields + shift, _, ?_, rfl⟩
  have latency := pathLatency_pos s
  have reads : t ≤ last := by
    rw [← run_start pr t b q]
    exact Nat.le_trans (Nat.le_trans (Nat.le_add_right _ _) (Nat.le_add_right _ _)) (Nat.le_add_right _ _)
  omega

theorem schedule_keeps (hp : ∀ st x, f { st with progs := x } = f st)
    (hd : ∀ st x a b, f { st with runs := x, drainFree := a, drainLast := b } = f st) : Keeps f s (s.schedule k p pr t b q) := by
  obtain ⟨free, last, done, busy, yields, a, c, d, -, e⟩ := schedule_eq s k p pr t b q
  rw [e]
  refine Keeps.trans ?_ (stall_keeps _ hp _ _ _ _)
  refine Keeps.trans ?_ (stall_keeps _ hp _ _ _ _)
  refine Keeps.trans ?_ (stall_keeps _ hp _ _ _ _)
  refine Keeps.trans ?_ (finish_keeps _ hp _ _ _)
  exact ((Keeps.setStation s (booked_keeps hd _ _ _ _)).trans (bump_keeps _ _ _ _)).trans (bump_keeps _ _ _ _)

/-- R218: a scheduled departure is done after it began. -/
theorem schedule_doneAt (h : InProgress (s.station k) pr.id) : ∃ sc, t < sc ∧ (s.schedule k p pr t b q).doneAt k pr.id sc := by
  obtain ⟨free, last, done, busy, yields, a, c, d, late, e⟩ := schedule_eq s k p pr t b q
  rw [e]
  obtain ⟨v, hv⟩ : ∃ v, v = ((s.setStation k (booked (s.station k) free last (q.run pr.id t b))).bump .vecFeedYield p yields).bump
      .drainPathBusy p busy := ⟨_, rfl⟩
  have books : Keeps Station.progs s v := by
    rw [hv]
    exact ((Keeps.setStation s (booked_keeps (fun _ _ _ _ => rfl) _ _ _ _)).trans (bump_keeps _ _ _ _)).trans (bump_keeps _ _ _ _)
  rw [← hv]
  have finished : doneIn ((v.finish k pr.id done).station k) pr.id done := finish_doneAt done (inProgress_of_progs (books.2 k) h)
  exact ⟨done, late, stall_done _ _ _ (stall_done _ _ _ (stall_done _ _ _ finished))⟩

end

end Sys2Proof.Proofs
end

section
/-! `DRAIN` and `DRAIN_CPLX` (R130, R213, R216, R221, R226). -/

namespace Sys2Proof.Proofs

open Sys2Proof Sys2Proof.Machine Sys2Proof.Laws

/-! ### A drain runs -/

/-- `f` sees neither what a drain writes in its Station's memories nor the books of the drain path. -/
structure DrainBlind {α : Type} (f : Station → α) : Prop where
  store : ∀ st x y, f { st with store := x, storePoison := y } = f st
  acc   : ∀ st x y, f { st with acc := x, accPoison := y } = f st
  rows  : ∀ st x, f { st with rows := x } = f st
  progs : ∀ st x, f { st with progs := x } = f st
  books : ∀ st x a b, f { st with runs := x, drainFree := a, drainLast := b } = f st

/-- Departure `id` of Station k has drained from cycle `t` on: it has written the `n` granules from `g` alone, it completes after it
began, and what no drain touches stands. -/
structure Drained (s u : State) (k : Nat) (id : DepId) (t g n : Nat) : Prop where
  stores : s.storesIn u k g n
  kept   : ∀ {α : Type} {f : Station → α}, DrainBlind f → Keeps f s u
  done   : InProgress (s.station k) id → ∃ sc, t < sc ∧ u.doneAt k id sc

theorem drainBlind_waits : DrainBlind Station.waits :=
  { store := fun _ _ _ => rfl, acc := fun _ _ _ => rfl, rows := fun _ _ => rfl, progs := fun _ _ => rfl, books := fun _ _ _ _ => rfl }

theorem drainBlind_const : DrainBlind (fun _ : Station => ()) :=
  { store := fun _ _ _ => rfl, acc := fun _ _ _ => rfl, rows := fun _ _ => rfl, progs := fun _ _ => rfl, books := fun _ _ _ _ => rfl }

/-- A descriptor field has eight bits. -/
theorem drainOps_ofmt (d : BitVec 256) : (drainOps d).ofmt < 256 := Nat.mod_lt _ (by decide)

section
variable {α : Type} {f : Station → α} (s : State)

/-- The values of a drain go into its extent for values (R213, R221). -/
theorem drainValues_storesIn (k n : Nat) (o : DrainOps) (hd : o.ofmt < 256) :
    s.storesIn (s.drainValues k n o) k o.dst (if o.outEn then rowsGran o.ofmt n else 0) := by
  unfold State.drainValues
  extract_lets st rows params v
  have marked : Keeps Station.store s v := runBad_keeps s _
  split
  · exact storesIn_trans (storesIn_of_keeps marked) (outRows_storesIn v k n ⟨o.ofmt, o.round, o.isat, o.dst⟩ _ _ hd)
  · exact storesIn_of_keeps marked

theorem drainValues_keeps (hf : ∀ st x y, f { st with store := x, storePoison := y } = f st) (k n : Nat) (o : DrainOps) :
    Keeps f s (s.drainValues k n o) := by
  unfold State.drainValues
  extract_lets st rows params v
  split
  · exact (runBad_keeps s _).trans (outRows_keeps v hf k n _ _ _)
  · exact runBad_keeps s _

/-- The real and the imaginary rows of a `DRAIN_CPLX` go into its extent, one half each (R226). -/
theorem cplxValues_storesIn (k n : Nat) (o : DrainOps) (hd : o.ofmt < 256) (hn : n = o.nrows) :
    s.storesIn (s.cplxValues k n o) k o.dst (2 * rowsGran o.ofmt n) := by
  subst hn
  unfold State.cplxValues
  extract_lets st g kind row comb any3 mark out imag v w
  have real : v.storesIn w k o.dst (rowsGran o.ofmt o.nrows) := outRows_storesIn v k o.nrows out _ _ hd
  have imaginary : w.storesIn _ k (o.dst + rowsGran o.ofmt o.nrows) (rowsGran o.ofmt o.nrows) :=
    outRows_storesIn w k o.nrows imag (fun u => o.nrows + u) (fun u => mark u (comb false (row 0 u) (row 1 u))) hd
  rw [Nat.two_mul]
  exact storesIn_trans (storesIn_of_keeps (runBad_keeps s _)) (storesIn_append real imaginary)

theorem cplxValues_keeps (hf : ∀ st x y, f { st with store := x, storePoison := y } = f st) (k n : Nat) (o : DrainOps) :
    Keeps f s (s.cplxValues k n o) := by
  unfold State.cplxValues
  extract_lets st g kind row comb any3 mark out imag v w
  exact ((runBad_keeps s _).trans (outRows_keeps v hf k n out _ _)).trans (outRows_keeps w hf k n imag _ _)

end

section
variable (s : State) (k p : Nat) (pr : Prog) (t : Nat) (errs : List AccError)

/-- The end of a drain: the rows that it has read are cleared, the rows counted, and the departure scheduled. -/
theorem drainEnd {w : State} {g n : Nat} (o : DrainOps) (groups : List Nat) (rows count : Nat) (b : Station) (q : DrainPace)
    (hs : s.storesIn w k g n) (hk : ∀ {α : Type} {f : Station → α}, (∀ st x y, f { st with store := x, storePoison := y } = f st) →
      (∀ st x y, f { st with acc := x, accPoison := y } = f st) → Keeps f s w) :
    Drained s (((w.modStation k (fun x => x.drainClear o groups rows)).bump .drainRows p count).schedule k p pr t b q) k pr.id t g n := by
  have ended {β : Type} {f : Station → β} (hr : ∀ st x, f { st with rows := x } = f st) :
      Keeps f w ((w.modStation k (fun x => x.drainClear o groups rows)).bump .drainRows p count) :=
    (Keeps.modStation w fun st => drainClear_keeps hr st o groups rows).trans (bump_keeps _ _ _ _)
  refine ⟨?_, fun hf => ?_, fun h => schedule_doneAt _ k p pr t b q ?_⟩
  · refine storesIn_trans hs (storesIn_of_keeps ((ended fun _ _ => rfl).trans (schedule_keeps _ k p pr t b q ?_ ?_))) <;> intros <;> rfl
  · exact ((hk hf.store hf.acc).trans (ended hf.rows)).trans (schedule_keeps _ k p pr t b q hf.progs hf.books)
  · refine inProgress_of_progs (((hk ?_ ?_).trans (ended fun _ _ => rfl)).2 k) h <;> intros <;> rfl

/-- R220 to R224: a drain writes its values and then its reduction results. -/
theorem runDrain_drains : Drained s (s.runDrain k p pr t errs) k pr.id t (drainOps pr.word).dst
    ((drainOps pr.word).valueGran + (drainOps pr.word).redGran) := by
  unfold State.runDrain
  extract_lets o b v st g into w x
  have reads {β : Type} {f : Station → β} (ha) : Keeps f s v := drainErrors_keeps s ha k p [o.group] o.rowOff o.nrows errs
  have rows : into.length = o.nrows := by simp [into, DrainOps.rowsOf]
  have values : v.storesIn w k o.dst o.valueGran := drainValues_storesIn v k o.nrows o (drainOps_ofmt _)
  have results : w.storesIn x k (o.dst + o.valueGran) o.redGran := by
    refine storesIn_modStation w (fun st => writeReduction_writesIn st _ _ _ _ _ _) (Nat.le_refl _) ?_
    rw [rows]
    rfl
  refine drainEnd s k p pr t o [o.group] o.nrows _ b _ ?_ fun hs ha => ?_
  · exact storesIn_trans (storesIn_of_keeps (reads fun _ _ _ => rfl)) (storesIn_append values results)
  · exact ((reads ha).trans (drainValues_keeps v hs k o.nrows o)).trans (.modStation w fun st => writeReduction_keeps hs st _ _ _ _ _ _)

/-- R226: a `DRAIN_CPLX` writes its real and then its imaginary rows. -/
theorem runDrainCplx_drains : Drained s (s.runDrainCplx k p pr t errs) k pr.id t (drainOps pr.word).dst
    (2 * rowsGran (drainOps pr.word).ofmt (drainOps pr.word).nrows) := by
  unfold State.runDrainCplx
  extract_lets o groups b v w
  have reads {β : Type} {f : Station → β} (ha) : Keeps f s v := drainErrors_keeps s ha k p groups o.rowOff o.nrows errs
  refine drainEnd s k p pr t o groups o.nrows _ b _ ?_ fun hs ha => (reads ha).trans (cplxValues_keeps v hs k o.nrows o)
  exact storesIn_trans (storesIn_of_keeps (reads fun _ _ _ => rfl)) (cplxValues_storesIn v k o.nrows o (drainOps_ofmt _) rfl)

end

/-! ### A drain at its issue -/

/-- A Station with a drain of groups `gs` entered in them (R117, R208). -/
def enterAll (st : Station) (gs : List Nat) : Station := gs.foldl (fun st g => st.enterGroup g 0) st

theorem enterAll_keeps {α : Type} {f : Station → α} (hf : ∀ st x, f { st with groups := x } = f st) (st : Station) (gs : List Nat) :
    f (enterAll st gs) = f st := foldl_keeps (fun x => f x = f st) _ (fun x _ hx => (hf x _).trans hx) _ _ rfl

theorem enterAll_inFlight (st : Station) (gs : List Nat) (i : Nat) : ((enterAll st gs).group i).inFlight = (st.group i).inFlight :=
  foldl_keeps (fun x : Station => (x.group i).inFlight = (st.group i).inFlight) _
    (fun x g hx => (enterGroup_inFlight x g i).trans hx) _ _ rfl

theorem quiet_congr {st x : Station} (h : ∀ i, (x.group i).inFlight = (st.group i).inFlight) (gs : List Nat) : x.quiet gs = st.quiet gs := by
  simp only [Station.quiet, h]

/-- The state in which a drain of groups `gs` has issued. -/
def draining (s : State) (k j : Nat) (t : IssueTick) (h : Head) (bad gs : List Nat) : State :=
  ((issuing s k j t h).storeErrors k j h.sect h.index bad).modStation k (fun st => enterAll st gs)

section
variable (s : State) (k j : Nat) (t : IssueTick) (h : Head) (bad gs : List Nat) {α : Type} {f : Station → α}

theorem draining_keeps (hp : ∀ st x, f { st with storePoison := x } = f st) (hg : ∀ st x, f { st with groups := x } = f st) :
    Keeps f (issuing s k j t h) (draining s k j t h bad gs) :=
  (storeErrors_keeps _ hp _ _ _ _ _).trans (.modStation _ fun st => enterAll_keeps hg st gs)

theorem draining_sameStores : s.sameStores (draining s k j t h bad gs) :=
  sameStores_trans_keeps (issuing_sameStores k j t h) (draining_keeps s k j t h bad gs (fun _ _ => rfl) (fun _ _ => rfl))

theorem draining_cycle : (draining s k j t h bad gs).cycle h.p = (startedProg s k j t h).issueSc :=
  ((draining_keeps (f := fun _ => ()) s k j t h bad gs (fun _ _ => rfl) (fun _ _ => rfl)).cycle h.p).trans (issuing_cycle s k j t h)

theorem draining_inProgress : InProgress ((draining s k j t h bad gs).station k) (startedProg s k j t h).id :=
  inProgress_of_progs ((draining_keeps s k j t h bad gs (fun _ _ => rfl) (fun _ _ => rfl)).2 k) (issuing_inProgress s k j t h)

theorem draining_waits : ((draining s k j t h bad gs).station k).waits = (s.station k).waits :=
  ((draining_keeps s k j t h bad gs (f := Station.waits) (fun _ _ => rfl) (fun _ _ => rfl)).2 k).trans
    (issuing_keeps (f := Station.waits) (fun _ _ _ _ _ _ _ => rfl) k j t h k)

/-- The issue of a drain leaves what its groups have in flight. -/
theorem draining_quiet (groups : List Nat) : ((draining s k j t h bad gs).station k).quiet groups = (s.station k).quiet groups := by
  refine quiet_congr (fun i => ?_) groups
  rw [draining, station_modStation_self, enterAll_inFlight, ← issuing_group s k j t h]
  exact (storeErrors_keeps (f := fun st => (st.group i).inFlight) _ (fun _ _ => rfl) k j _ _ _).2 k

/-- With no error in the store, the issue touches only its own Station and the books. -/
theorem draining_departed : s.departed (draining s k j t h [] gs) :=
  departed_trans (issuing_departed k j t h) (modStation_atStations _ _ _).departed

variable (cplx : Bool) (errs : List AccError)

/-- The state in which a drain has run, or waits on the interlock. -/
def drainIssued : State :=
  ((draining s k j t h bad gs).drainOrWait k h.p (startedProg s k j t h) gs cplx errs).note ((s.atIssue h t).station k) k

/-- R130, R216: a drain whose groups have rows in flight waits on the interlock and writes nothing. -/
theorem drainIssued_waits (hq : (s.station k).quiet gs = false) : ∃ w,
    let u := drainIssued s k j t h bad gs cplx errs
    (bad = [] → s.departed u) ∧ s.sameStores u ∧
      (u.station k).waits = (s.station k).waits ++ [w] ∧ w.dep = s.depId k j h ∧ w.isClose = false ∧ w.groups = gs := by
  let v := draining s k j t h bad gs
  let w : Waiting := { dep := (startedProg s k j t h).id, isClose := false, groups := gs, since := (startedProg s k j t h).issueSc }
  have waits : v.drainOrWait k h.p (startedProg s k j t h) gs cplx errs =
      v.setStation k (interlocked (v.station k) w) :=
    if_neg (by rw [draining_quiet, hq]; decide)
  refine ⟨w, ?_, ?_, ?_, startedProg_id k j t h, rfl, rfl⟩
  · rintro rfl
    rw [drainIssued, waits]
    exact departed_trans (draining_departed s k j t h gs) ((setStation_atStations _ k _).trans (note_atStations _ _ _)).departed
  · rw [drainIssued, waits]
    exact sameStores_trans_keeps (draining_sameStores s k j t h bad gs) (Keeps.trans (.setStation v (interlocked_keeps (fun _ _ => rfl) _ w)) (note_keeps _ (fun _ _ => rfl) _ _))
  · rw [drainIssued, waits, (note_keeps (f := Station.waits) _ (fun _ _ => rfl) _ _).2, station_setStation_self,
      interlocked_waits, draining_waits]

/-- R216 to R218: a drain that has run has written its extent alone, holds no interlock, and is done after its issue. -/
theorem drainIssued_drained {x : State} {g n : Nat} (hx : (draining s k j t h bad gs).drainOrWait k h.p (startedProg s k j t h) gs cplx errs = x)
    (hd : Drained (draining s k j t h bad gs) x k (startedProg s k j t h).id (startedProg s k j t h).issueSc g n) : ∃ sc,
    let u := drainIssued s k j t h bad gs cplx errs
    s.storesIn u k g n ∧ (u.station k).waits = (s.station k).waits ∧ u.doneAt k (s.depId k j h) sc ∧ u.cycle h.p < sc := by
  obtain ⟨sc, late, done⟩ := hd.done (draining_inProgress s k j t h bad gs)
  have noted {β : Type} {f : Station → β} (hl) : Keeps f x (x.note ((s.atIssue h t).station k) k) := note_keeps x hl _ _
  rw [startedProg_id] at done
  refine ⟨sc, ?_⟩
  rw [drainIssued, hx]
  refine ⟨?_, ?_, doneAt_keeps done (noted fun _ _ => rfl), ?_⟩
  · exact storesIn_trans (storesIn_of_sameStores (draining_sameStores s k j t h bad gs))
      (storesIn_trans hd.stores (storesIn_of_keeps (noted fun _ _ => rfl)))
  · rw [(noted (f := Station.waits) fun _ _ => rfl).2, (hd.kept drainBlind_waits).2, draining_waits]
  · rw [(noted (f := fun _ => ()) fun _ _ => rfl).cycle, (hd.kept drainBlind_const).cycle, draining_cycle]
    exact late

end

section
variable {s : State} {k : Fin 128} {j : Fin 4} {t : IssueTick} {h : Head}

theorem drainRule_effect (errs : List AccError) (w : State) (k : Nat) (h : Head) (pr : Prog) :
    (drainRule errs).effect w k h pr = (w.modStation k (fun st => enterAll st [(drainOps h.word).group])).drainOrWait k h.p pr
      [(drainOps h.word).group] false errs := rfl

theorem drainCplxRule_effect (errs : List AccError) (w : State) (k : Nat) (h : Head) (pr : Prog) :
    (drainCplxRule errs).effect w k h pr = (w.modStation k (fun st => enterAll st
      [(drainOps h.word).group, (drainOps h.word).group + 1, (drainOps h.word).group + 2])).drainOrWait k h.p pr
      [(drainOps h.word).group, (drainOps h.word).group + 1, (drainOps h.word).group + 2] true errs := rfl

theorem drain_runs (hi : s.issues k j t (drainRule t.acc) h) :
    exec (.drain k j t) s = .next (drainIssued s k j t h t.bad [(drainOps h.word).group] false t.acc) := by
  have issued := issue_of_issues hi
  rw [drainRule_effect, if_pos (show readsStore (drainRule t.acc).op = true from rfl)] at issued
  exact congrArg Host.Outcome.next issued

theorem drainCplx_runs (hi : s.issues k j t (drainCplxRule t.acc) h) :
    exec (.drainCplx k j t) s =
      .next (drainIssued s k j t h [] [(drainOps h.word).group, (drainOps h.word).group + 1, (drainOps h.word).group + 2] true t.acc) := by
  have issued := issue_of_issues hi
  rw [drainCplxRule_effect, if_neg (show ¬readsStore (drainCplxRule t.acc).op = true from Bool.false_ne_true)] at issued
  exact congrArg Host.Outcome.next issued

/-- R130, R213, R216, R221: a `DRAIN` whose group is quiet. -/
theorem drain_drains (hi : s.issues k j t (drainRule t.acc) h) (hq : ((s.station k).group (drainOps h.word).group).inFlight = 0) :
    let o := drainOps h.word
    ∃ u sc, exec (.drain k j t) s = .next u ∧ s.storesIn u k o.dst (o.valueGran + o.redGran) ∧
      (u.station k).waits = (s.station k).waits ∧ u.doneAt k (s.depId k j h) sc ∧ u.cycle h.p < sc := by
  intro o
  have quiet : (s.station k).quiet [o.group] = true := (quiet_singleton _ _).trans (decide_eq_true hq)
  obtain ⟨sc, drained⟩ := drainIssued_drained s k j t h t.bad [o.group] false t.acc (if_pos ((draining_quiet s k j t h _ _ _).trans quiet))
    (runDrain_drains _ k h.p (startedProg s k j t h) _ t.acc)
  exact ⟨_, sc, drain_runs hi, drained⟩

/-- R130, R213, R216, R226: a `DRAIN_CPLX` whose groups are quiet. -/
theorem drainCplx_drains (hi : s.issues k j t (drainCplxRule t.acc) h)
    (hq : (s.station k).quiet [(drainOps h.word).group, (drainOps h.word).group + 1, (drainOps h.word).group + 2] = true) :
    let o := drainOps h.word
    ∃ u sc, exec (.drainCplx k j t) s = .next u ∧ s.storesIn u k o.dst (2 * rowsGran o.ofmt o.nrows) ∧
      (u.station k).waits = (s.station k).waits ∧ u.doneAt k (s.depId k j h) sc ∧ u.cycle h.p < sc := by
  intro o
  obtain ⟨sc, drained⟩ := drainIssued_drained s k j t h [] _ true t.acc (if_pos ((draining_quiet s k j t h _ _ _).trans hq))
    (runDrainCplx_drains _ k h.p (startedProg s k j t h) _ t.acc)
  exact ⟨_, sc, drainCplx_runs hi, drained⟩

end

/-- Settles O38: at its issue a drain waits or runs; one that runs writes row by row, and then its reduction results, in its extent. -/
theorem drainsWriteTheirDestination : Obligations.DrainsWriteTheirDestination := by
  unfold Obligations.DrainsWriteTheirDestination
  refine fun k j t s h => ⟨fun hi => ⟨fun busy => ?_, drain_drains hi⟩, fun hi => ⟨fun busy => ?_, drainCplx_drains hi⟩⟩
  · have held : (s.station k).quiet [(drainOps h.word).group] = false := (quiet_singleton _ _).trans (decide_eq_false busy)
    obtain ⟨w, waits⟩ := drainIssued_waits s k j t h t.bad _ false t.acc held
    exact ⟨_, w, drain_runs hi, waits⟩
  · obtain ⟨w, departed, waits⟩ := drainIssued_waits s k j t h [] _ true t.acc busy
    exact ⟨_, w, drainCplx_runs hi, departed rfl, waits⟩

end Sys2Proof.Proofs
end

section
/-! Term writes and cascade spills (R113, R119 to R123, R127, R129). -/

namespace Sys2Proof.Proofs

open Sys2Proof Sys2Proof.Machine Sys2Proof.Laws

/-! ### What reads of a tile row leave depends on the accumulators alone -/

/-- Two Stations have the same accumulators, with their poison and `ROW_STATUS`. -/
structure SameAcc (a b : Station) : Prop where
  acc    : a.acc = b.acc
  poison : a.accPoison = b.accPoison
  rows   : a.rows = b.rows

section
variable {a b : Station} (h : SameAcc a b)
include h

theorem SameAcc.row (r : Nat) : a.row r = b.row r := congrArg (fun x => tget RowStatus.init x r) h.rows

theorem SameAcc.accVals (kind r : Nat) : a.accVals kind r = b.accVals kind r := by
  simp only [Station.accVals, Station.accRow, h.row, h.acc]

theorem SameAcc.accPoisonCols (r : Nat) : a.accPoisonCols r = b.accPoisonCols r := by
  simp only [Station.accPoisonCols, h.row, h.poison]

theorem SameAcc.accWrite (kind r : Nat) (vals : List Val) (poison : List Nat) :
    SameAcc (a.accWrite kind r vals poison) (b.accWrite kind r vals poison) :=
  ⟨by simp only [Station.accWrite, h.acc], by simp only [Station.accWrite, h.poison], h.rows⟩

end

/-- A tile row, or pair, whose read has found one error (R123). -/
def struck (st : Station) (kind r : Nat) (e : AccError) : Station :=
  if (st.row r).clear then st
  else if e.corrected then st
  else st.accWrite kind r (accStrike kind e.col (st.accVals kind r)) (numInsert (st.accPoisonCols r) e.col)

theorem SameAcc.struck {a b : Station} (h : SameAcc a b) (kind r : Nat) (e : AccError) : SameAcc (struck a kind r e) (struck b kind r e) := by
  unfold Proofs.struck
  rw [h.row, h.accVals, h.accPoisonCols]
  split
  · exact h
  · split
    · exact h
    · exact h.accWrite _ _ _ _

section
variable {s t : State} {k : Nat}

theorem accError_station (s : State) (k p kind r : Nat) (e : AccError) :
    (s.accError k p kind r e).station k = struck (s.station k) kind r e := by
  unfold State.accError struck
  dsimp only
  split
  · rfl
  · split
    · exact (bump_keeps (f := fun st => st) s _ _ _).2 k
    · exact ((Keeps.of_stopped (f := fun st => st) (accReport_stopped _ _ _ _ _)).2 k).trans (station_setStation_self _ _ _)

theorem accErrors_same (h : SameAcc (s.station k) (t.station k)) (p kind : Nat) (rows : List Nat) (errs : List AccError) :
    SameAcc ((s.accErrors k p kind rows errs).station k) ((t.accErrors k p kind rows errs).station k) := by
  refine List.foldl_rel (r := fun x y : State => SameAcc (x.station k) (y.station k)) h fun r _ x y hxy => ?_
  refine List.foldl_rel (r := fun x y : State => SameAcc (x.station k) (y.station k)) hxy fun e _ x y hxy => ?_
  rw [accError_station, accError_station]
  exact hxy.struck kind r e

end

/-! ### The operations of a write -/

section
variable {α : Type} {f : Station → α} (st : Station)

theorem statusWrite_keeps (hf : ∀ st x, f { st with rows := x } = f st) (kind r : Nat) (v : RowStatus) :
    f (st.statusWrite kind r v) = f st := foldl_keeps (fun x => f x = f st) _ (fun x _ hx => (hf x _).trans hx) _ _ rfl

theorem statusWrite_row (kind r : Nat) (v : RowStatus) : (st.statusWrite kind r v).row r = v := by
  unfold Station.statusWrite kindRows
  split <;> simp [row_setRow]

theorem addTerms_clear (v : RowStatus) (n : Nat) : (v.addTerms n).clear = false := by
  unfold RowStatus.addTerms
  extract_lets +onlyGivenNames w x
  have taken : x.clear = false := by
    unfold x
    split
    · rfl
    next hc => exact Bool.eq_false_iff.2 hc
  split <;> exact taken

/-- A row is not spilled where its group has no partner (R127). -/
theorem trigger_single {g : Nat} (r sc : Nat) (h : (st.group g).cascade = false) : st.trigger g r sc = st := by
  simp [Station.trigger, h]

theorem rowWritten_keeps (hg : ∀ st x, f { st with groups := x } = f st) (hp : ∀ st x, f { st with progs := x } = f st) (r : Row)
    (sc : Nat) : f (st.rowWritten r sc) = f st := (hp _ _).trans (hg st _)

theorem rowWritten_group (r : Row) (sc g : Nat) : (st.rowWritten r sc).group g =
    if g = r.group then
      { st.group r.group with inFlight := (st.group r.group).inFlight - 1, lastWrite := max (st.group r.group).lastWrite sc }
    else st.group g := group_setGroup st r.group g _

theorem addRow_keeps (ha : ∀ st x y, f { st with acc := x, accPoison := y } = f st) (hr : ∀ st x, f { st with rows := x } = f st) (r : Row)
    (kind : Nat) (vals : List Val) (poison : List Nat) (cut : Bool) : f (st.addRow r kind vals poison cut) = f st :=
  (statusWrite_keeps _ hr _ _ _).trans (ha st _ _)

theorem addRow_acc (r : Row) (kind : Nat) (vals : List Val) (poison : List Nat) (cut : Bool) :
    (st.addRow r kind vals poison cut).acc =
      (st.accWrite kind r.tileRow ((List.zip vals r.terms).map (fun q => accTerms kind r.isat q.1 q.2)) []).acc :=
  statusWrite_keeps (f := Station.acc) _ (fun _ _ => rfl) _ _ _

theorem addRow_row (r : Row) (kind : Nat) (vals : List Val) (poison : List Nat) (cut : Bool) :
    let v := (st.row r.tileRow).addTerms r.nterms
    (st.addRow r kind vals poison cut).row r.tileRow = if cut then { v with cancelMark := true } else v := statusWrite_row _ _ _ _

end

/-- The note of a first `LONG_SUM` changes nothing of a Station but that mark of a group (R125). -/
theorem longSum_keeps {α : Type} {f : Station → α} (s : State) (k g r : Nat) (before after : RowStatus)
    (hf : ∀ st, f (st.setGroup g { st.group g with longSum := true }) = f st) : Keeps f s (s.longSum k g r before after) := by
  unfold State.longSum
  dsimp only
  split
  · exact ((Keeps.setStation s (hf (s.station k))).trans (bump_keeps _ _ _ _)).trans (.of_logged (emit_logged _ _))
  · exact .refl s

theorem inFlight_longSum (st : Station) (g i : Nat) :
    ((st.setGroup g { st.group g with longSum := true }).group i).inFlight = (st.group i).inFlight := by
  rw [group_setGroup]
  split
  next e => rw [e]
  · rfl

/-! ### A row is written -/

/-- The Station after the terms of a released row have been written (R119 to R121, R129). -/
def written (st : Station) (r : Row) (sc : Nat) : Station :=
  let kind := (st.group r.group).kind
  ((st.addRow r kind (st.accVals kind r.tileRow) (st.accPoisonCols r.tileRow) (st.wasCut r.dep)).trigger r.group r.tileRow sc).rowWritten
    r sc

theorem termsWritten_keeps {α : Type} {f : Station → α} (s : State) (k p : Nat) (r : Row) (sc : Nat)
    (hf : ∀ st, f (st.setGroup r.group { st.group r.group with longSum := true }) = f st) :
    Keeps f (s.setStation k (written (s.station k) r sc)) (s.termsWritten k p r sc) := by
  unfold State.termsWritten
  extract_lets st kind before vals st' after sums v w x
  exact ((longSum_keeps v k r.group r.tileRow before after hf).trans (bump_keeps w _ _ _)).trans (bump_keeps x _ _ _)

section
variable {st : Station} {r : Row} {sc : Nat} (hc : (st.group r.group).cascade = false)
include hc

theorem written_eq : written st r sc = (st.addRow r (st.group r.group).kind (st.accVals (st.group r.group).kind r.tileRow)
    (st.accPoisonCols r.tileRow) (st.wasCut r.dep)).rowWritten r sc := by
  unfold written
  dsimp only
  rw [trigger_single]
  rw [addRow_keeps (f := fun x => (x.group r.group).cascade) st (fun _ _ _ => rfl) (fun _ _ => rfl)]
  exact hc

theorem written_keeps {α : Type} {f : Station → α} (ha : ∀ st x y, f { st with acc := x, accPoison := y } = f st)
    (hr : ∀ st x, f { st with rows := x } = f st) (hg : ∀ st x, f { st with groups := x } = f st)
    (hp : ∀ st x, f { st with progs := x } = f st) : f (written st r sc) = f st := by
  rw [written_eq hc]
  exact (rowWritten_keeps _ hg hp r sc).trans (addRow_keeps st ha hr _ _ _ _ _)

theorem written_acc : (written st r sc).acc = (st.accWrite (st.group r.group).kind r.tileRow
    ((List.zip (st.accVals (st.group r.group).kind r.tileRow) r.terms).map (fun q => accTerms (st.group r.group).kind r.isat q.1 q.2))
    []).acc := by
  rw [written_eq hc]
  exact (rowWritten_keeps (f := Station.acc) _ (fun _ _ => rfl) (fun _ _ => rfl) r sc).trans (addRow_acc st r _ _ _ _)

/-- Of the row's `ROW_STATUS` a cut may set the mark; terms are counted, and the row is not clear any more (R113, R135). -/
theorem written_row : ((written st r sc).row r.tileRow).termCount = ((st.row r.tileRow).addTerms r.nterms).termCount ∧
    ((written st r sc).row r.tileRow).clear = false := by
  rw [written_eq hc, rowWritten_keeps (f := fun x => x.row r.tileRow) _ (fun _ _ => rfl) (fun _ _ => rfl), addRow_row]
  split
  · exact ⟨rfl, addTerms_clear _ _⟩
  · exact ⟨rfl, addTerms_clear _ _⟩

theorem written_group (g : Nat) : (written st r sc).group g =
    if g = r.group then
      { st.group r.group with inFlight := (st.group r.group).inFlight - 1, lastWrite := max (st.group r.group).lastWrite sc }
    else st.group g := by
  have added (i : Nat) := addRow_keeps (f := fun x => x.group i) st (fun _ _ _ => rfl) (fun _ _ => rfl) r (st.group r.group).kind
    (st.accVals (st.group r.group).kind r.tileRow) (st.accPoisonCols r.tileRow) (st.wasCut r.dep)
  rw [written_eq hc, rowWritten_group, added, added]

end

/-! ### ACC_TERM_WRITE -/

theorem stationCheck_stations (s : State) (p reason : Nat) (r : EvtRec) : (s.stationCheck p reason r).stations = s.stations := by
  obtain ⟨x, _, _, _, _, ⟨_, _, _, _, _, _, _, _, _, _, rfl, _⟩, e⟩ := stationCheck_eq s p reason r
  rw [e]

/-- The Station once its oldest released row has left the adder tree at cycle `sc` (R119, R122). -/
def treeTaken (st : Station) (rest : List (Nat × Row)) (hold sc : Nat) : Station :=
  { st with tree := rest, treeHold := hold, treeLast := max st.treeLast sc }

section
variable {k : Fin 128} {s : State} {p : Nat} (hp : s.phys k = some p) {retries : Nat} {errs : List AccError} {now : Nat}
  (hc : s.power.compStopped = false)
include hp hc

/-- What ACC_TERM_WRITE does with the oldest released row. -/
theorem accTermWrite_runs (fatal : Bool) {a : Nat} {r : Row} {rest : List (Nat × Row)} (ht : (s.station k).tree = (a, r) :: rest) :
    ∃ (v : State) (hold sc : Nat), v.stations = s.stations ∧ exec (.accTermWrite k retries fatal errs now) s =
      let w := v.setStation k (treeTaken (s.station k) rest hold sc)
      if fatal then .next (w.stationCheck p 2 { EvtRec.blank with lstation := k, line := r.dep.line, index := r.dep.index })
      else .next ((w.accErrors k p ((s.station k).group r.group).kind [r.tileRow] errs).termsWritten k p r sc) := by
  have phys : (s.advance now).phys k = some p := by simpa [State.phys] using hp
  have station : (s.advance now).station k = s.station k := by simp [State.station]
  simp only [exec, execAccTermWrite, State.clocked, hc, phys, station, ht]
  exact ⟨((s.advance now).advanceSc p _).residues p retries fatal, _, _, by simp [State.residues], rfl⟩

/-- R119 to R121, R123, R129: the terms of the oldest released row are added into its tile row. -/
theorem accTermWrite_adds {a : Nat} {r : Row} {rest : List (Nat × Row)} (ht : (s.station k).tree = (a, r) :: rest)
    (hg : ((s.station k).group r.group).cascade = false) :
    let kind := ((s.station k).group r.group).kind
    let m := (s.accErrors k p kind [r.tileRow] errs).station k
    let sums := (List.zip (m.accVals kind r.tileRow) r.terms).map (fun q => accTerms kind r.isat q.1 q.2)
    ∃ u, exec (.accTermWrite k retries false errs now) s = .next u ∧ (u.station k).tree = rest ∧
      (u.station k).acc = (m.accWrite kind r.tileRow sums []).acc ∧
      ((u.station k).row r.tileRow).termCount = (((s.station k).row r.tileRow).addTerms r.nterms).termCount ∧
      ((u.station k).row r.tileRow).clear = false ∧
      ((u.station k).group r.group).inFlight = ((s.station k).group r.group).inFlight - 1 ∧
      (∀ g, g ≠ r.group → (u.station k).group g = (s.station k).group g) ∧ s.sameStores u := by
  intro kind m sums
  obtain ⟨v, hold, sc, stations, runs⟩ := accTermWrite_runs hp (retries := retries) (errs := errs) (now := now) hc false ht
  obtain ⟨y, hy⟩ : ∃ y, y = (v.setStation k (treeTaken (s.station k) rest hold sc)).accErrors k p kind [r.tileRow] errs := ⟨_, rfl⟩
  have taken {β : Type} {f : Station → β} (ha : ∀ st x y, f { st with acc := x, accPoison := y } = f st) :
      Keeps f (v.setStation k (treeTaken (s.station k) rest hold sc)) y := hy ▸ accErrors_keeps _ ha k p kind [r.tileRow] errs
  have here {β : Type} {f : Station → β} (ha : ∀ st x y, f { st with acc := x, accPoison := y } = f st) :
      f (y.station k) = f (treeTaken (s.station k) rest hold sc) :=
    ((taken ha).2 k).trans (congrArg f (station_setStation_self v k _))
  have group (g : Nat) : (y.station k).group g = (s.station k).group g := here (f := fun st => st.group g) fun _ _ _ => rfl
  have single : ((y.station k).group r.group).cascade = false := by rw [group]; exact hg
  have same : SameAcc (y.station k) m := by
    rw [hy]
    refine accErrors_same ?_ p kind [r.tileRow] errs
    rw [station_setStation_self]
    exact ⟨rfl, rfl, rfl⟩
  have sees {β : Type} {f : Station → β} (hf : ∀ st, f (st.setGroup r.group { st.group r.group with longSum := true }) = f st) :
      f ((y.termsWritten k p r sc).station k) = f (written (y.station k) r sc) :=
    ((termsWritten_keeps y k p r sc hf).2 k).trans (congrArg f (station_setStation_self y k _))
  refine ⟨y.termsWritten k p r sc, ?_, ?_, ?_, ?_, ?_, ?_, fun g hne => ?_, ?_⟩
  · rw [hy]
    exact runs
  · rw [sees (f := Station.tree) fun _ => rfl, written_keeps (f := Station.tree) single, here (f := Station.tree) fun _ _ _ => rfl]
    all_goals (intros; rfl)
  · rw [sees (f := Station.acc) fun _ => rfl, written_acc single, group, same.accVals]
    exact (same.accWrite _ _ _ _).acc
  · rw [sees (f := fun st => (st.row r.tileRow).termCount) fun _ => rfl, (written_row single).1,
      here (f := fun st => st.row r.tileRow) fun _ _ _ => rfl]
    rfl
  · rw [sees (f := fun st => (st.row r.tileRow).clear) fun _ => rfl, (written_row single).2]
  · rw [sees (f := fun st => (st.group r.group).inFlight) fun st => inFlight_longSum st _ _, written_group single, if_pos rfl, group]
  · rw [sees (f := fun st => st.group g) fun st => (group_setGroup st _ _ _).trans (if_neg hne), written_group single, if_neg hne, group]
  · refine sameStores_of_keeps stations (Keeps.trans (.setStation v ?_) ((taken fun _ _ _ => rfl).trans (Keeps.trans (.setStation y ?_)
      (termsWritten_keeps y k p r sc fun _ => rfl))))
    · rw [State.station, State.station, stations]
      rfl
    · exact written_keeps single (fun _ _ _ => rfl) (fun _ _ => rfl) (fun _ _ => rfl) (fun _ _ => rfl)

/-- R122, R406: a residue that fails again on the retry is a `STATION_CHECK`, and adds nothing. -/
theorem accTermWrite_fails {a : Nat} {r : Row} {rest : List (Nat × Row)} (ht : (s.station k).tree = (a, r) :: rest) :
    ∃ u, exec (.accTermWrite k retries true errs now) s = .next u ∧ (u.station k).tree = rest ∧ p ∈ u.retireQ ∧
      (u.station k).acc = (s.station k).acc := by
  obtain ⟨v, hold, sc, -, runs⟩ := accTermWrite_runs hp (retries := retries) (errs := errs) (now := now) hc true ht
  have station (reason : Nat) (e : EvtRec) :
      ((v.setStation k (treeTaken (s.station k) rest hold sc)).stationCheck p reason e).station k = treeTaken (s.station k) rest hold sc := by
    rw [State.station, stationCheck_stations]
    exact station_setStation_self v k _
  refine ⟨_, runs, ?_, (stationCheck_retires _ _ _ _).1, ?_⟩
  · rw [station]; rfl
  · rw [station]; rfl

end

end Sys2Proof.Proofs
end

section
/-! Cascade spills, the end of the drain interlock, and the saving of accumulators (R120, R123, R127, R130, R132, R136). -/

namespace Sys2Proof.Proofs

open Sys2Proof Sys2Proof.Machine Sys2Proof.Laws

/-! ### CASCADE_SPILL -/

/-- The errors that a spill's read finds change its values and poison alone (R123). -/
theorem spillRead_fields (x : Spill) (kind : Nat) (errs : List AccError) :
    (x.read kind errs).slot = x.slot ∧ (x.read kind errs).tileRow = x.tileRow := by
  unfold Spill.read
  refine foldl_keeps (fun y : Spill => y.slot = x.slot ∧ y.tileRow = x.tileRow) _ ?_ _ x ⟨rfl, rfl⟩
  exact fun _ _ h => h

theorem spillErrors_stopped (s : State) (k p kind : Nat) (x : Spill) (errs : List AccError) : Stopped s (s.spillErrors k p kind x errs) := by
  refine foldl_keeps (Stopped s) _ (fun y e hy => hy.trans ?_) _ s (.refl s)
  split
  · exact (bump_logged y _ _ _).stopped
  · exact accReport_stopped y _ _ _ _

/-- The tile row of the partner into which a spill goes (R127). -/
def spillRow (st : Station) (x : Spill) : Nat := (st.group (st.group x.slot).partner).base + (x.tileRow - (st.group x.slot).base)

/-- The Station after a spill has been written at cycle `sc` (R127, R129). -/
def spilled (st : Station) (x : Spill) (sc : Nat) : Station :=
  let g := st.group x.slot
  let r := spillRow st x
  let after := (st.row r).addTerms 1
  let after := if x.mark then { after with cancelMark := true } else after
  let sums := (List.zip (st.accVals g.kind r) x.values).map (fun v => accAdd g.kind false v.1 v.2)
  ((st.accWrite g.kind r sums (x.poison.foldl numInsert (st.accPoisonCols r))).statusWrite g.kind r after).setGroup x.slot
    { g with inFlight := g.inFlight - 1, lastWrite := max g.lastWrite sc }

theorem spillWritten_keeps {α : Type} {f : Station → α} (s : State) (k p : Nat) (x : Spill) (sc : Nat)
    (hf : ∀ st g, f (st.setGroup g { st.group g with longSum := true }) = f st) :
    Keeps f (s.setStation k (spilled (s.station k) x sc)) (s.spillWritten k p x sc) := by
  unfold State.spillWritten
  extract_lets +onlyGivenNames st g r before a after sums b c
  exact (longSum_keeps (s.setStation k c) k g.partner r before after fun st => hf st _).trans (bump_keeps _ _ _ _)

section
variable (st : Station) (x : Spill) (sc : Nat)

theorem spilled_keeps {α : Type} {f : Station → α} (ha : ∀ st x y, f { st with acc := x, accPoison := y } = f st)
    (hr : ∀ st x, f { st with rows := x } = f st) (hg : ∀ st x, f { st with groups := x } = f st) : f (spilled st x sc) = f st :=
  ((hg _ _).trans (statusWrite_keeps _ hr _ _ _)).trans (ha st _ _)

theorem spilled_acc : (spilled st x sc).acc = (st.accWrite (st.group x.slot).kind (spillRow st x)
    ((List.zip (st.accVals (st.group x.slot).kind (spillRow st x)) x.values).map
      (fun v => accAdd (st.group x.slot).kind false v.1 v.2)) []).acc :=
  statusWrite_keeps (f := Station.acc) _ (fun _ _ => rfl) _ _ _

theorem spilled_inFlight : ((spilled st x sc).group x.slot).inFlight = (st.group x.slot).inFlight - 1 :=
  congrArg Group.inFlight (group_setGroup_self _ _ _)

end

/-- The Station once its oldest spill has left for its write at cycle `sc` (R120, R122). -/
def spillTaken (st : Station) (rest : List Spill) (hold sc : Nat) : Station :=
  { st with spills := rest, treeHold := hold, treeLast := max st.treeLast sc }

section
variable {k : Fin 128} {s : State} {p : Nat} (hp : s.phys k = some p) {retries : Nat} {errs : List AccError}
  (hc : s.power.compStopped = false) {x : Spill} {rest : List Spill} (hx : (s.station k).spills = x :: rest)
include hp hc hx

/-- What CASCADE_SPILL does with the oldest spill. -/
theorem cascadeSpill_runs (fatal : Bool) :
    ∃ (v : State) (hold sc : Nat), v.stations = s.stations ∧ exec (.cascadeSpill ⟨k, retries, fatal, errs⟩) s =
      let w := v.setStation k (spillTaken (s.station k) rest hold sc)
      let kind := ((s.station k).group x.slot).kind
      if fatal then .next (w.stationCheck p 2 { EvtRec.blank with lstation := k })
      else .next (((w.spillErrors k p kind x errs).accErrors k p kind [spillRow (s.station k) x] errs).spillWritten k p (x.read kind errs) sc) := by
  simp only [exec, execCascadeSpill, State.clocked, hc, hp, hx]
  exact ⟨(s.advanceSc p _).residues p retries fatal, _, _, by simp [State.residues], rfl⟩

/-- R123, R127, R129: the oldest spill is added into the partner's tile row. -/
theorem cascadeSpill_adds :
    let g := (s.station k).group x.slot
    let r := ((s.station k).group g.partner).base + (x.tileRow - g.base)
    let m := (s.accErrors k p g.kind [r] errs).station k
    let sums := (List.zip (m.accVals g.kind r) (x.read g.kind errs).values).map (fun v => accAdd g.kind false v.1 v.2)
    ∃ u, exec (.cascadeSpill ⟨k, retries, false, errs⟩) s = .next u ∧ (u.station k).spills = rest ∧
      (u.station k).acc = (m.accWrite g.kind r sums []).acc ∧
      ((u.station k).group x.slot).inFlight = g.inFlight - 1 ∧ s.sameStores u := by
  intro g r m sums
  obtain ⟨v, hold, sc, stations, runs⟩ := cascadeSpill_runs hp (retries := retries) (errs := errs) hc hx false
  obtain ⟨w, hw⟩ : ∃ w, w = (v.setStation k (spillTaken (s.station k) rest hold sc)).spillErrors k p g.kind x errs := ⟨_, rfl⟩
  obtain ⟨y, hy⟩ : ∃ y, y = w.accErrors k p g.kind [r] errs := ⟨_, rfl⟩
  have left {β : Type} (f : Station → β) : Keeps f (v.setStation k (spillTaken (s.station k) rest hold sc)) w :=
    hw ▸ .of_stopped (spillErrors_stopped _ k p g.kind x errs)
  have taken {β : Type} {f : Station → β} (ha : ∀ st x y, f { st with acc := x, accPoison := y } = f st) :
      Keeps f (v.setStation k (spillTaken (s.station k) rest hold sc)) y :=
    (left f).trans (hy ▸ accErrors_keeps w ha k p g.kind [r] errs)
  have here {β : Type} {f : Station → β} (ha : ∀ st x y, f { st with acc := x, accPoison := y } = f st) :
      f (y.station k) = f (spillTaken (s.station k) rest hold sc) :=
    ((taken ha).2 k).trans (congrArg f (station_setStation_self v k _))
  have group (i : Nat) : (y.station k).group i = (s.station k).group i := here (f := fun st => st.group i) fun _ _ _ => rfl
  have same : SameAcc (y.station k) m := by
    rw [hy]
    refine accErrors_same ?_ p g.kind [r] errs
    rw [show w.station k = spillTaken (s.station k) rest hold sc from ((left fun st => st).2 k).trans (station_setStation_self v k _)]
    exact ⟨rfl, rfl, rfl⟩
  obtain ⟨slot, tileRow⟩ := spillRead_fields x g.kind errs
  have row : spillRow (y.station k) (x.read g.kind errs) = r := by simp only [spillRow, slot, tileRow, group, r, g]
  have sees {β : Type} {f : Station → β} (hf : ∀ st g, f (st.setGroup g { st.group g with longSum := true }) = f st) :
      f ((y.spillWritten k p (x.read g.kind errs) sc).station k) = f (spilled (y.station k) (x.read g.kind errs) sc) :=
    ((spillWritten_keeps y k p (x.read g.kind errs) sc hf).2 k).trans (congrArg f (station_setStation_self y k _))
  refine ⟨y.spillWritten k p (x.read g.kind errs) sc, ?_, ?_, ?_, ?_, ?_⟩
  · rw [hy, hw]
    exact runs
  · rw [sees (f := Station.spills) fun _ _ => rfl, spilled_keeps (f := Station.spills), here (f := Station.spills) fun _ _ _ => rfl]
    all_goals (intros; rfl)
  · rw [sees (f := Station.acc) fun _ _ => rfl, spilled_acc, row, slot, group, same.accVals]
    exact (same.accWrite _ _ _ _).acc
  · rw [sees (f := fun st => (st.group x.slot).inFlight) fun st g => inFlight_longSum st _ _]
    exact (slot ▸ spilled_inFlight (y.station k) (x.read g.kind errs) sc).trans (congrArg (fun z : Machine.Group => z.inFlight - 1) (group x.slot))
  · refine sameStores_of_keeps stations (Keeps.trans (.setStation v ?_) ((taken fun _ _ _ => rfl).trans (Keeps.trans (.setStation y ?_)
      (spillWritten_keeps y k p _ sc fun _ _ => rfl))))
    · rw [State.station, State.station, stations]
      rfl
    · exact spilled_keeps _ _ _ (fun _ _ _ => rfl) (fun _ _ => rfl) (fun _ _ => rfl)

/-- R122, R406: one whose residue fails again is a `STATION_CHECK`, and adds nothing. -/
theorem cascadeSpill_fails :
    ∃ u, exec (.cascadeSpill ⟨k, retries, true, errs⟩) s = .next u ∧ (u.station k).spills = rest ∧ p ∈ u.retireQ ∧
      (u.station k).acc = (s.station k).acc := by
  obtain ⟨v, hold, sc, -, runs⟩ := cascadeSpill_runs hp (retries := retries) (errs := errs) hc hx true
  have station (reason : Nat) (e : EvtRec) :
      ((v.setStation k (spillTaken (s.station k) rest hold sc)).stationCheck p reason e).station k = spillTaken (s.station k) rest hold sc := by
    rw [State.station, stationCheck_stations]
    exact station_setStation_self v k _
  refine ⟨_, runs, ?_, (stationCheck_retires _ _ _ _).1, ?_⟩
  · rw [station]; rfl
  · rw [station]; rfl

end

/-! ### DRAIN_INTERLOCK_END -/

/-- Every slot of a close is free (R132). -/
theorem freeGroups_group (gs : List Nat) (st : Station) {g : Nat} (hg : g ∈ gs) : (gs.foldl (fun st g => st.freeGroup g) st).group g = Group.init := by
  suffices h : ∀ st : Station, g ∈ gs ∨ st.group g = Group.init → (gs.foldl (fun st g => st.freeGroup g) st).group g = Group.init from
    h st (.inl hg)
  clear hg
  induction gs with
  | nil => exact fun st h => h.resolve_left List.not_mem_nil
  | cons i gs ih =>
    intro st h
    refine ih (st.freeGroup i) ?_
    by_cases hm : g ∈ gs
    · exact .inl hm
    · right
      rcases freeGroup_group st i g with free | ⟨ne, kept⟩
      · exact free
      · rw [kept]
        exact h.resolve_left fun hc => (List.mem_cons.1 hc).elim ne hm

theorem freeGroups_keeps {α : Type} {f : Station → α} (hf : ∀ st x, f { st with groups := x } = f st) (gs : List Nat) (st : Station) :
    f (gs.foldl (fun st g => st.freeGroup g) st) = f st :=
  foldl_keeps (fun x => f x = f st) _ (fun x g hx => (freeGroup_keeps x g hf).trans hx) _ _ rfl

/-- The Station once departure `id` has left the interlock. -/
def unlocked (st : Station) (id : DepId) : Station := { st with waits := st.waits.filter (fun x => x.dep != id) }

/-- Departure `w` of Station k has left the interlock from `s` to `y`, and nothing else of a Station has changed. -/
structure Unlocked (s y : State) (k : Nat) (w : Waiting) : Prop where
  kept  : ∀ {α : Type} {f : Station → α}, (∀ st x, f { st with waits := x } = f st) → ∀ n, f (y.station n) = f (s.station n)
  waits : (y.station k).waits = (s.station k).waits.filter (fun x => x.dep != w.dep)

/-- The state in which the close of departure `pr` goes on at cycle `sc` (R132). -/
def closeEnd (y : State) (k : Nat) (w : Waiting) (pr : Prog) (sc : Nat) : State :=
  ((y.modStation k (fun st => w.groups.foldl (fun st g => st.freeGroup g) st)).finish k pr.id sc).stall k pr.id 8 (sc - pr.issueSc)

/-- The state in which a drain or a close that has left the interlock goes on at cycle `sc` (R130, R132). -/
def goneOn (y : State) (k p : Nat) (w : Waiting) (pr : Prog) (sc : Nat) (acc : List AccError) : State :=
  if w.isClose then closeEnd y k w pr sc
  else if Dep.opcode pr.word = opDrainCplx then y.runDrainCplx k p pr sc acc else y.runDrain k p pr sc acc

section
variable (y : State) (k p : Nat) (w : Waiting) (pr : Prog) (sc : Nat) (acc : List AccError)

theorem closeEnd_keeps {α : Type} {f : Station → α} (hg : ∀ st x, f { st with groups := x } = f st)
    (hp : ∀ st x, f { st with progs := x } = f st) : Keeps f y (closeEnd y k w pr sc) :=
  ((Keeps.modStation y fun st => freeGroups_keeps hg w.groups st).trans (finish_keeps _ hp _ _ _)).trans (stall_keeps _ hp _ _ _ _)

theorem closeEnd_group {g : Nat} (hg : g ∈ w.groups) : ((closeEnd y k w pr sc).station k).group g = Group.init := by
  have ended := (finish_keeps (f := fun st => st.group g) (y.modStation k (fun st => w.groups.foldl (fun st g => st.freeGroup g) st))
    (fun _ _ => rfl) k pr.id sc).trans (stall_keeps _ (fun _ _ => rfl) k pr.id 8 (sc - pr.issueSc))
  refine (ended.2 k).trans ((congrArg (fun st => st.group g) (station_modStation_self _ _ _)).trans ?_)
  exact freeGroups_group w.groups (y.station k) hg

theorem closeEnd_doneAt (h : InProgress (y.station k) pr.id) : (closeEnd y k w pr sc).doneAt k pr.id sc := by
  refine stall_done _ _ _ (finish_doneAt sc ?_)
  rw [station_modStation_self]
  exact inProgress_of_progs (freeGroups_keeps (fun _ _ => rfl) w.groups _) h

/-- Who goes on leaves the interlock of the others as it is, and is done at some cycle. -/
theorem goneOn_done (h : InProgress (y.station k) pr.id) :
    Keeps Station.waits y (goneOn y k p w pr sc acc) ∧ ∃ d, (goneOn y k p w pr sc acc).doneAt k pr.id d := by
  unfold goneOn
  split
  · exact ⟨closeEnd_keeps y k w pr sc (fun _ _ => rfl) (fun _ _ => rfl), sc, closeEnd_doneAt y k w pr sc h⟩
  · split
    · have drained := runDrainCplx_drains y k p pr sc acc
      obtain ⟨d, -, done⟩ := drained.done h
      exact ⟨drained.kept drainBlind_waits, d, done⟩
    · have drained := runDrain_drains y k p pr sc acc
      obtain ⟨d, -, done⟩ := drained.done h
      exact ⟨drained.kept drainBlind_waits, d, done⟩

end

section
variable {k : Fin 128} {s : State} {p : Nat} (hp : s.phys k = some p) {sc : Nat} {acc : List AccError} {w : Waiting} {pr : Prog}
  (hc : s.power.compStopped = false) (hw : (s.station k).waits.find? (fun w => (s.station k).quiet w.groups) = some w)
  (hpr : (s.station k).prog w.dep = some pr)
include hp hc hw hpr

/-- What DRAIN_INTERLOCK_END does with the oldest drain or close whose groups are quiet. -/
theorem interlockEnd_runs : ∃ (y : State) (n : Nat), Unlocked s y k w ∧
    exec (.drainInterlockEnd k sc acc) s = .next ((goneOn y k p w pr n acc).noteHeads (s.station k) k) := by
  have station : (s.advanceSc p sc).station k = s.station k := rfl
  have prog : (unlocked (s.station k) w.dep).prog w.dep = some pr := hpr
  obtain ⟨n, hn⟩ : ∃ n, n = (w.groups.map (fun g => ((s.station k).group g).lastWrite)).foldl max w.since + 1 := ⟨_, rfl⟩
  obtain ⟨y, hy⟩ : ∃ y, y = (((s.advanceSc p sc).setStation k (unlocked (s.station k) w.dep)).advanceSc p n).bump .accDrainWait p
    (w.waited n) := ⟨_, rfl⟩
  have counted : Keeps (fun st => st) (((s.advanceSc p sc).setStation k (unlocked (s.station k) w.dep)).advanceSc p n) y :=
    hy ▸ bump_keeps _ _ _ _
  have here (i : Nat) : y.station i = if i = k then unlocked (s.station k) w.dep else s.station i :=
    (counted.2 i).trans (station_setStation _ _ _ _)
  refine ⟨y, n, ⟨fun hf i => ?_, ?_⟩, ?_⟩
  · rw [here]
    split
    next e => rw [e]; exact hf _ _
    · rfl
  · rw [here, if_pos rfl]
    rfl
  · simp only [unlocked] at prog hy
    simp only [exec, execDrainInterlockEnd, State.clocked, hc, hp, station, hw, prog, goneOn, hn] at hy ⊢
    rw [← hy]
    cases w.isClose
    · by_cases ho : Dep.opcode pr.word = opDrainCplx
      · simp only [ho]; rfl
      · simp only [ho]; rfl
    · rfl

/-- R130, R132: the drain or close leaves the interlock, and completes. -/
theorem interlockEnd_completes :
    ∃ u, exec (.drainInterlockEnd k sc acc) s = .next u ∧
      (u.station k).waits = (s.station k).waits.filter (fun x => x.dep != w.dep) ∧ ∃ d, u.doneAt k w.dep d := by
  obtain ⟨y, n, left, runs⟩ := interlockEnd_runs hp (sc := sc) (acc := acc) hc hw hpr
  have name : pr.id = w.dep := by simpa using List.find?_some hpr
  have running : InProgress (y.station k) pr.id :=
    inProgress_of_progs (left.kept (fun _ _ => rfl) k) (name ▸ inProgress_of_prog hpr)
  obtain ⟨waits, d, done⟩ := goneOn_done y k p w pr n acc running
  refine ⟨_, runs, ?_, d, name ▸ doneAt_keeps done (noteHeads_keeps _ (fun _ _ => rfl) _ _)⟩
  rw [(noteHeads_keeps (f := Station.waits) _ (fun _ _ => rfl) _ _).2, waits.2, left.waits]

/-- R132: a close frees its slots, and writes no store. -/
theorem interlockEnd_frees (hk : w.isClose = true) :
    ∃ u, exec (.drainInterlockEnd k sc acc) s = .next u ∧ s.sameStores u ∧ ∀ g ∈ w.groups, (u.station k).group g = Group.init := by
  obtain ⟨y, n, left, runs⟩ := interlockEnd_runs hp (sc := sc) (acc := acc) hc hw hpr
  rw [goneOn, if_pos hk] at runs
  refine ⟨_, runs, ?_, fun g hg => ?_⟩
  · exact sameStores_trans_keeps (left.kept fun _ _ => rfl)
      ((closeEnd_keeps y k w pr n (fun _ _ => rfl) (fun _ _ => rfl)).trans (noteHeads_keeps _ (fun _ _ => rfl) _ _))
  · exact ((noteHeads_keeps (f := fun st => st.group g) _ (fun _ _ => rfl) _ _).2 k).trans (closeEnd_group y k w pr n hg)

/-- R130, R220 to R224: a drain that goes on writes its extent alone. -/
theorem interlockEnd_drains (hk : w.isClose = false) (ho : Dep.opcode pr.word ≠ opDrainCplx) :
    ∃ u, exec (.drainInterlockEnd k sc acc) s = .next u ∧
      s.storesIn u k (drainOps pr.word).dst ((drainOps pr.word).valueGran + (drainOps pr.word).redGran) := by
  obtain ⟨y, n, left, runs⟩ := interlockEnd_runs hp (sc := sc) (acc := acc) hc hw hpr
  rw [goneOn, if_neg (Bool.eq_false_iff.1 hk), if_neg ho] at runs
  exact ⟨_, runs, storesIn_trans (storesIn_of_sameStores (left.kept fun _ _ => rfl)) (storesIn_trans (runDrain_drains y k p pr n acc).stores
    (storesIn_of_keeps (noteHeads_keeps _ (fun _ _ => rfl) _ _)))⟩

/-- R130, R226: so does a `DRAIN_CPLX`. -/
theorem interlockEnd_drainsCplx (hk : w.isClose = false) (ho : Dep.opcode pr.word = opDrainCplx) :
    ∃ u, exec (.drainInterlockEnd k sc acc) s = .next u ∧
      s.storesIn u k (drainOps pr.word).dst (2 * rowsGran (drainOps pr.word).ofmt (drainOps pr.word).nrows) := by
  obtain ⟨y, n, left, runs⟩ := interlockEnd_runs hp (sc := sc) (acc := acc) hc hw hpr
  rw [goneOn, if_neg (Bool.eq_false_iff.1 hk), if_pos ho] at runs
  exact ⟨_, runs, storesIn_trans (storesIn_of_sameStores (left.kept fun _ _ => rfl)) (storesIn_trans
    (runDrainCplx_drains y k p pr n acc).stores (storesIn_of_keeps (noteHeads_keeps _ (fun _ _ => rfl) _ _)))⟩

end

/-! ### ACC_SAVE -/

theorem mem_tset {α : Type} (t : Table α) (k : Nat) (v : α) : (k, v) ∈ tset t k v := by
  induction t with
  | nil => exact List.mem_singleton_self _
  | cons e t ih =>
    unfold tset
    split
    · exact List.mem_cons_self
    · split
      · exact List.mem_cons_self
      · exact List.mem_cons_of_mem _ ih

/-- A save leaves the memories of the pages aside: slots and Stations are the same in `s` and `t`. -/
def OffPages (s t : State) : Prop := t.slots = s.slots ∧ t.stations = s.stations

section
variable {α : Type} {f : Station → α} (s : State)

theorem bump_offPages (c : Ctr) (i n : Nat) : OffPages s (s.bump c i n) := by simp [OffPages]

theorem setMem_offPages (host : Bool) (m : List Host.Cell) : OffPages s (s.setMem host m) := by cases host <;> exact ⟨rfl, rfl⟩

theorem OffPages.trans {s t u : State} (h : OffPages s t) (i : OffPages t u) : OffPages s u := ⟨i.1.trans h.1, i.2.trans h.2⟩

theorem zeroFill_offPages (e : Nat) : OffPages s (s.zeroFill e) := by
  unfold State.zeroFill
  dsimp only
  split
  · refine OffPages.trans ?_ (bump_offPages _ _ _ _)
    exact OffPages.trans (OffPages.trans (t := s.cleanFrame _ _) ⟨rfl, rfl⟩ (setMem_offPages _ _ _)) ⟨rfl, rfl⟩
  · exact ⟨rfl, rfl⟩

theorem pageCells_offPages (e off n from' : Nat) (cells : List Host.Cell) : OffPages s (s.pageCells e off n from' cells) := by
  unfold State.pageCells
  extract_lets v m a w
  exact OffPages.trans ((zeroFill_offPages s e).trans (setMem_offPages v _ _)) ⟨rfl, rfl⟩

theorem itemCells_offPages (c item b n : Nat) (cells : List Host.Cell) : OffPages s (s.itemCells c item b n cells) := by
  unfold State.itemCells
  split
  · exact ⟨rfl, rfl⟩
  · exact foldl_keeps (OffPages s) _ (fun x q hx => hx.trans (pageCells_offPages x _ _ _ _ _)) _ s ⟨rfl, rfl⟩

theorem saveError_keeps (hf : ∀ st x y, f { st with acc := x, accPoison := y } = f st) (k : Nat) (e : AccError) :
    Keeps f s (s.saveError k e) := by
  unfold State.saveError
  split
  · exact accErrors_keeps s hf _ _ _ _ _
  · exact accErrors_keeps s hf _ _ _ _ _
  · exact .refl s

theorem mapStations_keeps {g : Station → Station} (hg : ∀ st, f (g st) = f st) : Keeps f s (s.mapStations g) := by
  refine ⟨rfl, fun n => ?_⟩
  simp only [State.station, State.mapStations]
  induction s.stations with
  | nil => rfl
  | cons e t ih =>
    obtain ⟨i, st⟩ := e
    simp only [List.map_cons, tget]
    split
    · exact hg st
    · exact ih

theorem plan_offPages : OffPages s s.plan := by
  unfold State.plan
  split
  · exact ⟨rfl, rfl⟩
  · dsimp only
    split <;> exact ⟨rfl, rfl⟩

theorem OffPages.station {s t : State} (h : OffPages s t) (n : Nat) : t.station n = s.station n :=
  congrArg (fun x => tget Station.init x n) h.2

theorem OffPages.slot {s t : State} (h : OffPages s t) (c : Nat) : t.slot c = s.slot c :=
  congrArg (fun x => tget Slot.init x c) h.1

/-- R306, R442: the context that is switched out is `PREEMPTED`, with its saves, and no store changes. -/
theorem switchOut_preempts (c : Nat) : ((s.switchOut c).slot c).state = .preempted ∧ ((s.switchOut c).slot c).saved = (s.slot c).saved ∧
    s.sameStores (s.switchOut c) := by
  unfold State.switchOut
  extract_lets v w
  obtain ⟨x, hx⟩ : ∃ x, x = w.endCommands (fun _ x => x.accepted && x.opcode == 0x15 && x.context == c) 0 := ⟨_, rfl⟩
  have ended : OffPages w x.plan := OffPages.trans (by rw [hx]; simp [OffPages]) (plan_offPages x)
  have slot := (ended.slot c).trans (slot_modSlot_self v c _)
  rw [← hx, slot]
  refine ⟨rfl, rfl, fun n => ?_⟩
  rw [ended.station]
  have mapped : Keeps Station.store s v := mapStations_keeps s fun _ => rfl
  exact mapped.2 n

end

/-- Station k has saved its accumulator state into the save area of context c (R136, R137). -/
def accSaved (y : State) (k c : Nat) : State :=
  ((y.modSlot c (fun x => { x with saved := tset x.saved k (y.station k).save })).itemCells c 2 (k * saveBytes) saveBytes
    (y.station k).saveRecord).modStation k (fun st => { st with saved := true })

section
variable (y : State) (k c : Nat)

theorem accSaved_slot : (k, (y.station k).save) ∈ ((accSaved y k c).slot c).saved := by
  have slot : (accSaved y k c).slot c = _ := ((itemCells_offPages _ c 2 _ _ _).slot c).trans (slot_modSlot_self y c _)
  rw [slot]
  exact mem_tset _ k _

theorem accSaved_station : ((accSaved y k c).station k).saved = true := congrArg Station.saved (station_modStation_self _ _ _)

theorem accSaved_sameStores : y.sameStores (accSaved y k c) := fun n => by
  refine Eq.trans ((Keeps.modStation (f := Station.store) _ ?_).2 n) (congrArg Station.store ((itemCells_offPages _ c 2 _ _ _).station n))
  exact fun _ => rfl

end

section
variable {k : Fin 128} {s : State} {p : Nat} (hp : s.phys k = some p) {t : Tick} {acc : List AccError} {c : Nat} {run : Run}
  (hc : s.runSlot = some c) (hr : (s.slot c).run = some run) (hs : run.switching = true) (hsaved : (s.station k).saved = false)
  (hstill : (s.station k).still = true) (hquiet : (s.station k).quiet (List.range 8) = true)
  (hdue : (s.station k).workEnds + 2056 ≤ max (s.cycle p) t.sc)
include hp hc hr hs hsaved hstill hquiet hdue

/-- What ACC_SAVE does with a Station whose save is due. -/
theorem accSave_runs :
    let x := accSaved (acc.foldl (fun s e => s.saveError k e) ((s.advance t.lt).advanceSc p t.sc)) k c
    exec (.accSave k t acc) s = .next (if x.switchReady then x.switchOut c else x) := by
  have phys : (s.advance t.lt).phys k = some p := by simpa [State.phys] using hp
  have runs : (s.advance t.lt).runSlot = some c := (runSlot_of_slots (by simp)).trans hc
  have slot : ((s.advance t.lt).advanceSc p t.sc).slot c = s.slot c := by simp [State.slot]
  have station : ((s.advance t.lt).advanceSc p t.sc).station k = s.station k := by simp [State.station]
  have cycle : ((s.advance t.lt).advanceSc p t.sc).cycle p = max (s.cycle p) t.sc := by
    rw [cycle_advanceSc, if_pos rfl]
    simp [State.cycle]
  have due : ¬max (s.cycle p) t.sc < (s.station k).workEnds + saveSc := Nat.not_lt.2 hdue
  simp only [exec, execAccSave, runs, phys, slot, station, cycle, hr, hs, hsaved, hstill, hquiet, due]
  rfl

/-- R136, R137, R306: a Station whose save is due saves its accumulators, groups and Tokens, and the last one switches the context out. -/
theorem accSave_saves :
    ∃ u v, exec (.accSave k t acc) s = .next u ∧ (k.val, v) ∈ (u.slot c).saved ∧ v.groups = (s.station k).groups ∧
      v.tokens = (s.station k).zeroedTokens ∧ (acc = [] → v = (s.station k).save) ∧
      ((u.station k).saved = true ∨ (u.slot c).state = .preempted) ∧ s.sameStores u := by
  have runs := accSave_runs hp (acc := acc) hc hr hs hsaved hstill hquiet hdue
  have stations : ((s.advance t.lt).advanceSc p t.sc).stations = s.stations := by simp
  have station : ((s.advance t.lt).advanceSc p t.sc).station k = s.station k := congrArg (fun x => tget Station.init x k) stations
  obtain ⟨y, hy⟩ : ∃ y, y = acc.foldl (fun s e => s.saveError k e) ((s.advance t.lt).advanceSc p t.sc) := ⟨_, rfl⟩
  have found {β : Type} {f : Station → β} (hf : ∀ st x y, f { st with acc := x, accPoison := y } = f st) :
      Keeps f ((s.advance t.lt).advanceSc p t.sc) y := hy ▸ .foldl _ (fun x e => saveError_keeps x hf k e) acc
  have here {β : Type} {f : Station → β} (hf : ∀ st x y, f { st with acc := x, accPoison := y } = f st) : f (y.station k) = f (s.station k) :=
    ((found hf).2 k).trans (congrArg f station)
  have clean : acc = [] → (y.station k).save = (s.station k).save := by
    rintro rfl
    rw [hy]
    exact congrArg Station.save station
  have stores : s.sameStores (accSaved y k c) := fun n =>
    (accSaved_sameStores y k c n).trans (sameStores_of_keeps stations (found fun _ _ _ => rfl) n)
  rw [← hy] at runs
  refine ⟨_, (y.station k).save, runs, ?_, here (f := Station.groups) fun _ _ _ => rfl,
    here (f := Station.zeroedTokens) fun _ _ _ => rfl, clean, ?_, ?_⟩
  · split
    · rw [(switchOut_preempts _ c).2.1]
      exact accSaved_slot y k c
    · exact accSaved_slot y k c
  · split
    · exact .inr (switchOut_preempts _ c).1
    · exact .inl (accSaved_station y k c)
  · split
    · exact fun n => ((switchOut_preempts _ c).2.2 n).trans (stores n)
    · exact stores

end

/-- Settles O44: each event changes its Station once, and what follows is seen by nothing that the event is asked about. -/
theorem accumulatorEvents : Obligations.AccumulatorEvents := by
  unfold Obligations.AccumulatorEvents
  intro k s p hp
  refine ⟨?_, ?_, ?_, ?_, ?_, ?_⟩
  · exact fun retries errs now a r rest hc ht hg => accTermWrite_adds hp hc ht hg
  · exact fun retries errs now a r rest hc ht => accTermWrite_fails hp hc ht
  · exact fun retries errs x rest hc hx => cascadeSpill_adds hp hc hx
  · exact fun retries errs x rest hc hx => cascadeSpill_fails hp hc hx
  · exact fun sc acc w pr hc hw hpr => ⟨interlockEnd_completes hp hc hw hpr, interlockEnd_frees hp hc hw hpr,
      interlockEnd_drains hp hc hw hpr, interlockEnd_drainsCplx hp hc hw hpr⟩
  · exact fun t acc c run hc hr hs hsaved hstill hquiet hdue => accSave_saves hp hc hr hs hsaved hstill hquiet hdue

end Sys2Proof.Proofs
end

section
/-! Malformed and stopped `TURN`s (O31, O32). The command that issues a `TURN` ends with a look at the Sidings of its Sector (R290): a
Siding whose fill no longer waits loses its note of the wait there, even where nothing issues. -/

namespace Sys2Proof.Proofs

open Sys2Proof Sys2Proof.Machine Sys2Proof.Laws

/-- A Siding with a note of a wait, and no position that waits. -/
def staleSiding : Siding := { Siding.init with wait := some { num := 0, began := 0, since := 0, hungLt := none } }

/-- A `TURN` with reserved bit 0 set (R240). -/
def reservedTurn : BitVec 256 := BitVec.ofNat 256 (place opTurn 192 + 1)

/-- An image whose header words are 0 but the first, which its Timetable takes for the word of line 0 of Station 0 in section 0: one
departure, at byte 96. -/
def reservedTurnImage : Image :=
  { bytes := leBytes 96 (place 3 24 + 1) ++ leBytes 32 reservedTurn.toNat, digest := 0, ranges := [] }

def firstSection : Run :=
  { epoch := 0, sect := 0, sectEpoch := 0, began := 0, cancelled := none, halting := false, switching := false, points := none,
    follow := [], preemptAt := none, floatPast := false, epochSeen := false, waiting := false }

/-- Context 0 in section 0 of that image, in a state of its slot, with the Siding on Station 0. -/
def turnState (st : SlotState) : State :=
  { State.reset with
    slots := [(0, { Slot.init with state := st, image := some reservedTurnImage, run := some firstSection })]
    stations := [(0, { Station.init with sidings := [(0, staleSiding)] })] }

def turnHead : Head :=
  { c := 0, img := reservedTurnImage, sect := 0, index := 0, word := reservedTurn, planned := 0, p := 0 }

def firstTick : IssueTick := { lt := 0, sc := 0, bad := [], acc := [] }

theorem turnState_wait (st : SlotState) : ((turnState st).station 0).siding 0 = staleSiding := rfl

/-- The malformed `TURN` takes the note of the Siding with it. -/
theorem malformedTurn_wait :
    ∃ u, exec (.turn 0 0 firstTick) (turnState .running) = .next u ∧ ((u.station 0).siding 0).wait = none :=
  ⟨_, rfl, by decide +kernel⟩

/-- So does the command of a `TURN` that no context asks for. -/
theorem stoppedTurn_wait :
    ∃ u, exec (.turn 0 0 firstTick) (turnState .stopped) = .next u ∧ ((u.station 0).siding 0).wait = none :=
  ⟨_, rfl, by decide +kernel⟩

theorem turnHead_heads : ((turnState .running).advance firstTick.lt).headOf 0 0 = .head turnHead := by decide +kernel

theorem turnHead_malformed : leastOf (commonForm turnHead.word ++ turnRule.form 0 turnHead) = some 1 := by decide +kernel

/-- A state with the note is not one without it. -/
theorem stations_ne_of_wait {u : State} {st : SlotState} (h : ((u.station 0).siding 0).wait = none) :
    u.stations ≠ (turnState st).stations := by
  intro he
  have same : u.station 0 = (turnState st).station 0 := congrArg (fun x => tget Station.init x 0) he
  rw [same, turnState_wait] at h
  exact absurd h (by decide)

/-- Refutes O31: a `TURN` that fails its form check stops its context, but its command also drops the note of a Siding of its Sector whose
fill no longer waits. -/
theorem not_malformedDeparturesStop : ¬ Obligations.MalformedDeparturesStop := by
  unfold Obligations.MalformedDeparturesStop
  intro h
  obtain ⟨u, hu, -, stations, -⟩ := h (.turn 0 0 firstTick) 0 0 firstTick turnRule (turnState .running) turnHead 1 rfl turnHead_heads
    (by decide +kernel) (.inl turnHead_malformed)
  obtain ⟨v, hv, wait⟩ := malformedTurn_wait
  obtain rfl : v = u := Host.Outcome.next.inj (hv.symm.trans hu)
  exact stations_ne_of_wait wait stations

/-- Refutes O32: with every context stopped, the command of a `TURN` issues nothing, but drops the note of a Siding whose fill no longer
waits. -/
theorem not_stoppedContextsStand : ¬ Obligations.StoppedContextsStand := by
  unfold Obligations.StoppedContextsStand
  intro h
  obtain ⟨issues, -⟩ := h.2 (turnState .stopped) 0 (by decide) rfl (by decide +kernel)
  obtain ⟨u, hu, frame⟩ := issues (.turn 0 0 firstTick) 0 0 firstTick turnRule rfl
  obtain ⟨v, hv, wait⟩ := stoppedTurn_wait
  obtain rfl : v = u := Host.Outcome.next.inj (hv.symm.trans hu)
  exact stations_ne_of_wait (st := .stopped) wait (by rw [frame])

end Sys2Proof.Proofs
end

section
/-! The discipline of line time (O54): what a measurement, a change of `TIME_STATE` and the loss of a source do to the time keeper. -/

namespace Sys2Proof.Proofs

open Sys2Proof Sys2Proof.Machine Sys2Proof.Laws

variable (s : State)

/-! ## Counters -/

theorem post_ctrs (r : EvtRec) : (s.post r).1.ctrs = s.ctrs := by
  unfold State.post
  dsimp only
  split
  · split <;> rfl
  · split
    · rfl
    · split <;> rfl

/-- A record that is posted counts nothing but its own loss. -/
theorem emit_ctr (r : EvtRec) {c : Ctr} (hc : c ≠ .evtLost) (i : Nat) : (s.emit r).ctr c i = s.ctr c i := by
  have posted (x : State) (r : EvtRec) : (x.post r).1.ctr c i = x.ctr c i := congrArg (ctrGet · c i) (post_ctrs x r)
  have lost (x : State) : (x.count .evtLost 0 1).ctr c i = x.ctr c i := by rw [ctr_count, if_neg fun h => hc h.1]
  unfold State.emit
  dsimp only
  split
  · split
    · rw [posted, lost, posted]
    · rw [lost, posted]
  · rw [posted]

theorem report_ctr (r : EvtRec) {c : Ctr} (hc : c ≠ .evtLost) (i : Nat) : (s.report r).ctr c i = s.ctr c i := by
  have emitted := emit_ctr s { r with lt := s.time.lt, seq := s.evt.seq } hc i
  unfold State.report
  dsimp only
  split
  · split
    · exact emitted
    · exact emitted
  · exact emitted

/-- Below its maximum a counter counts. -/
theorem bump_ctr_value {c : Ctr} {i n : Nat} (h : (s.ctr c i).value + n < c.top) :
    ((s.bump c i n).ctr c i).value = (s.ctr c i).value + n := by
  have added : (s.ctr c i).add c n = { s.ctr c i with value := (s.ctr c i).value + n } := if_neg (Nat.not_le.2 h)
  unfold State.bump
  split
  · rename_i hn
    rw [hn, Nat.add_zero]
  · rw [if_neg (by simp [State.saturates, added]), ctr_count, if_pos ⟨rfl, rfl⟩, added]

/-! ## `TIME_STATE` -/

theorem enterTime_time (x : TimeState) :
    (s.enterTime x).time = if s.time.state = x then s.time else { s.time with state := x, goodRun := 0 } := by
  unfold State.enterTime
  split
  · rfl
  · dsimp only
    split <;> simp

@[simp] theorem enterTime_state (x : TimeState) : (s.enterTime x).time.state = x := by
  rw [enterTime_time]
  split
  · assumption
  · rfl

@[simp] theorem enterTime_offset (x : TimeState) : (s.enterTime x).time.offset = s.time.offset := by
  rw [enterTime_time]
  split <;> rfl

@[simp] theorem enterTime_slewPpm (x : TimeState) : (s.enterTime x).time.slewPpm = s.time.slewPpm := by
  rw [enterTime_time]
  split <;> rfl

@[simp] theorem enterTime_ppsLt (x : TimeState) : (s.enterTime x).time.ppsLt = s.time.ppsLt := by
  rw [enterTime_time]
  split <;> rfl

/-- Entering LOST counts (R144). -/
theorem enterTime_lost_counts (hs : s.time.state ≠ .lost) (h : (s.ctr .timeLostEvents 0).value + 1 < Ctr.timeLostEvents.top) :
    ((s.enterTime .lost).ctr .timeLostEvents 0).value = (s.ctr .timeLostEvents 0).value + 1 := by
  have before : ∀ r, ((({ s with time := { s.time with state := .lost, goodRun := 0 } } : State).notice 8 15
      TimeState.lost.code).report r).ctr .timeLostEvents 0 = s.ctr .timeLostEvents 0 := fun r =>
    (report_ctr _ r (by decide) 0).trans (emit_ctr _ _ (by decide) 0)
  unfold State.enterTime
  rw [if_neg hs, if_pos rfl, bump_ctr_value, before]
  rwa [before]

/-- A lost source takes LOCKED to HOLDOVER (R140). -/
theorem loseSource_state :
    s.loseSource.time.state = if s.time.state = .locked then .holdover else s.time.state := by
  unfold State.loseSource
  split
  · exact enterTime_state s _
  · rfl

/-! ## One measurement -/

/-- What a measurement records, before `TIME_STATE` follows it. -/
theorem measure_records (o : Int) :
    (s.measure o).time.offset = o ∧ (s.measure o).time.ppsLt = s.time.ppsLt ∧
      (s.measure o).time.slewPpm = (Config.freeValue s.freeIx % 201 : Nat) - 100 := by
  cases hs : s.time.state with
  | free => simp [State.measure, hs]
  | acquiring =>
    simp only [State.measure, hs]
    split
    · split <;> simp
    · simp
  | locked =>
    simp only [State.measure, hs]
    split <;> simp
  | holdover => simp [State.measure, hs]
  | lost => simp [State.measure, hs]

/-- The rate correction keeps R143's bound. -/
theorem measure_slewPpm_le (o : Int) : -100 ≤ (s.measure o).time.slewPpm ∧ (s.measure o).time.slewPpm ≤ 100 := by
  obtain ⟨-, -, slew⟩ := measure_records s o
  omega

theorem measure_free (o : Int) (hs : s.time.state = .free) : (s.measure o).time.state = .free := by
  simp [State.measure, hs]

theorem measure_good (o : Int) (hs : s.time.state = .acquiring) (ho : within o 10 = true) (hg : s.time.goodRun < 15) :
    (s.measure o).time.state = .acquiring ∧ (s.measure o).time.goodRun = s.time.goodRun + 1 := by
  simp [State.measure, hs, ho, show ¬15 ≤ s.time.goodRun by omega]

theorem measure_locks (o : Int) (hs : s.time.state = .acquiring) (ho : within o 10 = true) (hg : 15 ≤ s.time.goodRun) :
    (s.measure o).time.state = .locked := by
  simp [State.measure, hs, ho, hg]

theorem measure_bad (o : Int) (hs : s.time.state = .acquiring) (ho : within o 10 = false) :
    (s.measure o).time.state = .acquiring ∧ (s.measure o).time.goodRun = 0 := by
  simp [State.measure, hs, ho]

theorem measure_locked (o : Int) (hs : s.time.state = .locked) :
    (s.measure o).time.state = if within o 100 then .locked else .lost := by
  simp only [State.measure, hs]
  split
  · rfl
  · exact enterTime_state _ _

theorem measure_reacquires (o : Int) (hs : s.time.state = .holdover ∨ s.time.state = .lost) :
    (s.measure o).time.state = .acquiring := by
  rcases hs with hs | hs <;> simp [State.measure, hs]

/-! ## Messages -/

/-- What a message that is heard leaves of the time keeper as it was. -/
theorem heard_fields (t : TimeKeeper) (port : Nat) (msg : PtpMsg) :
    (t.heard port msg).state = t.state ∧ (t.heard port msg).offset = t.offset ∧ (t.heard port msg).goodRun = t.goodRun := by
  cases msg with
  | sync two i o =>
    simp only [TimeKeeper.heard, apply_ite TimeKeeper.state, apply_ite TimeKeeper.offset, apply_ite TimeKeeper.goodRun, ite_self,
      and_self]
  | followUp o => exact ⟨rfl, rfl, rfl⟩
  | delayResp o => exact ⟨rfl, rfl, rfl⟩

/-- An accepted message is heard on its port, before it counts as a measurement (R141). -/
def heardOn (s : State) (port : Nat) (msg : PtpMsg) : State :=
  let v : State := { s with time := s.time.heard port msg }
  match msg with | .sync _ _ _ => v.bump .ptpSyncRx 0 1 | _ => v

theorem heardOn_fields (port : Nat) (msg : PtpMsg) :
    (heardOn s port msg).time = s.time.heard port msg ∧ (heardOn s port msg).ports = s.ports := by
  cases msg <;> simp [heardOn]

variable {s} {port : Fin 48} {dom transport : Nat} {msg : PtpMsg} {now : Nat}

/-- A message that is accepted is heard, and then counts as the measurement that it makes. -/
theorem ptpReceive_accepted (hup : s.portUp port = true) (hacc : s.time.accepts port dom transport msg = true) :
    ∃ v, v.time.state = s.time.state ∧ v.time.offset = s.time.offset ∧ v.time.goodRun = s.time.goodRun ∧
      exec (.ptpMessageReceive port ⟨dom, transport⟩ msg now) s =
        match s.time.measured port msg with
        | none => .next v
        | some m =>
          if port.val = s.time.port then .next (v.measure (m + s.portAsym port))
          else .next { v with time := { v.time with secGood := within (m + s.portAsym port) 10 } } := by
  have up : (s.advance now).portUp port = true := by
    simpa [State.portUp, State.portExists, State.cage, State.port] using hup
  have acc : (s.advance now).time.accepts port dom transport msg = true := by
    simpa [TimeKeeper.accepts] using hacc
  have measured : (s.advance now).time.measured port msg = s.time.measured port msg := by
    cases msg <;> simp [TimeKeeper.measured]
  have samePort : (s.advance now).time.port = s.time.port := by simp [TimeKeeper.port]
  obtain ⟨time, ports⟩ := heardOn_fields (s.advance now) port msg
  have asym : (heardOn (s.advance now) port msg).portAsym port = s.portAsym port := by
    simp [State.portAsym, State.port, ports]
  obtain ⟨hstate, hoffset, hgood⟩ := heard_fields (s.advance now).time port msg
  refine ⟨heardOn (s.advance now) port msg, ?_, ?_, ?_, ?_⟩
  · simp [time, hstate]
  · simp [time, hoffset]
  · simp [time, hgood]
  · rw [← asym, ← measured, ← samePort]
    show execPtpMessageReceive port ⟨dom, transport⟩ msg now s = _
    unfold execPtpMessageReceive
    dsimp only
    rw [if_neg (by simp [up]), if_neg (by simp [acc])]
    rfl

/-- Clause 1 of O54: a measurement. -/
theorem ptpReceive_measures {m : Int} (hup : s.portUp port = true) (hacc : s.time.accepts port dom transport msg = true)
    (hm : s.time.measured port msg = some m) :
    ∃ v : State, v.time.state = s.time.state ∧ v.time.offset = s.time.offset ∧ v.time.goodRun = s.time.goodRun ∧
      (port.val = s.time.port →
        exec (.ptpMessageReceive port ⟨dom, transport⟩ msg now) s = .next (v.measure (m + s.portAsym port))) ∧
      (port.val ≠ s.time.port →
        exec (.ptpMessageReceive port ⟨dom, transport⟩ msg now) s =
          .next { v with time := { v.time with secGood := within (m + s.portAsym port) 10 } }) := by
  obtain ⟨v, state, offset, good, run⟩ := ptpReceive_accepted (now := now) hup hacc
  rw [hm] at run
  exact ⟨v, state, offset, good, fun h => run.trans (if_pos h), fun h => run.trans (if_neg h)⟩

theorem advance_eq_time (s : State) (n : Nat) : s.advance n = { s with time := (s.advance n).time } := by
  unfold State.advance
  split <;> rfl

theorem onlyLogged_of_logged {s t : State} (h : Logged s t) : s.onlyLogged t := by
  obtain ⟨_, _, _, _, rfl, _⟩ := h
  rfl

/-- A message that is not accepted is a stranger (R315). -/
theorem ptpReceive_stranger (hup : s.portUp port = true) (hacc : s.time.accepts port dom transport msg = false) :
    ∃ u, exec (.ptpMessageReceive port ⟨dom, transport⟩ msg now) s = .next u ∧ Logged (s.advance now) u := by
  have up : (s.advance now).portUp port = true := by
    simpa [State.portUp, State.portExists, State.cage, State.port] using hup
  have acc : (s.advance now).time.accepts port dom transport msg = false := by
    simpa [TimeKeeper.accepts] using hacc
  refine ⟨(s.advance now).bump .netStrangerAddr (portDie port) 1, ?_, bump_logged _ _ _ _⟩
  show execPtpMessageReceive port ⟨dom, transport⟩ msg now s = _
  unfold execPtpMessageReceive
  dsimp only
  rw [if_neg (by simp [up]), if_pos acc]

/-! ## The other events of line time -/

theorem sendFrame_txFrames (s : State) (p : Nat) (dst : Option Nat) (size : Nat) (body : TxBody) :
    ∃ fr, (s.sendFrame p dst size body).txFrames = s.txFrames ++ [fr] ∧ fr.port = p ∧ fr.body = body := by
  simp only [State.sendFrame, bump_fields, setPort_fields]
  exact ⟨_, rfl, rfl, rfl⟩

theorem ptpDelayReqSend_sends (hs : s.time.source = 1) (hp : s.portUp s.time.port = true) :
    ∃ u fr, exec (.ptpDelayReqSend now) s = .next u ∧ u.txFrames = s.txFrames ++ [fr] ∧ fr.port = s.time.port ∧
      fr.body = .delayReq ∧ u.time.state = s.time.state := by
  have samePort : (s.advance now).time.port = s.time.port := by simp [TimeKeeper.port]
  have up : (s.advance now).portUp s.time.port = true := by
    simpa [State.portUp, State.portExists, State.cage, State.port] using hp
  obtain ⟨fr, frames, hport, hbody⟩ := sendFrame_txFrames (s.advance now) s.time.port none 64 .delayReq
  simp only [advance_fields] at frames
  refine ⟨(s.advance now).sendFrame s.time.port none 64 .delayReq, fr, ?_, frames, hport, hbody, ?_⟩
  · simp only [exec, execPtpDelayReqSend, samePort]
    exact if_pos ⟨by simpa using hs, up⟩
  · simp [State.sendFrame]

/-- Sync has been missing (R140, R141). -/
theorem ptpSyncLoss_lost (hs : s.time.source = 1) (hl : s.time.syncLt + 3 * s.time.syncInterval ≤ (s.advance now).time.lt) :
    exec (.ptpSyncLoss now) s = .next
      (if (!s.time.onSecondary && s.time.secondary != 0xFF && s.time.secGood) = true then
        { s.advance now with
          time := { (s.advance now).time with onSecondary := true, secGood := false, syncLt := (s.advance now).time.lt } }
      else (s.advance now).loseSource) := by
  have interval : (s.advance now).time.syncInterval = s.time.syncInterval := by simp [TimeKeeper.syncInterval]
  have lost : ¬((s.advance now).time.source ≠ 1 ∨
      (s.advance now).time.lt < (s.advance now).time.syncLt + 3 * (s.advance now).time.syncInterval) := by
    rw [interval]
    simp only [advance_time_fields]
    omega
  show execPtpSyncLoss now s = _
  unfold execPtpSyncLoss
  dsimp only
  rw [if_neg lost, apply_ite Host.Outcome.next]
  simp only [advance_time_fields]

theorem ppsEdge_measures (sub : Fin 4) (hs : s.time.source = 2) :
    ∃ u, exec (.ppsEdge sub now) s = .next u ∧
      u.time.ppsLt = s.time.secondMark (4 * (s.advance now).time.lt + sub.val) / 4 + 10 ^ 9 ∧
      u.time.offset = ((4 * (s.advance now).time.lt + sub.val : Nat) : Int) -
        s.time.secondMark (4 * (s.advance now).time.lt + sub.val) := by
  have mark (n : Nat) : (s.advance now).time.secondMark n = s.time.secondMark n := by simp [TimeKeeper.secondMark]
  refine ⟨_, if_neg (by simpa using hs), ?_, ?_⟩
  · rw [(measure_records _ _).2.1, ← mark]
  · rw [(measure_records _ _).1, ← mark]

theorem holdoverExpire_lost (hs : s.time.state = .holdover)
    (hl : s.time.holdoverFrom + 1000000 * s.time.holdoverMs ≤ (s.advance now).time.lt) :
    exec (.holdoverExpire now) s = .next ((s.advance now).enterTime .lost) :=
  if_pos ⟨by simpa using hs, by simpa using hl⟩

theorem lineTimeCorrect_corrects (p : Fin 136) (err : Int) (sc : Nat) (hr : s.timeRuns = true) (hp : p.val ∉ s.flash.retired)
    (hd : (tget { err := 0, since := 0 } s.time.copies p).since + 1024 ≤ max (s.cycle p) sc) :
    exec (.lineTimeCorrect p ⟨err, sc⟩) s = .next { s.advanceSc p sc with
      time := { s.time with copies := tset s.time.copies p { err := -err, since := max (s.cycle p) sc } } } := by
  have cycle : (s.advanceSc p sc).cycle p = max (s.cycle p) sc := (cycle_advanceSc s p sc p).trans (if_pos rfl)
  show execLineTimeCorrect p ⟨err, sc⟩ s = _
  unfold execLineTimeCorrect
  rw [if_neg (by simp [hr, hp])]
  dsimp only
  rw [cycle]
  exact if_neg (Nat.not_lt.2 hd)

/-- Settles O54: every event of line time is a measurement, a loss of its source, a change of `TIME_STATE` or a record of its own. -/
theorem lineTimeStates : Obligations.LineTimeStates := by
  unfold Obligations.LineTimeStates
  refine ⟨?_, ?_, ?_⟩
  · intro port dom transport msg now s m o hup hacc hm
    obtain ⟨v, state, offset, good, here, there⟩ := ptpReceive_measures (now := now) hup hacc hm
    refine ⟨fun hp => ?_, fun hp => ⟨_, there hp, state, rfl, offset⟩⟩
    obtain ⟨recorded, -, -⟩ := measure_records v o
    have run := here hp
    refine ⟨⟨_, run, recorded, measure_slewPpm_le v o⟩, fun hs => ⟨_, run, measure_free v o (state.trans hs)⟩, fun hs ho hg => ?_,
      fun hs ho hg => ⟨_, run, measure_locks v o (state.trans hs) ho (hg.trans_eq good.symm)⟩,
      fun hs ho => ⟨_, run, measure_bad v o (state.trans hs) ho⟩,
      fun hs => ⟨_, run, measure_locked v o (state.trans hs)⟩,
      fun hs => ⟨_, run, measure_reacquires v o (state ▸ hs)⟩⟩
    rw [← good] at hg ⊢
    exact ⟨_, run, measure_good v o (state.trans hs) ho hg⟩
  · intro port dom transport msg now s hup
    refine ⟨fun hacc hm => ?_, fun hacc => ?_⟩
    · obtain ⟨v, state, offset, good, run⟩ := ptpReceive_accepted (now := now) hup hacc
      rw [hm] at run
      exact ⟨v, run, state, offset, good⟩
    · obtain ⟨u, run, logged⟩ := ptpReceive_stranger (now := now) hup hacc
      have time : u.time = (s.advance now).time := logged.fields.2.2.2.2.2.1
      exact ⟨u, run, by rw [time, ← advance_eq_time]; exact onlyLogged_of_logged logged, time⟩
  · intro now s
    refine ⟨ptpDelayReqSend_sends, fun hs hl hh => ⟨_, (ptpSyncLoss_lost hs hl).trans (by rw [if_pos hh]), rfl, by simp⟩,
      fun hs hl hh => ⟨_, (ptpSyncLoss_lost hs hl).trans (by rw [if_neg (by rw [hh]; decide)]), ?_⟩,
      fun hs => ⟨_, if_pos (by simpa using hs), ?_⟩, fun hs hl => ⟨⟨_, holdoverExpire_lost hs hl, enterTime_state _ _⟩, fun hc =>
        ⟨_, holdoverExpire_lost hs hl, ?_⟩⟩, fun sub hs => ppsEdge_measures sub hs,
      fun p err sc hr hp hd => ⟨_, lineTimeCorrect_corrects p err sc hr hp hd, rfl⟩⟩
    · simp [loseSource_state]
    · simp [loseSource_state]
    · have same : (s.advance now).ctr .timeLostEvents 0 = s.ctr .timeLostEvents 0 := by simp [State.ctr]
      rw [enterTime_lost_counts _ (by simp [hs]) (by rwa [same]), same]

end Sys2Proof.Proofs
end

section
/-! Commands (O15): the state in which a queue looks for its command, the one reply of a command that runs, and the settings that
`SET_POLICY`, `SET_CAP` and `SET_TIME` change. -/

namespace Sys2Proof.Proofs

open Sys2Proof Sys2Proof.Machine Sys2Proof.Laws

variable {s t : State}

/-! ## The state in which a queue looks -/

/-- Once line time has come to the epoch of the running section, that run is marked so, and late pages are counted (R279). -/
theorem reachEpoch_marks (s : State) : ∃ u, Logged u s.reachEpoch ∧ (u = s ∨ ∃ c run, s.runSlot = some c ∧ (s.slot c).run = some run ∧
    u = s.modSlot c (fun x => { x with run := some { run with epochSeen := true } })) := by
  unfold State.reachEpoch
  split
  · exact ⟨s, .refl s, .inl rfl⟩
  · rename_i c hc
    split
    · rename_i img run hi hr
      dsimp only
      split
      · exact ⟨s, .refl s, .inl rfl⟩
      · exact ⟨_, bump_logged _ _ _ _, .inr ⟨c, run, hc, hr, rfl⟩⟩
    · exact ⟨s, .refl s, .inl rfl⟩

theorem parkRelated_replied (s : State) (q : Nat) : Replied s (s.parkRelated q) := by
  unfold State.parkRelated
  split
  · split
    · exact ⟨_, _, _, _, _, _, _, rfl, id⟩
    · exact .refl s
  · exact .refl s

theorem rejectUnknown_replied (s : State) (q : Nat) : Replied s (s.rejectUnknown q) := by
  refine replied_foldl _ (fun x _ => ?_) _ s
  split
  · split
    · exact reply_replied x _ _ _ _ _
    · exact .refl x
  · exact .refl x

/-- Looking for a command replies, parks and counts, and marks the run whose epoch has come. -/
theorem looked_replied (s : State) (q now : Nat) : ∃ u, Replied u (s.looked q now) ∧
    (u = s.advance now ∨ ∃ c run, (s.advance now).runSlot = some c ∧ (s.slot c).run = some run ∧
      u = (s.advance now).modSlot c (fun x => { x with run := some { run with epochSeen := true } })) := by
  obtain ⟨u, logged, hu⟩ := reachEpoch_marks (s.advance now)
  have slot (c : Nat) : (s.advance now).slot c = s.slot c := by simp [State.slot]
  refine ⟨u, (logged.replied.trans (parkRelated_replied _ q)).trans (rejectUnknown_replied _ q), ?_⟩
  simpa only [slot] using hu

/-- What it leaves as it was. -/
theorem looked_fields (s : State) (q now : Nat) :
    (s.looked q now).time = (s.advance now).time ∧ (s.looked q now).policies = s.policies ∧ (s.looked q now).power = s.power ∧
    (s.looked q now).flash = s.flash ∧ (s.looked q now).stations = s.stations ∧ (s.looked q now).shunter = s.shunter ∧
    (s.looked q now).tiers = s.tiers ∧ (s.looked q now).hops = s.hops := by
  obtain ⟨u, replied, hu⟩ := looked_replied s q now
  obtain ⟨_, _, _, _, _, _, _, e, _⟩ := replied
  rw [e]
  rcases hu with rfl | ⟨c, run, -, -, rfl⟩
  · simp
  · simp

/-- Of a slot only the mark of its run may have changed. -/
theorem looked_slot (s : State) (q now c : Nat) : (s.looked q now).slot c = s.slot c ∨
    ∃ run, (s.slot c).run = some run ∧ (s.looked q now).slot c = { s.slot c with run := some { run with epochSeen := true } } := by
  obtain ⟨u, replied, hu⟩ := looked_replied s q now
  obtain ⟨_, _, _, _, _, _, _, e, _⟩ := replied
  rw [e]
  rcases hu with rfl | ⟨d, run, -, hr, rfl⟩
  · exact .inl (by simp [State.slot])
  · by_cases h : c = d
    · subst h
      exact .inr ⟨run, hr, by simp [State.slot]⟩
    · exact .inl (by simp [State.slot, tget_tset_ne _ _ _ _ _ h])

theorem looked_state (s : State) (q now c : Nat) : ((s.looked q now).slot c).state = (s.slot c).state := by
  rcases looked_slot s q now c with h | ⟨_, _, h⟩ <;> rw [h]

theorem looked_anyBound (s : State) (q now : Nat) : (s.looked q now).anyBound = s.anyBound := by
  simp only [State.anyBound, looked_state]

/-! ## The reply -/

theorem onlyReplied_of_replied (h : Replied s t) : s.onlyReplied t := by
  obtain ⟨_, _, _, _, _, _, _, rfl, _⟩ := h
  rfl

/-- A reply takes its command off the queue, and its word stands at the tail of the completion ring, or leaves as a response. -/
theorem reply_replies (s : State) (q : Nat) (cmd : FetchedCmd) (status r0 r1 : Nat) :
    s.replied (s.reply q cmd status r0 r1) q cmd status r0 r1 := by
  have time : (s.reply q cmd status r0 r1).time = s.time := by simp
  unfold State.replied
  dsimp only
  rw [time]
  by_cases hq : q = 8
  · subst hq
    simp [State.reply, State.queue]
  · have word (m : List Host.Cell) (a i : Nat) (hi : i < 32) (w : Nat) :
        memRead (memWriteBytes m a (leBytes 32 w)) (a + i) = (leBytes 32 w).getD i 0 := by
      rw [memRead_writeBytes, if_pos (by simp [hi]), Nat.add_sub_cancel_left, List.getD_eq_getElem _ _ (by simpa using hi),
        List.getD_eq_getElem _ _ (by simpa using hi)]
    unfold State.reply
    dsimp only
    rw [if_neg hq]
    refine ⟨?_, fun h => absurd h hq, fun _ => ⟨?_, ?_⟩⟩
    · split <;> simp [State.queue]
    · split <;> simp [State.queue]
    · intro i hi
      split
      · exact word _ _ i hi _
      · exact word _ _ i hi _

/-- So it does after a change of line time that is only logged. -/
theorem reply_replies_of_logged {time : TimeKeeper} (h : Logged { s with time := time } t) (q : Nat) (cmd : FetchedCmd)
    (status r0 r1 : Nat) : s.replied (t.reply q cmd status r0 r1) q cmd status r0 r1 := by
  have queue : t.queue q = s.queue q := by
    obtain ⟨_, _, _, _, rfl, _⟩ := h
    rfl
  have sent : t.mctpSent = s.mctpSent := by
    obtain ⟨_, _, _, _, rfl, _⟩ := h
    rfl
  have done := reply_replies t q cmd status r0 r1
  unfold State.replied at done ⊢
  rwa [queue, sent] at done

/-- A command that its queue runs takes effect there. -/
theorem runCommand_fresh {q op now : Nat} {cmd : FetchedCmd} {mine : FetchedCmd → Bool} (fresh again : State → FetchedCmd → State)
    (h : s.runsCommand q op now cmd) (hm : mine cmd = true) :
    s.runCommand q op now mine fresh again = .next (fresh (s.looked q now) cmd) := by
  obtain ⟨current, opcode, wait, accepted, checks⟩ := h
  unfold State.runCommand
  simp only [State.looked] at current wait checks ⊢
  simp only [current, opcode, wait, accepted, checks, hm]
  simp

/-! ## `SET_POLICY` -/

theorem policyByte_eq (old : Bool) {n : Nat} (h : n ≤ 2) : policyByte old n = if n = 0 then old else n == 2 := by
  interval_cases n <;> rfl

/-- The policies that a `SET_POLICY` leaves (R439). -/
def policiesSet (p : Policies) (cmd : FetchedCmd) : Policies :=
  { p with
    budget := policyByte p.budget (cmd.p 0 1), prompt := policyByte p.prompt (cmd.p 1 1)
    dropNext := if cmd.p 2 1 = 0 then p.dropNext else some (cmd.p 2 1 == 2)
    paddedNext := if cmd.p 3 1 = 0 then p.paddedNext else some (cmd.p 3 1 == 2) }

variable {q : Fin 9} {now : Nat} {cmd : FetchedCmd}

theorem setPolicy_sets (h : s.runsCommand q 0x08 now cmd) (hp : ∀ i < 4, cmd.p i 1 ≤ 2) :
    exec (.setPolicy q now) s =
      .next ({ s.looked q now with policies := policiesSet s.policies cmd }.reply q cmd 0 0 0) := by
  have inRange : [0, 1, 2, 3].find? (fun i => decide (2 < cmd.p i 1)) = none := by
    rw [List.find?_eq_none]
    intro i hi
    have := hp i (by fin_cases hi <;> decide)
    simpa using this
  show execSetPolicy q now s = _
  unfold execSetPolicy
  rw [runCommand_fresh (mine := anyCmd) _ _ h rfl]
  rw [inRange]
  simp only [(looked_fields s q now).2.1]
  rfl

/-! ## `SET_CAP` -/

/-- The power state moves only the mark of strain and the instant from which it has passed. -/
theorem settlePower_keeps (s : State) : ∃ p, s.settlePower = s.setPower p ∧ p.capW = s.power.capW ∧ p.fMax = s.power.fMax ∧
    p.floor = s.power.floor ∧ p.rampW = s.power.rampW ∧ p.straggleHold = s.power.straggleHold ∧ p.fSet = s.power.fSet := by
  unfold State.settlePower
  dsimp only
  split
  · exact ⟨_, rfl, rfl, rfl, rfl, rfl, rfl, rfl⟩
  · split
    · exact ⟨_, rfl, rfl, rfl, rfl, rfl, rfl, rfl⟩
    · exact ⟨s.power, rfl, rfl, rfl, rfl, rfl, rfl, rfl⟩

theorem setPower_setPower (s : State) (a b : Power) : (s.setPower a).setPower b = s.setPower b := rfl

/-- The settings that the mask names take their values; the power state follows. -/
theorem setCap_sets (h : s.runsCommand q 0x09 now cmd) (hc : capFault s.flash.topOpMhz cmd = none) :
    ∃ p : Power, exec (.setCap q now) s = .next (((s.looked q now).setPower p).reply q cmd 0 0 0) ∧
      p.capW = (if bit (cmd.p 0 1) 0 then cmd.p 2 2 else s.power.capW) ∧
      p.fMax = (if bit (cmd.p 0 1) 1 then cmd.p 4 2 else s.power.fMax) ∧
      p.floor = (if bit (cmd.p 0 1) 2 then cmd.p 6 1 else s.power.floor) ∧
      p.rampW = (if bit (cmd.p 0 1) 3 then cmd.p 8 2 else s.power.rampW) ∧
      p.straggleHold = (if bit (cmd.p 0 1) 4 then cmd.p 7 1 == 1 else s.power.straggleHold) ∧ p.fSet = s.power.fSet := by
  obtain ⟨-, -, power, flash, -⟩ := looked_fields s q now
  show ∃ p : Power, execSetCap q now s = _ ∧ _
  unfold execSetCap
  rw [runCommand_fresh (mine := anyCmd) _ _ h rfl, flash, hc]
  dsimp only
  rw [power]
  generalize hw : (s.looked q now).setPower _ = w
  obtain ⟨p, settled, capW, fMax, floor, rampW, hold, fSet⟩ := settlePower_keeps w
  subst hw
  exact ⟨p, by rw [settled, setPower_setPower], capW, fMax, floor, rampW, hold, fSet⟩

theorem setCap_fails {off : Nat} (h : s.runsCommand q 0x09 now cmd) (hc : capFault s.flash.topOpMhz cmd = some off) :
    exec (.setCap q now) s = .next ((s.looked q now).reply q cmd 0x2004 0 off) := by
  obtain ⟨-, -, -, flash, -⟩ := looked_fields s q now
  show execSetCap q now s = _
  unfold execSetCap
  rw [runCommand_fresh (mine := anyCmd) _ _ h rfl]
  rw [flash, hc]

/-! ## `SET_TIME` -/

/-- The time keeper with the settings of a `SET_TIME`, before it takes its source (R440). -/
def timeSet (t : TimeKeeper) (cmd : FetchedCmd) : TimeKeeper :=
  let src := cmd.p 0 1
  let t := { t with lt := if cmd.p 24 1 == 1 then cmd.p 16 8 else t.lt, refFreq := cmd.p 3 1,
                    holdoverMs := if cmd.p 6 2 = 0 then t.holdoverMs else cmd.p 6 2 }
  if src = 1 then
    { t with transport := cmd.p 1 1, domain := cmd.p 2 1, primary := cmd.p 4 1, secondary := cmd.p 5 1,
             onSecondary := false, secGood := false, followDue := [], syncLt := t.lt, syncLog := 0 }
  else if src = 2 then { t with ppsLt := cmd.p 8 8 } else t

theorem timeSet_fields (t : TimeKeeper) (cmd : FetchedCmd) :
    (timeSet t cmd).lt = (if cmd.p 24 1 = 1 then cmd.p 16 8 else t.lt) ∧ (timeSet t cmd).source = t.source ∧
    (timeSet t cmd).refFreq = cmd.p 3 1 ∧ (timeSet t cmd).holdoverMs = (if cmd.p 6 2 = 0 then t.holdoverMs else cmd.p 6 2) ∧
    (timeSet t cmd).state = t.state ∧
    (cmd.p 0 1 = 1 → (timeSet t cmd).domain = cmd.p 2 1 ∧ (timeSet t cmd).primary = cmd.p 4 1 ∧
      (timeSet t cmd).secondary = cmd.p 5 1) ∧
    (cmd.p 0 1 = 2 → (timeSet t cmd).ppsLt = cmd.p 8 8) := by
  unfold timeSet
  dsimp only
  split
  · rename_i h1
    simp [h1]
  · rename_i h1
    split
    · rename_i h2
      simp [h2]
    · rename_i h2
      simp [h1, h2]

/-- The module under a `SET_TIME`: a new source enters ACQUIRING, or FREE where there is none (R440). -/
def retimed (v : State) (cmd : FetchedCmd) : State :=
  let t := timeSet v.time cmd
  let u := v.setTime { t with source := cmd.p 0 1 }
  if cmd.p 0 1 = t.source then u else u.enterTime (if cmd.p 0 1 = 0 then .free else .acquiring)

theorem setTime_sets (h : s.runsCommand q 0x0A now cmd) (hf : (s.looked q now).timeFault cmd = none)
    (hstep : cmd.p 24 1 = 1 → s.anyBound = false ∧ (s.looked q now).time.lt ≤ cmd.p 16 8)
    (href : cmd.p 0 1 = 2 → (s.looked q now).time.lt < cmd.p 8 8) :
    exec (.setTime q now) s = .next ((retimed (s.looked q now) cmd).reply q cmd 0 (retimed (s.looked q now) cmd).time.state.code 0) := by
  have bound : ¬(cmd.p 24 1 == 1 && (s.looked q now).anyBound) = true := by
    rw [looked_anyBound]
    intro hb
    simp only [Bool.and_eq_true, beq_iff_eq] at hb
    simp [(hstep hb.1).1] at hb
  have back : ¬((cmd.p 24 1 == 1) = true ∧ cmd.p 16 8 < (s.looked q now).time.lt) := fun hb =>
    Nat.not_lt.2 (hstep (beq_iff_eq.1 hb.1)).2 hb.2
  have past : ¬(cmd.p 0 1 = 2 ∧ cmd.p 8 8 ≤ (s.looked q now).time.lt) := fun hb => Nat.not_lt.2 hb.2 (href hb.1)
  show execSetTime q now s = _
  unfold execSetTime
  rw [runCommand_fresh (mine := anyCmd) _ _ h rfl]
  rw [hf]
  dsimp only
  rw [if_neg bound, if_neg back, if_neg past]
  rfl

/-- A change of `TIME_STATE` to another state than LOST touches the time keeper, and otherwise only the log. -/
theorem enterTime_logged (s : State) {x : TimeState} (hx : x ≠ .lost) : Logged { s with time := (s.enterTime x).time } (s.enterTime x) := by
  unfold State.enterTime
  simp only [if_neg hx]
  split
  · exact .refl s
  · simp only [notice_fields]
    exact notice_logged _ _ _ _

theorem retimed_logged (v : State) (cmd : FetchedCmd) :
    Logged { v with time := (retimed v cmd).time } (retimed v cmd) := by
  unfold retimed
  dsimp only
  split
  · exact .refl _
  · exact enterTime_logged _ (by split <;> decide)

theorem enterTime_settings (s : State) (x : TimeState) :
    (s.enterTime x).time.lt = s.time.lt ∧ (s.enterTime x).time.source = s.time.source ∧
    (s.enterTime x).time.refFreq = s.time.refFreq ∧ (s.enterTime x).time.holdoverMs = s.time.holdoverMs ∧
    (s.enterTime x).time.domain = s.time.domain ∧ (s.enterTime x).time.primary = s.time.primary ∧
    (s.enterTime x).time.secondary = s.time.secondary ∧ (s.enterTime x).time.ppsLt = s.time.ppsLt := by
  rw [enterTime_time]
  split
  · exact ⟨rfl, rfl, rfl, rfl, rfl, rfl, rfl, rfl⟩
  · exact ⟨rfl, rfl, rfl, rfl, rfl, rfl, rfl, rfl⟩

theorem retimed_time (v : State) (cmd : FetchedCmd) :
    (retimed v cmd).time.lt = (timeSet v.time cmd).lt ∧ (retimed v cmd).time.source = cmd.p 0 1 ∧
    (retimed v cmd).time.refFreq = (timeSet v.time cmd).refFreq ∧ (retimed v cmd).time.holdoverMs = (timeSet v.time cmd).holdoverMs ∧
    (retimed v cmd).time.domain = (timeSet v.time cmd).domain ∧ (retimed v cmd).time.primary = (timeSet v.time cmd).primary ∧
    (retimed v cmd).time.secondary = (timeSet v.time cmd).secondary ∧ (retimed v cmd).time.ppsLt = (timeSet v.time cmd).ppsLt ∧
    (retimed v cmd).time.state =
      if cmd.p 0 1 = v.time.source then v.time.state else if cmd.p 0 1 = 0 then .free else .acquiring := by
  obtain ⟨-, source, -, -, state, -⟩ := timeSet_fields v.time cmd
  unfold retimed
  dsimp only
  rw [source]
  split
  · exact ⟨rfl, rfl, rfl, rfl, rfl, rfl, rfl, rfl, state⟩
  · obtain ⟨lt, src, refFreq, holdover, domain, primary, secondary, pps⟩ := enterTime_settings
      (v.setTime { timeSet v.time cmd with source := cmd.p 0 1 }) (if cmd.p 0 1 = 0 then .free else .acquiring)
    exact ⟨lt, src, refFreq, holdover, domain, primary, secondary, pps, enterTime_state _ _⟩

/-! ## The settings -/

/-- Settles O15: each command changes the one part of the state that it sets, and then replies. -/
theorem settingsCommands : Obligations.SettingsCommands := by
  unfold Obligations.SettingsCommands
  intro q now s cmd
  refine ⟨fun h hp => ⟨_, setPolicy_sets h hp, ?_⟩, fun h hc => ?_, fun off h hc => ⟨_, setCap_fails h hc, ?_⟩,
    fun h hf hstep href => ⟨_, setTime_sets h hf hstep href, ?_⟩⟩
  · generalize s.looked q now = v
    simp only [reply_fields]
    refine ⟨onlyReplied_of_replied (reply_replied _ _ _ _ _ _), reply_replies _ _ _ _ _ _, policyByte_eq _ (hp 0 (by decide)),
      policyByte_eq _ (hp 1 (by decide)), rfl, rfl, rfl, rfl⟩
  · obtain ⟨p, run, settings⟩ := setCap_sets h hc
    refine ⟨_, run, ?_⟩
    generalize s.looked q now = v
    simp only [reply_fields]
    exact ⟨onlyReplied_of_replied (reply_replied _ _ _ _ _ _), reply_replies _ _ _ _ _ _, settings⟩
  · exact ⟨onlyReplied_of_replied (reply_replied _ _ _ _ _ _), reply_replies _ _ _ _ _ _⟩
  · obtain ⟨time, -⟩ := looked_fields s q now
    obtain ⟨lt, source, refFreq, holdover, domain, primary, secondary, pps, state⟩ := retimed_time (s.looked q now) cmd
    obtain ⟨lt', -, refFreq', holdover', -, ptp, ref⟩ := timeSet_fields (s.looked q now).time cmd
    have logged := retimed_logged (s.looked q now) cmd
    generalize retimed (s.looked q now) cmd = w at *
    simp only [reply_fields]
    refine ⟨onlyReplied_of_replied (logged.replied.trans (reply_replied _ _ _ _ _ _)), ?_, lt.trans lt', ?_, source,
      refFreq.trans refFreq', ?_, fun h1 => ?_, fun h2 => pps.trans (ref h2), ?_⟩
    · exact reply_replies_of_logged (time := w.time) logged _ _ _ _ _
    · rw [lt, lt']
      split
      · rename_i h1
        exact (hstep h1).2
      · exact Nat.le_refl _
    · rw [holdover, holdover', time]
      simp
    · obtain ⟨d, p, c⟩ := ptp h1
      exact ⟨domain.trans d, primary.trans p, secondary.trans c⟩
    · rw [state, time]
      simp

end Sys2Proof.Proofs
end

section
/-! Pages, frames and messages lie apart from the Stations: what allocates, moves, writes and retires them, and what sends, leaves the
Stations, the Loop, the Turntables, line time and the power state as they were. -/

namespace Sys2Proof.Proofs

open Sys2Proof Sys2Proof.Machine Sys2Proof.Laws

/-- The Stations with their cycle counts and numbers, the Loop, the Turntables, line time, the power state and the policies are the same. -/
abbrev Apart (s t : State) : Prop :=
  t.stations = s.stations ∧ t.cycles = s.cycles ∧ t.flash.retired = s.flash.retired ∧ t.hops = s.hops ∧ t.turns = s.turns ∧
  t.turnOut = s.turnOut ∧ t.time = s.time ∧ t.power = s.power ∧ t.policies = s.policies

variable {s t u : State}

theorem Apart.refl (s : State) : Apart s s := ⟨rfl, rfl, rfl, rfl, rfl, rfl, rfl, rfl, rfl⟩

theorem Apart.trans (h : Apart s t) (k : Apart t u) : Apart s u := by
  obtain ⟨h1, h2, h3, h4, h5, h6, h7, h8, h9⟩ := h
  obtain ⟨k1, k2, k3, k4, k5, k6, k7, k8, k9⟩ := k
  exact ⟨k1.trans h1, k2.trans h2, k3.trans h3, k4.trans h4, k5.trans h5, k6.trans h6, k7.trans h7, k8.trans h8, k9.trans h9⟩

theorem Apart.foldl {β : Type} (f : State → β → State) (h : ∀ x b, Apart x (f x b)) (l : List β) (s : State) : Apart s (l.foldl f s) :=
  foldl_keeps (Apart s) f (fun x b hx => hx.trans (h x b)) l s (.refl s)

variable (s)

/-! ## Frames -/

@[simp] theorem setMem_apart (host : Bool) (m : List Host.Cell) : Apart s (s.setMem host m) := by cases host <;> exact .refl s

@[simp] theorem setEntry_apart (e : Nat) (v : MapEntry) : Apart s (s.setEntry e v) := .refl s

@[simp] theorem cleanFrame_apart (tier frame : Nat) : Apart s (s.cleanFrame tier frame) := .refl s

@[simp] theorem frameWrite_apart (tier frame off : Nat) (bs : List Byte) : Apart s (s.frameWrite tier frame off bs) := setMem_apart s _ _

@[simp] theorem frameCells_apart (tier frame off n a : Nat) (cells : List Host.Cell) : Apart s (s.frameCells tier frame off n a cells) :=
  setMem_apart s _ _

@[simp] theorem frameClear_apart (tier frame : Nat) : Apart s (s.frameClear tier frame) := setMem_apart s _ _

@[simp] theorem wipeFrame_apart (tier frame : Nat) : Apart s (s.wipeFrame tier frame) := by
  unfold State.wipeFrame
  dsimp only
  split <;> simp [Apart]

@[simp] theorem retireFrame_apart (tier frame : Nat) : Apart s (s.retireFrame tier frame) := by
  unfold State.retireFrame
  dsimp only
  split
  · split <;> simp [Apart]
  · split <;> simp [Apart]

@[simp] theorem checkFit_apart (w : Nat) : Apart s (s.checkFit w) := by
  unfold State.checkFit
  split
  · exact .refl s
  · refine .foldl _ (fun x c => ?_) _ s
    dsimp only
    split <;> simp [Apart]

@[simp] theorem retireQuit_apart (k : Nat) : Apart s (s.retireQuit k) := by
  unfold State.retireQuit
  split <;> simp [Apart]

@[simp] theorem quitFrame_apart (k : Nat) : Apart s (s.quitFrame k) := by simp [State.quitFrame, Apart]

@[simp] theorem drained_apart : Apart s s.drained := .foldl _ (fun x k => by simp [Apart]) _ s

@[simp] theorem leaveFrame_apart (tier frame : Nat) : Apart s (s.leaveFrame tier frame) := by
  unfold State.leaveFrame
  split <;> simp [Apart]

@[simp] theorem retireWaiting_apart : Apart s s.retireWaiting := .foldl _ (fun x k => by simp [Apart]) _ s

/-! ## Pages -/

@[simp] theorem allocPage_apart (c e object page : Nat) (order : List Nat) (pinned : Bool) :
    Apart s (s.allocPage c e object page order pinned) := by
  unfold State.allocPage
  split <;> simp [Apart]

@[simp] theorem freePage_apart (e : Nat) : Apart s (s.freePage e) := by
  unfold State.freePage
  dsimp only
  split
  · split <;> simp [Apart]
  · exact .refl s

@[simp] theorem zeroFill_apart (e : Nat) : Apart s (s.zeroFill e) := by
  unfold State.zeroFill
  dsimp only
  split <;> simp [Apart]

@[simp] theorem shift_apart (e tier frame : Nat) : Apart s (s.shift e tier frame) := by
  unfold State.shift
  dsimp only
  split <;> simp [Apart]

@[simp] theorem spareList_apart (c e object more : Nat) : Apart s (s.spareList c e object more) := by
  unfold State.spareList
  dsimp only
  split
  · split
    · simp [Apart]
    · split <;> simp [Apart]
  · exact .refl s

@[simp] theorem pageWrite_apart (c e object off : Nat) (bs : List Byte) (bad : Nat → Bool) :
    Apart s (s.pageWrite c e object off bs bad) := by
  unfold State.pageWrite
  extract_lets +onlyGivenNames z more w m k x
  have spared : Apart z w := by
    unfold w
    split <;> simp [Apart]
  have moved : Apart s w := (zeroFill_apart s e).trans spared
  exact moved.trans (by simp [x, Apart])

@[simp] theorem pageCells_apart (e off n a : Nat) (cells : List Host.Cell) : Apart s (s.pageCells e off n a cells) := by
  simp [State.pageCells, Apart]

@[simp] theorem poisonGran_apart (c e object gran : Nat) : Apart s (s.poisonGran c e object gran) := by
  unfold State.poisonGran
  dsimp only
  split <;> simp [Apart]

@[simp] theorem itemCells_apart (c item b n : Nat) (cells : List Host.Cell) : Apart s (s.itemCells c item b n cells) := by
  unfold State.itemCells
  split
  · exact .refl s
  · exact .foldl _ (fun x q => pageCells_apart x _ _ _ _ _) _ s

@[simp] theorem dirtyPage_apart (c object page : Nat) : Apart s (s.dirtyPage c object page) := by
  unfold State.dirtyPage
  split
  · split <;> simp [Apart]
  · exact .refl s

@[simp] theorem objWrite_apart (c object b : Nat) (bs : List Byte) (bad : Nat → Bool) : Apart s (s.objWrite c object b bs bad) := by
  unfold State.objWrite
  split
  · exact .refl s
  · exact .foldl _ (fun x q => (pageWrite_apart x _ _ _ _ _ _).trans (dirtyPage_apart _ _ _ _)) _ s

/-! ## Errors in the tiers -/

@[simp] theorem evacFrame_apart (e k : Nat) : Apart s (s.evacFrame e k) := by
  unfold State.evacFrame
  dsimp only
  split <;> exact .refl s

@[simp] theorem evacuate_apart (e : Nat) : Apart s (s.evacuate e) := by
  unfold State.evacuate
  dsimp only
  split
  · exact evacFrame_apart s _ _
  · exact .refl s

@[simp] theorem freshError_apart (c object : Nat) (reads : List FillRead) (g : Nat) : Apart s (s.freshError c object reads g) := by
  unfold State.freshError
  split
  · exact .refl s
  · dsimp only
    split
    · exact .refl s
    · split
      · simp [Apart]
      · split <;> exact .refl s

@[simp] theorem dropFrame_apart (tier frame : Nat) : Apart s (s.dropFrame tier frame) := by
  unfold State.dropFrame
  dsimp only
  split
  · simp [Apart]
  · split
    · split <;> exact .refl s
    · simp [Apart]

@[simp] theorem corrected_apart (tier frame : Nat) : Apart s (s.corrected tier frame) := by
  unfold State.corrected
  dsimp only
  split
  · split <;> simp [Apart]
  · exact .refl s

@[simp] theorem correctedReads_apart (c object : Nat) (reads : List FillRead) (grans : List Nat) :
    Apart s (s.correctedReads c object reads grans) := by
  unfold State.correctedReads
  split
  · exact .refl s
  · refine .foldl _ (fun x g => ?_) _ s
    dsimp only
    split <;> simp [Apart]

@[simp] theorem tierFault_apart (e k gran : Nat) : Apart s (s.tierFault e k gran) := by
  unfold State.tierFault
  dsimp only
  split
  · exact .refl s
  · split
    · split <;> simp [Apart]
    · split <;> simp [Apart]

@[simp] theorem emptyFault_apart (k gran : Nat) : Apart s (s.emptyFault k gran) := by simp [State.emptyFault, Apart]

@[simp] theorem tierError_apart (e k gran : Nat) : Apart s (s.tierError e k gran) := by
  unfold State.tierError
  dsimp only
  split
  · simp [Apart]
  · split <;> simp [Apart]

@[simp] theorem objErrors_apart (c : Nat) (errs : List ObjError) : Apart s (s.objErrors c errs) := by
  refine .foldl _ (fun x q => ?_) _ s
  dsimp only
  split
  · exact .refl x
  · split
    · exact .refl x
    · split <;> simp [Apart]

@[simp] theorem readBack_apart (c object : Nat) (reads : List FillRead) (spans : List (Nat × Nat)) (errs : List ReadError) :
    Apart s (s.readBack c object reads spans errs).1 :=
  (correctedReads_apart s c object reads _).trans (.foldl _ (fun x g => freshError_apart x c object reads g) _ _)

@[simp] theorem foundErrors_apart (c object : Nat) (reads : List FillRead) (r : EvtRec) (grans : List Nat) :
    Apart s (s.foundErrors c object reads r grans) := by
  unfold State.foundErrors
  split
  · exact .refl s
  · exact Apart.trans (by simp [Apart]) (.foldl _ (fun x g => by simp [Apart]) _ (s.runBad (grans != [])))

/-! ## Messages -/

@[simp] theorem sendFrame_apart (p : Nat) (dst : Option Nat) (size : Nat) (body : TxBody) : Apart s (s.sendFrame p dst size body) := by
  simp [State.sendFrame, Apart]

@[simp] theorem sendMessage_apart (f : Nat) (data : List Byte) (poison : List Nat) (sect : Nat) :
    Apart s (s.sendMessage f data poison sect).1 := by
  simp [State.sendMessage, Apart]

@[simp] theorem sendColl_apart (b : Binding) (rank : Nat) (h : CollHdr) (body : List Byte) (poison : List Nat) (sect : Nat) :
    Apart s (s.sendColl b rank h body poison sect).1 := by
  unfold State.sendColl
  split
  · exact .refl s
  · simp [Apart]

@[simp] theorem sendSpan_apart (b : Binding) (rank : Nat) (h : CollHdr) (body : List Byte) (poison : List Nat) (sect : Nat) :
    Apart s (s.sendSpan b rank h body poison sect) := by
  unfold State.sendSpan
  dsimp only
  split
  · exact .refl s
  · split <;> simp [Apart]

@[simp] theorem sendUnit_apart (b : Binding) (rank : Nat) (h : CollHdr) (x : UnitDesc) (k sect : Nat) (vals : Nat → PVal) :
    Apart s (s.sendUnit b rank h x k sect vals) := .foldl _ (fun x _ => sendSpan_apart x _ _ _ _ _ _) _ s

@[simp] theorem sendVote_apart (b : Binding) (rank stage epoch : Nat) (v : VoteRec) : Apart s (s.sendVote b rank stage epoch v) :=
  sendColl_apart s _ _ _ _ _ _

end Sys2Proof.Proofs
end

section
/-! The Loop moves and a section is cut: neither changes a run, a line, a Token or an issue count, and while no frame waits to retire
neither changes a queue or stops a context. -/

namespace Sys2Proof.Proofs

open Sys2Proof Sys2Proof.Machine Sys2Proof.Laws

/-- A Station's Tokens, its lines, and its issues: what only issues, landings and boundaries change. -/
def entries (st : Station) : Table Nat × Table RunLine × Nat × Option Nat := (st.tokens, st.lines, st.issued, st.lastIssue)

/-- Slots may stop and be marked bad, and where no frame waits to retire they only become bad and no command is replied; line time,
retired Stations, power, and the Stations' cycles, Tokens, lines and issues stay. -/
structure Cuts (s t : State) : Prop where
  slots   : ∀ c, Halts (s.slot c) (t.slot c)
  calm    : s.calm → t.calm ∧ t.queues = s.queues ∧ ∀ c, (t.slot c).state = (s.slot c).state
  time    : t.time = s.time
  retired : t.flash.retired = s.flash.retired
  power   : t.power = s.power
  keeps   : Keeps entries s t

variable {s t u : State}

theorem Cuts.refl (s : State) : Cuts s s :=
  ⟨fun _ => .refl _, fun h => ⟨h, rfl, fun _ => rfl⟩, rfl, rfl, rfl, .refl s⟩

theorem Cuts.trans (h : Cuts s t) (k : Cuts t u) : Cuts s u where
  slots c := (h.slots c).trans (k.slots c)
  calm hs := by
    obtain ⟨ht, hq, hst⟩ := h.calm hs
    obtain ⟨hu, kq, kst⟩ := k.calm ht
    exact ⟨hu, kq.trans hq, fun c => (kst c).trans (hst c)⟩
  time := k.time.trans h.time
  retired := k.retired.trans h.retired
  power := k.power.trans h.power
  keeps := h.keeps.trans k.keeps

theorem Cuts.foldl {β : Type} {g : State → β → State} (h : ∀ x b, Cuts x (g x b)) (l : List β) (s : State) : Cuts s (l.foldl g s) :=
  foldl_keeps (Cuts s) g (fun x b hx => hx.trans (h x b)) l s (.refl s)

/-- A change of none of them but within the Stations. -/
theorem Cuts.of (hs : t.slots = s.slots) (hh : t.shunter = s.shunter) (hq : t.queues = s.queues) (ht : t.time = s.time)
    (hf : t.flash = s.flash) (hp : t.power = s.power) (k : Keeps entries s t) : Cuts s t where
  slots c := by simp only [State.slot, hs]; exact .refl _
  calm h := ⟨by simpa only [State.calm, hh] using h, hq, fun c => by simp only [State.slot, hs]⟩
  time := ht
  retired := by rw [hf]
  power := hp
  keeps := k

theorem Cuts.at (h : AtStations s t) (k : Keeps entries s t) : Cuts s t := by
  obtain ⟨_, _, _, _, _, _, rfl⟩ := h
  exact .of rfl rfl rfl rfl rfl rfl k

theorem Cuts.of_logged (h : Logged s t) : Cuts s t := .at (.of_logged h) (.of_logged h)

/-- Neither the queues of the Turntables nor the names of the departures in progress change as well: what moves along the Loop. -/
structure Glides (s t : State) : Prop extends Cuts s t where
  turns : t.turns = s.turns
  named : Keeps names s t

theorem Glides.refl (s : State) : Glides s s := ⟨.refl s, rfl, .refl s⟩

theorem Glides.trans (h : Glides s t) (k : Glides t u) : Glides s u :=
  ⟨h.toCuts.trans k.toCuts, k.turns.trans h.turns, h.named.trans k.named⟩

theorem Glides.foldl {β : Type} {g : State → β → State} (h : ∀ x b, Glides x (g x b)) (l : List β) (s : State) : Glides s (l.foldl g s) :=
  foldl_keeps (Glides s) g (fun x b hx => hx.trans (h x b)) l s (.refl s)

theorem Glides.of_logged (h : Logged s t) : Glides s t := by
  obtain ⟨_, _, _, _, rfl, _⟩ := h
  exact ⟨.of rfl rfl rfl rfl rfl rfl (.of_eq rfl rfl), rfl, .of_eq rfl rfl⟩

variable (s)

theorem bump_glides (c : Ctr) (i n : Nat) : Glides s (s.bump c i n) := .of_logged (bump_logged s c i n)

theorem bump_cuts (c : Ctr) (i n : Nat) : Cuts s (s.bump c i n) := .of_logged (bump_logged s c i n)

theorem setStation_cuts (k : Nat) {v : Station} (h : entries v = entries (s.station k)) : Cuts s (s.setStation k v) :=
  .at (setStation_atStations s k v) (.setStation s h)

theorem modStation_cuts (k : Nat) {g : Station → Station} (h : ∀ st, entries (g st) = entries st) : Cuts s (s.modStation k g) :=
  .at (modStation_atStations s k g) (.modStation s h)

theorem setStation_glides (k : Nat) {v : Station} (h : entries v = entries (s.station k)) (hn : names v = names (s.station k)) :
    Glides s (s.setStation k v) := ⟨setStation_cuts s k h, rfl, .setStation s hn⟩

theorem modStation_glides (k : Nat) {g : Station → Station} (h : ∀ st, entries (g st) = entries st) (hn : ∀ st, names (g st) = names st) :
    Glides s (s.modStation k g) := setStation_glides s k (h _) (hn _)

theorem modProg_glides (k : Nat) (id : DepId) (g : Prog → Prog) (hg : ∀ q : Prog, (g q).id = q.id ∧ (g q).word = q.word) :
    Glides s (s.modProg k id g) := modStation_glides s k (fun _ => rfl) fun st => names_modProg st id g hg

theorem finish_glides (k : Nat) (id : DepId) (sc : Nat) : Glides s (s.finish k id sc) := modProg_glides s k id _ fun _ => ⟨rfl, rfl⟩

theorem stall_glides (k : Nat) (id : DepId) (cause n : Nat) : Glides s (s.stall k id cause n) := by
  unfold State.stall
  split
  · exact .refl s
  · exact modProg_glides s k id _ fun _ => ⟨rfl, rfl⟩

theorem markStepBad_glides (c : Nat) : Glides s (s.markStepBad c) := by
  unfold State.markStepBad
  extract_lets +onlyGivenNames x y v
  split
  · exact .refl s
  · have marked : Cuts s v := by
      refine ⟨fun d => ?_, fun h => ⟨h, rfl, fun d => ?_⟩, rfl, rfl, rfl, .of_eq rfl rfl⟩
      · rw [slot_setSlot]
        split
        next e => exact e ▸ ⟨_, _, _, rfl, .inl rfl⟩
        · exact .refl _
      · rw [slot_setSlot]
        split
        next e => exact e ▸ rfl
        · rfl
    exact (show Glides s v from ⟨marked, rfl, .of_eq rfl rfl⟩).trans (.of_logged ((bump_logged v _ _ _).trans (notice_logged _ _ _ _)))

theorem runBad_glides (b : Bool) : Glides s (s.runBad b) := by
  unfold State.runBad
  split
  · exact markStepBad_glides s _
  · exact .refl s

/-! ## The Loop -/

theorem setHop_glides (p l : Nat) (h : Hop) : Glides s (s.setHop p l h) := ⟨.of rfl rfl rfl rfl rfl rfl (.of_eq rfl rfl), rfl, .of_eq rfl rfl⟩

theorem modHop_glides (p l : Nat) (g : Hop → Hop) : Glides s (s.modHop p l g) := setHop_glides s p l _

theorem bumpNode_glides (p : Nat) (c : Ctr) (n : Nat) : Glides s (s.bumpNode p c n) := by
  unfold State.bumpNode
  split
  · exact bump_glides s c p n
  · exact .refl s

theorem setTurnOut_glides (x : Table (List TurnOut)) : Glides s { s with turnOut := x } :=
  ⟨.of rfl rfl rfl rfl rfl rfl (.of_eq rfl rfl), rfl, .of_eq rfl rfl⟩

theorem launched_glides (p : Nat) (c : Consist) (start : Nat) : Glides s (s.launched p c start) := by
  unfold State.launched
  split
  · exact .refl s
  next id _ =>
    extract_lets +onlyGivenNames k
    split
    · exact .refl s
    · extract_lets +onlyGivenNames sc
      split
      · refine ((modProg_glides s k id _ ?_).trans (stall_glides _ _ _ _ _)).trans (setTurnOut_glides _ _)
        exact fun _ => ⟨rfl, rfl⟩
      · split
        · exact (finish_glides s _ _ _).trans (stall_glides _ _ _ _ _)
        · exact .refl s

theorem putFlits_glides (p l n : Nat) : Glides s (s.putFlits p l n) := by
  unfold State.putFlits
  extract_lets +onlyGivenNames h h' v w
  have counted : Glides v w := by
    unfold w
    split
    · exact bump_glides v _ _ _
    · exact .refl v
  have sent : Glides s w := ((setHop_glides s _ _ _).trans (bumpNode_glides _ _ _ _)).trans counted
  split
  · split
    · exact sent.trans (launched_glides w _ _ _)
    · exact sent
  · exact sent

theorem noteWait_glides (p l : Nat) (b : Bool) : Glides s (s.noteWait p l b) := by
  unfold State.noteWait
  extract_lets +onlyGivenNames h
  split
  · exact .refl s
  · split
    · exact setHop_glides s _ _ _
    · split
      · exact (setHop_glides s _ _ _).trans (bump_glides _ _ _ _)
      · exact .refl s

theorem dropTake_entries (st : Station) (id : DepId) : entries (st.dropTake id) = entries st := rfl

theorem dropTake_names (st : Station) (id : DepId) : names (st.dropTake id) = names st := rfl

theorem consume_glides (p l : Nat) (c : Consist) (id : DepId) (r n : Nat) : Glides s (s.consume p l c id r n) := by
  unfold State.consume
  split
  · exact .refl s
  next k _ =>
    extract_lets +onlyGivenNames st
    split
    · exact .refl s
    · extract_lets +onlyGivenNames op began
      split
      · extract_lets +onlyGivenNames a from' bytes v done
        have written : Glides s v := setStation_glides s k rfl rfl
        split
        · have dropped : Glides v (v.modStation k (fun st => st.dropTake id)) :=
            modStation_glides v k (fun st => dropTake_entries st id) fun st => dropTake_names st id
          exact ((written.trans dropped).trans (finish_glides _ _ _ _)).trans (stall_glides _ _ _ _ _)
        · exact written
      · split
        · have staged := stageData_blind (f := entries) (fun _ _ => rfl) st
          have called := stageData_blind (f := names) (fun _ _ => rfl) st
          exact ((setStation_glides s k ((dropTake_entries _ _).trans (staged _ _ _)) ((dropTake_names _ _).trans (called _ _ _))).trans (stall_glides _ _ _ _ _)).trans
            (runBad_glides _ _)
        · exact .refl s

theorem arriveStep_glides (p l : Nat) : Glides s (s.arriveStep p l).1 := by
  unfold State.arriveStep
  extract_lets +onlyGivenNames q up here
  split
  · exact .refl s
  · extract_lets +onlyGivenNames n
    split
    · exact .refl s
    · exact setHop_glides s _ _ _

theorem passStep_glides (p l : Nat) : Glides s (s.passStep p l).1 := by
  unfold State.passStep
  dsimp only
  split
  · exact .refl s
  · split
    · exact setHop_glides s _ _ _
    · exact .refl s

theorem readStep_glides (p l : Nat) : Glides s (s.readStep p l).1 := by
  unfold State.readStep
  extract_lets +onlyGivenNames q here
  split
  · exact .refl s
  · extract_lets +onlyGivenNames room n
    split
    · exact .refl s
    · extract_lets +onlyGivenNames v w x
      have taken : Glides w x := by
        unfold x
        split
        · exact consume_glides w _ _ _ _ _ _
        · exact bumpNode_glides w _ _ _
        · exact .refl w
      have read : Glides s x := ((modHop_glides s _ _ _).trans (modHop_glides v _ _ _)).trans taken
      dsimp only
      split
      · exact read.trans (putFlits_glides x p l n)
      · exact read

theorem ownStep_glides (p l : Nat) : Glides s (s.ownStep p l).1 := by
  unfold State.ownStep
  extract_lets +onlyGivenNames here
  split
  · extract_lets +onlyGivenNames n
    split
    · exact .refl s
    · exact putFlits_glides s p l n
  · split
    · extract_lets +onlyGivenNames sc waits
      split
      · exact .refl s
      · exact setHop_glides s _ _ _
    · exact .refl s

theorem endStep_glides (p l : Nat) : Glides s (s.endStep p l).1 := by
  unfold State.endStep
  extract_lets +onlyGivenNames here
  split
  next v n e =>
    have input : Glides s v := by
      split at e
      · split at e <;> obtain ⟨rfl, -⟩ := Prod.mk.inj e
        · exact modHop_glides s _ _ _
        · exact .refl s
      · obtain ⟨rfl, -⟩ := Prod.mk.inj e
        exact .refl s
    extract_lets +onlyGivenNames there
    split
    · split
      · exact (input.trans (setHop_glides v _ _ _)).trans (bumpNode_glides _ _ _ _)
      · exact input
    · exact input

theorem nodeStep_glides (p l : Nat) : Glides s (s.nodeStep p l).1 :=
  (((((arriveStep_glides s p l).trans (passStep_glides _ p l)).trans (readStep_glides _ p l)).trans
    (ownStep_glides _ p l)).trans (endStep_glides _ p l)).trans (noteWait_glides _ p l _)

theorem loopSettle_glides (n l : Nat) (work : List Nat) : Glides s (s.loopSettle n work l) :=
  loopSettle_inv (I := Glides s) (fun x q h => h.trans (nodeStep_glides x q l)) n work s (.refl s)

theorem pump_glides (p l : Nat) : Glides s (s.pump p l) := loopSettle_glides s _ l _

theorem markStepBad_cuts (c : Nat) : Cuts s (s.markStepBad c) := (markStepBad_glides s c).toCuts

theorem runBad_cuts (b : Bool) : Cuts s (s.runBad b) := (runBad_glides s b).toCuts

theorem bumpNode_cuts (p : Nat) (c : Ctr) (n : Nat) : Cuts s (s.bumpNode p c n) := (bumpNode_glides s p c n).toCuts

theorem loopSettle_cuts (n l : Nat) (work : List Nat) : Cuts s (s.loopSettle n work l) := (loopSettle_glides s n l work).toCuts

/-! ## Sidings and frames -/

theorem noteFills_glides (k : Nat) : Glides s (s.noteFills k) := by
  refine ⟨.at (noteFills_atStations s k) (noteFills_keeps s (fun _ _ => rfl) k), ?_, noteFills_keeps s (fun _ _ => rfl) k⟩
  rw [(noteFills_atStations s k).eq]

theorem noteFills_cuts (k : Nat) : Cuts s (s.noteFills k) := (noteFills_glides s k).toCuts

theorem noteAllFills_cuts : Cuts s s.noteAllFills := .foldl noteFills_cuts _ s

theorem setMem_outside (host : Bool) (m : List Host.Cell) :
    (s.setMem host m).shunter = s.shunter ∧ (s.setMem host m).queues = s.queues ∧ (s.setMem host m).slots = s.slots := by
  cases host <;> exact ⟨rfl, rfl, rfl⟩

theorem wipeFrame_outside (tier frame : Nat) : (s.wipeFrame tier frame).shunter = s.shunter ∧
    (s.wipeFrame tier frame).queues = s.queues ∧ (s.wipeFrame tier frame).slots = s.slots := by
  unfold State.wipeFrame
  extract_lets v
  split
  · exact ⟨rfl, rfl, rfl⟩
  · exact setMem_outside v _ _

theorem quitFrame_calm (k : Nat) (h : s.calm) :
    (s.quitFrame k).calm ∧ (s.quitFrame k).queues = s.queues ∧ (s.quitFrame k).slots = s.slots := by
  obtain ⟨hsh, hq, hs⟩ := wipeFrame_outside s (k / 2 ^ 21) (k % 2 ^ 21)
  have none : (s.wipeFrame (k / 2 ^ 21) (k % 2 ^ 21)).retireQuit k = s.wipeFrame (k / 2 ^ 21) (k % 2 ^ 21) := by
    unfold State.retireQuit
    rw [if_neg]
    rw [hsh, show s.shunter.retiring = [] from h]
    simp
  rw [State.quitFrame, none]
  exact ⟨by rw [State.calm, hsh]; exact h, hq, hs⟩

/-- Where no frame waits to retire, frames that become free stop no context. -/
theorem drained_calm (h : s.calm) : s.drained.calm ∧ s.drained.queues = s.queues ∧ s.drained.slots = s.slots := by
  unfold State.drained
  refine foldl_keeps (fun x : State => x.calm ∧ x.queues = s.queues ∧ x.slots = s.slots) _ (fun x k hx => ?_) _ s ⟨h, rfl, rfl⟩
  obtain ⟨hc, hq, hs⟩ := hx
  obtain ⟨kc, kq, ks⟩ := quitFrame_calm
    { x with tiers := { x.tiers with draining := x.tiers.draining.filter (fun y => y != k) } } k hc
  exact ⟨kc, kq.trans hq, ks.trans hs⟩

theorem drained_cuts : Cuts s s.drained where
  slots := (drained_quits s).slots
  calm h := by
    obtain ⟨hc, hq, hs⟩ := drained_calm s h
    exact ⟨hc, hq, fun c => by simp only [State.slot, hs]⟩
  time := (drained_apart s).2.2.2.2.2.2.1
  retired := (drained_apart s).2.2.1
  power := by simp
  keeps := .of_eq (by simp) (by simp)

end Sys2Proof.Proofs
end

section
/-! A section's work is cut (R105, R304 to R306): at each Station, on the Loop, and ahead of its section. -/

namespace Sys2Proof.Proofs

open Sys2Proof Sys2Proof.Machine Sys2Proof.Laws

variable (s : State)

theorem entries_foldl {β : Type} {g : Station → β → Station} (h : ∀ x b, entries (g x b) = entries x) (l : List β) (st : Station) :
    entries (l.foldl g st) = entries st :=
  foldl_keeps (fun x => entries x = entries st) g (fun x b hx => (h x b).trans hx) l st rfl

theorem cutMultiply_entries (st : Station) (p : Prog) (sc : Nat) : entries (st.cutMultiply p sc) = entries st := by
  unfold Station.cutMultiply
  extract_lets +onlyGivenNames waiting entered never a marks b c
  have left : entries a = entries st := entries_foldl (fun _ _ => by rfl) _ _
  have marked : entries b = entries a := entries_foldl (fun _ _ => by rfl) _ _
  have ended : entries (c.endStream p) = entries c := by
    unfold Station.endStream
    dsimp only
    split
    · refine entries_foldl (fun x i => ?_) _ _
      split <;> rfl
    · rfl
  exact ended.trans (marked.trans left)

theorem cutDep_entries (sc : Nat) (st : Station) (p : Prog) : entries (st.cutDep sc p) = entries st := by
  unfold Station.cutDep
  extract_lets +onlyGivenNames op v shadow
  have cut : entries v = entries st := by
    unfold v
    split
    · exact cutMultiply_entries st p sc
    · rfl
  exact cut

theorem cancelManifest_entries (st : Station) (m : Manifest) : entries (st.cancelManifest m) = entries st := rfl

theorem uncount_cuts (c : Ctr) (i n : Nat) : Cuts s (s.uncount c i n) := by
  unfold State.uncount
  dsimp only
  split
  · exact .refl s
  · exact .of rfl rfl rfl rfl rfl rfl (.of_eq rfl rfl)

theorem cutRun_cuts (k p sc : Nat) (pr : Prog) (r : DrainRun) : Cuts s (s.cutRun k p sc pr r) := by
  unfold State.cutRun
  extract_lets +onlyGivenNames done n st b part full out st₁ st₂ ends st₃ reads v w x
  split
  · exact .refl s
  · have taken : entries st₃ = entries st := (entries_foldl (fun _ _ => by rfl) _ _ : entries st₂ = entries st₁)
    have back : Cuts s v := (setStation_cuts s k taken).trans (uncount_cuts _ _ _ _)
    exact ((back.trans (uncount_cuts v _ _ _)).trans (uncount_cuts w _ _ _)).trans (uncount_cuts x _ _ _)

theorem cutDrains_cuts (k p sc : Nat) (cuts : List Prog) : Cuts s (s.cutDrains k p sc cuts) := by
  unfold State.cutDrains
  extract_lets +onlyGivenNames st v w
  have waited : Cuts s v := .foldl (fun x r => (bump_cuts x _ _ _).trans (bump_cuts _ _ _ _)) _ s
  have taken : Cuts v w := by
    refine .foldl (fun x r => ?_) _ v
    split
    · exact cutRun_cuts x k p sc _ r
    · exact .refl x
  exact (waited.trans taken).trans (modStation_cuts w k fun _ => rfl)

/-! ## Sidings -/

theorem waybillDropped_cuts (k : Nat) (id : DepId) (i : Nat) : Cuts s (s.waybillDropped k id i) := by
  refine modStation_cuts s k fun st => ?_
  split
  · split <;> rfl
  · rfl

theorem reclaim_cuts (k sid : Nat) (moved : List (Nat × Nat)) : Cuts s (s.reclaim k sid moved) := by
  unfold State.reclaim
  split
  · exact .refl s
  · refine .foldl (fun x i => ?_) _ s
    exact modStation_cuts x _ fun _ => by rfl

theorem cancelSiding_cuts (k p sid : Nat) (hit : Pos → Bool) (cutFrom : Nat) : Cuts s (s.cancelSiding k p sid hit cutFrom) := by
  unfold State.cancelSiding
  extract_lets +onlyGivenNames d r out v w
  have cut : Cuts s v := by
    unfold v
    split
    · exact .refl s
    · exact modStation_cuts s k fun _ => rfl
  have dropped : Cuts v w := by
    refine .foldl (fun x y => ?_) _ v
    split
    · split
      · exact .refl x
      · exact waybillDropped_cuts x _ _ _
    · exact .refl x
  exact ((cut.trans dropped).trans (bump_cuts w _ _ _)).trans (reclaim_cuts _ _ _ _)

theorem cancelPilot_cuts (k p : Nat) (test : Nat → Bool) (ahead : Bool) (cuts : List Prog) :
    Cuts s (s.cancelPilot k p test ahead cuts) := by
  unfold State.cancelPilot
  extract_lets +onlyGivenNames st mine st₁ st₂ streamed
  have cut : entries st₂ = entries st := (entries_foldl cancelManifest_entries _ st : entries st₁ = entries st)
  refine Cuts.trans (Cuts.trans (Cuts.trans (setStation_cuts s k cut) (.foldl (fun x sid => ?_) _ _)) (noteFills_cuts _ k)) (drained_cuts _)
  exact cancelSiding_cuts x k p sid _ _

theorem cancelAhead_cuts (stay : List Nat) : Cuts s (s.cancelAhead stay) := by
  refine .foldl (fun x k => ?_) _ s
  split
  · exact .refl x
  · exact cancelPilot_cuts x k _ _ true []

/-! ## A section -/

theorem shadow_entries (st : Station) (x : Shadow) : entries { st with shadow := x } = entries st := rfl

theorem cancelStation_cuts (k : Nat) (test : Nat → Bool) (preempt : Bool) : Cuts s (s.cancelStation k test preempt) := by
  unfold State.cancelStation
  split
  · exact .refl s
  next p _ =>
    extract_lets +onlyGivenNames st cuts v w shadow
    have cut : entries w = entries (v.station k) := entries_foldl (fun x q => cutDep_entries _ x q) _ _
    exact ((cutDrains_cuts s k p _ _).trans (setStation_cuts v k ((shadow_entries w shadow).trans cut))).trans (cancelPilot_cuts _ k p test false cuts)

theorem mapHops_cuts (f : Nat → Nat → Hop → Hop) : Cuts s (s.mapHops f) := .of rfl rfl rfl rfl rfl rfl (.of_eq rfl rfl)

theorem cancelLoop_cuts (test : Nat → Bool) : Cuts s (s.cancelLoop test) := by
  unfold State.cancelLoop
  extract_lets +onlyGivenNames ended a b c d
  have counted : Cuts s a := .foldl (fun x q => bumpNode_cuts x _ _ _) _ s
  have cut : Cuts a d := ((mapHops_cuts a _).trans (mapHops_cuts b _)).trans (mapHops_cuts c _)
  exact ((counted.trans cut).trans (loopSettle_cuts d _ _ _)).trans (loopSettle_cuts _ _ _ _)

theorem cancelTurns_cuts (test : Nat → Bool) : Cuts s (s.cancelTurns test) := .of rfl rfl rfl rfl rfl rfl (.of_eq rfl rfl)

theorem cancelMessages_cuts (c : Nat) (test : Nat → Bool) : Cuts s (s.cancelMessages c test) := by
  unfold State.cancelMessages
  extract_lets +onlyGivenNames cut t
  have forgot : Cuts s t := by
    unfold t
    split
    · exact .of rfl rfl rfl rfl rfl rfl (.of_eq rfl rfl)
    · exact .refl s
  exact forgot.trans (.of rfl rfl rfl rfl rfl rfl (.of_eq rfl rfl))

/-- What is cut lies behind the run's own mark. -/
theorem cancelSection_cuts {c : Nat} {run : Run} (next : Nat) (halt preempt : Bool) (hr : (s.slot c).run = some run) :
    Cuts (s.modSlot c (fun x => { x with run := some { run with cancelled := some next, halting := halt } }))
      (s.cancelSection c next halt preempt) := by
  unfold State.cancelSection
  split
  next none => cases hr.symm.trans none
  next run' same =>
  obtain rfl := Option.some.inj (hr.symm.trans same)
  extract_lets +onlyGivenNames test a v b d e
  have noted : Cuts a b := .of rfl rfl rfl rfl rfl rfl (.of_eq rfl rfl)
  have dropped : Cuts b d := (cancelTurns_cuts b _).trans (cancelMessages_cuts _ _ _)
  have stopped : Cuts d e := .foldl (fun x k => cancelStation_cuts x k _ _) _ d
  exact ((noted.trans dropped).trans stopped).trans (cancelLoop_cuts e test)

/-- A plan changes the Shunter alone, and not which frames wait to retire. -/
theorem plan_shunter : ∃ v, s.plan = { s with shunter := v } ∧ v.retiring = s.shunter.retiring := by
  unfold State.plan
  split
  · exact ⟨_, rfl, rfl⟩
  · dsimp only
    split
    · exact ⟨_, rfl, rfl⟩
    · exact ⟨_, rfl, rfl⟩

theorem plan_cuts : Cuts s s.plan := by
  obtain ⟨v, e, hv⟩ := plan_shunter s
  rw [e]
  exact ⟨fun _ => .refl _, fun h => ⟨hv.trans h, rfl, fun _ => rfl⟩, rfl, rfl, rfl, .of_eq rfl rfl⟩

end Sys2Proof.Proofs
end

section
/-! `CANCEL_SECTION` (O25). -/

namespace Sys2Proof.Proofs

open Sys2Proof Sys2Proof.Machine Sys2Proof.Laws

variable {s : State} {q : Fin 9} {now : Nat} {cmd : FetchedCmd} {img : Image} {run : Run}

/-- The current command of a queue is in it. -/
theorem current_mem {q : Nat} (h : s.current q = some cmd) : cmd ∈ (s.queue q).cmds := by
  unfold State.current at h
  split at h
  · split at h
    · cases h
    · obtain rfl := Option.some.inj h
      exact List.mem_of_find?_eq_some (by assumption)
  · exact List.mem_of_find?_eq_some h
  · cases h

/-- A command in the queue that is accepted is under way. -/
theorem accept_underWay {q : Nat} (h : cmd ∈ (s.queue q).cmds) : (s.accept q cmd).underWay q cmd := by
  have queue : ((s.accept q cmd).queue q).cmds =
      (s.queue q).cmds.map (fun x => if x.seq = cmd.seq then { x with accepted := true } else x) := by
    simp [State.accept, State.modQueue, State.queue, State.setQueue]
  refine ⟨{ cmd with accepted := true }, ?_, rfl, rfl⟩
  rw [queue]
  exact List.mem_map.2 ⟨cmd, h, by simp⟩

theorem accept_slot (q c : Nat) : (s.accept q cmd).slot c = s.slot c := by simp [State.accept, State.slot]

/-- The mark of a bad step. -/
theorem markStepBad_bad (s : State) (c : Nat) : ((s.markStepBad c).slot c).step.bad = true := by
  unfold State.markStepBad
  extract_lets x y v
  split
  next h => exact h
  · have same : ((v.bump .stepsBad 0 1).notice 5 c ((x.step.committed + 1) % 2 ^ 32)).slots = v.slots := by simp
    rw [State.slot, same]
    exact congrArg (fun z : Slot => z.step.bad) (slot_setSlot_self s c _)

/-- The run that a queue finds is the run that stands, but for the mark of its epoch. -/
theorem looked_run {c : Nat} (hr : (s.slot c).run = some run) : ∃ r, ((s.looked q now).slot c).run = some r ∧ r.sect = run.sect ∧
    r.cancelled = run.cancelled ∧ ((s.looked q now).slot c).image = (s.slot c).image := by
  rcases looked_slot s q now c with e | ⟨r, h, e⟩
  · exact ⟨run, by rw [e, hr], rfl, rfl, by rw [e]⟩
  · obtain rfl := Option.some.inj (hr.symm.trans h)
    exact ⟨{ run with epochSeen := true }, by rw [e], rfl, rfl, by rw [e]⟩

/-- A section that is cancelled: what the cut leaves of the run, and, where no frame waits to retire, of the queues and states. -/
theorem cancelled_run (s : State) {c : Nat} (next : Nat) (halt preempt : Bool) (hr : (s.slot c).run = some run) :
    let t := ((s.cancelSection c next halt preempt).markStepBad c).plan
    (t.slot c).run = some { run with cancelled := some next, halting := halt } ∧ (t.slot c).step.bad = true ∧
      (s.calm → t.queues = s.queues ∧ (t.slot c).state = (s.slot c).state) := by
  have marked := cancelSection_cuts s next halt preempt hr
  have done := (marked.trans (markStepBad_cuts _ c)).trans (plan_cuts _)
  obtain ⟨-, -, run', -⟩ := (done.slots c).fields
  refine ⟨run'.trans (by rw [slot_modSlot_self]), ?_, fun calm => ?_⟩
  · obtain ⟨v, e, -⟩ := plan_shunter ((s.cancelSection c next halt preempt).markStepBad c)
    rw [e]
    exact markStepBad_bad _ c
  · obtain ⟨-, queues, states⟩ := done.calm calm
    exact ⟨queues, (states c).trans (by rw [slot_modSlot_self])⟩

/-- The command cancels the section, as the queue finds it. -/
theorem cancelSection_runs (h : s.runsCommand q 0x17 now cmd) (hi : (s.slot cmd.context).image = some img)
    (hr : (s.slot cmd.context).run = some run) (hs : run.sect = cmd.p 0 2) (hc : run.cancelled = none)
    (hn : cmd.p 2 2 = 0xFFFF ∨ cmd.p 2 2 < img.sectionCount) :
    exec (.cancelSection q now) s = .next (((((s.looked q now).accept q cmd).cancelSection cmd.context (cmd.p 2 2) false false).markStepBad
      cmd.context).plan) := by
  obtain ⟨r, run', sect, cancelled, image⟩ := looked_run (q := q) (now := now) hr
  show execCancelSection q now s = _
  unfold execCancelSection
  rw [runCommand_fresh (mine := anyCmd) _ _ h rfl]
  generalize s.looked q now = v at run' image
  dsimp only
  rw [image, hi, run']
  dsimp only
  rw [if_neg (by simp [sect, cancelled, hs, hc]), if_neg (by omega)]

/-- Settles O25: the cut leaves of the run what its mark says, and where no frame waits to retire the command stays under way. -/
theorem cancelSectionCancels : Obligations.CancelSectionCancels := by
  intro q now s cmd img run h hi hr
  obtain ⟨r, run', sect, cancelled, image⟩ := looked_run (q := q) (now := now) hr
  have accepted : (((s.looked q now).accept q cmd).slot cmd.context).run = some r := by rw [accept_slot, run']
  obtain ⟨cut, bad, calm⟩ := cancelled_run ((s.looked q now).accept q cmd) (cmd.p 2 2) false false accepted
  refine ⟨fun hs hc hn => ⟨_, _, cancelSection_runs h hi hr hs hc hn, cut, rfl, sect, bad⟩, fun hs hc hn hcalm => ?_, fun other => ?_⟩
  · obtain ⟨queues, state⟩ := calm hcalm
    refine ⟨_, _, cancelSection_runs h hi hr hs hc hn, ?_, cut, rfl, sect, bad, ?_⟩
    · have way : ((s.looked q now).accept q cmd).underWay q cmd := accept_underWay (current_mem h.1)
      unfold State.underWay State.queue at way ⊢
      rwa [queues]
    · rw [state, accept_slot, looked_state]
  · refine ⟨(s.looked q now).reply q cmd 0x1001 0 0, ?_, reply_replies _ q cmd _ 0 0, onlyReplied_of_replied (reply_replied _ _ _ _ _ _)⟩
    show execCancelSection q now s = _
    unfold execCancelSection
    rw [runCommand_fresh (mine := anyCmd) _ _ h rfl]
    generalize s.looked q now = v at run' image
    dsimp only
    rw [image, hi, run']
    dsimp only
    rw [if_pos (by rw [sect, cancelled, Option.isSome_iff_ne_none]; exact other)]

end Sys2Proof.Proofs
end

section
/-! Departures that signal at their issue, and the notes of the lines after it (O33). -/

namespace Sys2Proof.Proofs

open Sys2Proof Sys2Proof.Machine Sys2Proof.Laws

variable {s t : State}

/-! ## What the notes change of a line -/

/-- Of a line only the notes that the watchdog and the lateness figures keep have changed. -/
def Noted (a b : RunLine) : Prop := ∃ m d p, b = { a with metLt := m, delays := d, passedFrom := p }

theorem Noted.refl (a : RunLine) : Noted a a := ⟨_, _, _, rfl⟩

theorem Noted.trans {a b c : RunLine} (h : Noted a b) (k : Noted b c) : Noted a c := by
  obtain ⟨_, _, _, rfl⟩ := h
  obtain ⟨_, _, _, rfl⟩ := k
  exact ⟨_, _, _, rfl⟩

theorem Noted.fields {a b : RunLine} (h : Noted a b) : b.next = a.next ∧ b.ended = a.ended ∧ b.queueSc = a.queueSc := by
  obtain ⟨_, _, _, rfl⟩ := h
  exact ⟨rfl, rfl, rfl⟩

theorem noted_tset {t : Table RunLine} {a v : RunLine} {i j : Nat} (h : Noted a (tget RunLine.init t i))
    (hv : Noted (tget RunLine.init t j) v) : Noted a (tget RunLine.init (tset t j v) i) := by
  rw [tget_tset]
  split
  next e => exact h.trans (e ▸ hv)
  · exact h

theorem headLines_noted (s : State) (k first : Nat) (all : Bool) (i : Nat) :
    Noted ((s.station k).line i) (tget RunLine.init (s.headLines k first all) i) := by
  refine foldl_keeps (fun t => Noted ((s.station k).line i) (tget RunLine.init t i)) _ ?_ _ _ (.refl _)
  intro t j ht
  split
  · extract_lets +onlyGivenNames l d same stays
    split
    · split
      · exact noted_tset ht ⟨_, _, _, rfl⟩
      · exact ht
    · exact noted_tset ht ⟨_, _, _, rfl⟩
  · exact ht

/-- The lines of Station k are replaced by `x`, each with its notes alone changed. -/
theorem setLines_noted (s : State) (k : Nat) (x : Table RunLine) (h : ∀ i, Noted ((s.station k).line i) (tget RunLine.init x i))
    (n i : Nat) : Noted ((s.station n).line i) (((s.modStation k (fun st => { st with lines := x })).station n).line i) := by
  rw [State.modStation, station_setStation]
  split
  next e => exact e ▸ h i
  · exact .refl _

theorem noteHeads_noted (s : State) (b : Station) (k n i : Nat) :
    Noted ((s.station n).line i) (((s.noteHeads b k).station n).line i) := by
  unfold State.noteHeads
  split
  next p c _ _ =>
    extract_lets +onlyGivenNames v
    have first (m i : Nat) : Noted ((s.station m).line i) ((v.station m).line i) := by
      refine setLines_noted s k _ (fun i => ?_) m i
      have looked := headLines_noted (s.setStation k { b with lines := (s.station k).lines }) k (16 * s.sectBegan c) false i
      rw [station_setStation_self] at looked
      exact looked
    exact (first n i).trans (setLines_noted v k _ (fun i => headLines_noted v k _ true i) n i)
  · exact .refl _

theorem note_noted (s : State) (b : Station) (k n i : Nat) : Noted ((s.station n).line i) (((s.note b k).station n).line i) := by
  have met : Noted ((s.station n).line i) (((s.noteMet b k).station n).line i) := by
    refine setLines_noted s k _ (fun i => ?_) n i
    obtain ⟨m, e⟩ := metLines_line s b k i
    exact ⟨m, _, _, e⟩
  exact met.trans (noteHeads_noted _ b k n i)

/-- A line that moves to its next departure. -/
def movedLine (st : Station) (j lt : Nat) (ended : Bool) (delays : List Delay) : RunLine :=
  ⟨(st.line j).next + 1, lt, ended, none, none, none, delays⟩

/-- The line that issues moves to its next departure, and the others stay where they are. -/
theorem linesAfter_line (st : Station) (j sc lt : Nat) (ends tight : Bool) (readyOnes : List Nat) (delays : List Delay) (i : Nat) :
    let x := tget RunLine.init (linesAfter st j sc lt ends tight readyOnes delays) i
    (i = j → x.next = (st.line j).next + 1 ∧ x.ended = ends ∧ x.queueSc = none) ∧
      (i ≠ j → x.next = (st.line i).next ∧ x.ended = (st.line i).ended ∧ x.queueSc = (st.line i).queueSc) := by
  suffices h : Noted (tget RunLine.init (tset st.lines j (movedLine st j lt ends delays)) i)
      (tget RunLine.init (linesAfter st j sc lt ends tight readyOnes delays) i) by
    obtain ⟨next, ended, queue⟩ := h.fields
    rw [tget_tset] at next ended queue
    refine ⟨fun e => ?_, fun e => ?_⟩
    · rw [if_pos e] at next ended queue
      exact ⟨next, ended, queue⟩
    · rw [if_neg e] at next ended queue
      exact ⟨next, ended, queue⟩
  refine foldl_keeps (fun t => Noted _ (tget RunLine.init t i)) _ ?_ _ _ (.refl _)
  intro t l ht
  dsimp only
  split
  · exact ht
  · split
    · exact noted_tset ht ⟨_, _, _, rfl⟩
    · split
      · exact noted_tset ht ⟨_, _, _, rfl⟩
      · exact ht

/-! ## Signals -/

section
variable {α : Type} {f : Station → α} (s : State) (k : Nat) (p : Prog)

theorem fireSignals_atStations : AtStations s (s.fireSignals k p) :=
  foldl_keeps (AtStations s) _ (fun x _ hx => hx.trans (modStation_atStations x _ _)) _ s (.refl s)

theorem fireSignals_keeps (ht : ∀ st x, f { st with transit := x } = f st) : Keeps f s (s.fireSignals k p) :=
  .foldl s (fun x _ => .modStation x fun st => ht st _) _

theorem completeNow_atStations : AtStations s (s.completeNow k p) :=
  (modProg_atStations s k _ _).trans (fireSignals_atStations _ k p)

theorem completeNow_keeps (hp : ∀ st x, f { st with progs := x } = f st) (ht : ∀ st x, f { st with transit := x } = f st) :
    Keeps f s (s.completeNow k p) := (modProg_keeps s hp k _ _).trans (fireSignals_keeps _ k p ht)

/-- What a signal has put in transit stays as others follow. -/
theorem signal_transit (g : Signal) (n : Nat) :
    ((s.signal k g).station n).transit = if n = k then (s.station n).transit ++ [g] else (s.station n).transit := by
  rw [State.signal, State.modStation, station_setStation]
  split
  next e => rw [e]
  · rfl

end

/-- The signal that departure p of Station k fires for one of its fields (R157). -/
def signalOf (k : Nat) (p : Prog) (g : Sig) : Signal :=
  { token := g.tok, count := g.count, bySt := k, byLine := p.id.line, byIx := p.id.index, bySect := p.sect, wb := none,
    sc := if g.station = k then some (p.doneSc.getD p.issueSc) else none }

theorem fireSignals_eq (s : State) (k : Nat) (p : Prog) :
    s.fireSignals k p = (Dep.sigs p.word).foldl (fun s g => s.signal g.station (signalOf k p g)) s := rfl

theorem signals_transit (k : Nat) (p : Prog) (l : List Sig) (s : State) :
    let u := l.foldl (fun s g => s.signal g.station (signalOf k p g)) s
    (∀ n, ∀ x ∈ (s.station n).transit, x ∈ (u.station n).transit) ∧
    ∀ g ∈ l, signalOf k p g ∈ (u.station g.station).transit := by
  induction l generalizing s with
  | nil => exact ⟨fun _ _ h => h, fun _ h => absurd h List.not_mem_nil⟩
  | cons g l ih =>
    obtain ⟨stay, fire⟩ := ih (s.signal g.station (signalOf k p g))
    refine ⟨fun n x hx => stay n x ?_, fun g' hg => ?_⟩
    · rw [signal_transit]
      split
      · exact List.mem_append_left _ hx
      · exact hx
    · rcases List.mem_cons.1 hg with rfl | hg
      · refine stay _ _ ?_
        rw [signal_transit, if_pos rfl]
        exact List.mem_append_right _ (List.mem_singleton_self _)
      · exact fire g' hg

theorem fireSignals_transit (s : State) (k : Nat) (p : Prog) {g : Sig} (h : g ∈ Dep.sigs p.word) :
    signalOf k p g ∈ ((s.fireSignals k p).station g.station).transit := by
  rw [fireSignals_eq]
  exact (signals_transit k p _ s).2 g h

/-! ## Departures that complete at their issue -/

section
variable {k : Nat} {j : Nat} {t : IssueTick} {h : Head} {w u : State}

/-- Whatever leaves the signals in transit after them leaves the departure's signals fired. -/
theorem completeNow_fired (hu : Keeps Station.transit (w.completeNow k (startedProg s k j t h)) u) : u.fired k j h := by
  intro g hg
  refine ⟨signalOf k (startedProg s k j t h) g, ?_, rfl, rfl, rfl, rfl, rfl⟩
  rw [hu.2]
  exact fireSignals_transit _ k _ hg

/-- A departure whose effect is `w`, and then its signals: what it leaves is what `w` leaves. -/
theorem signalled (dep : s.departed w) (stores : s.sameStores w)
    (hu : u = (w.completeNow k (startedProg s k j t h)).note ((s.atIssue h t).station k) k) :
    s.departed u ∧ u.fired k j h ∧ s.sameStores u ∧ Keeps Station.sidings w u := by
  subst hu
  refine ⟨departed_trans dep ((completeNow_atStations w k _).trans (note_atStations _ _ k)).departed,
    completeNow_fired (note_keeps _ (fun _ _ => rfl) _ _), sameStores_trans_keeps stores ?_, ?_⟩
  · exact (completeNow_keeps w k _ (fun _ _ => rfl) (fun _ _ => rfl)).trans (note_keeps _ (fun _ _ => rfl) _ _)
  · exact (completeNow_keeps w k _ (fun _ _ => rfl) (fun _ _ => rfl)).trans (note_keeps _ (fun _ _ => rfl) _ _)

end

variable {k : Fin 128} {j : Fin 4} {t : IssueTick} {h : Head}

theorem issuing_ended (s : State) (k j : Nat) (t : IssueTick) (h : Head) :
    (((issuing s k j t h).station k).line j).ended = (Dep.opcode h.word == opSectionEnd) := by
  rw [issuing_station]
  exact ((linesAfter_line _ j _ _ _ _ _ _ j).1 rfl).2.1

/-- `SECTION_END` ends its line (R154), whatever becomes of its section's Points. -/
theorem sectionEnd_ends (hi : s.issues k j t sectionEndRule h) :
    ∃ u, exec (.sectionEnd k j t) s = .next u ∧ u.fired k j h ∧ ((u.station k).line j).ended = true ∧ s.sameStores u := by
  have op : Dep.opcode h.word = opSectionEnd := hi.2.1
  let w := issuing s k j t h
  let p := startedProg s k j t h
  let x := (w.completeNow k p).pointsMissing h.c k p.id.line h.sect h.index
  have missing : Stopped (w.completeNow k p) x := by
    unfold x State.pointsMissing
    split
    · dsimp only
      split
      · exact malformed_stopped _ _ _ _ _ _ _
      · exact .refl _
    · exact .refl _
  have runs : exec (.sectionEnd k j t) s = .next (x.note ((s.atIssue h t).station k) k) :=
    congrArg _ (issue_unread hi rfl)
  have after {α : Type} {f : Station → α} (hf : ∀ st x, f { st with lines := x } = f st) :
      Keeps f (w.completeNow k p) (x.note ((s.atIssue h t).station k) k) :=
    (Keeps.of_stopped missing).trans (note_keeps _ hf _ _)
  refine ⟨_, runs, completeNow_fired (after fun _ _ => rfl), ?_, ?_⟩
  · have line : (x.station k).line j = (w.station k).line j :=
      congrArg (fun l => tget RunLine.init l j.val) (((completeNow_keeps w k p (f := Station.lines) (fun _ _ => rfl) (fun _ _ => rfl)).trans
        (.of_stopped missing)).2 k)
    rw [(note_noted x _ k k j).fields.2.1, line, issuing_ended, op]
    rfl
  · exact sameStores_trans_keeps (issuing_sameStores k j t h)
      ((completeNow_keeps w k p (fun _ _ => rfl) (fun _ _ => rfl)).trans (after fun _ _ => rfl))

theorem issuing_power (s : State) (k j : Nat) (t : IssueTick) (h : Head) :
    (issuing s k j t h).power = { s.power with energyWin := s.power.energyWin + 2 ^ Dep.energy h.word } := by
  simp [issuing, issueCommon, State.atIssue]

theorem startedProg_issueLt (s : State) (k j : Nat) (t : IssueTick) (h : Head) :
    (startedProg s k j t h).issueLt = (issuing s k j t h).time.lt := by
  simp [startedProg, newProg, issuing, issueCommon]

/-- A board put up at its issue. -/
def putBoard (w : State) (b : Board) : State := { w with power := { w.power with boards := w.power.boards ++ [b] } }

/-- The board that the departure announces. -/
def boardOf (w : State) (h : Head) (pr : Prog) : Board :=
  let o := boardOps h.word
  let start := pr.issueLt + o.lead
  let target := min o.level w.power.capW
  let rises := ceilDiv (1000 * target - w.power.lastAvg) 20000
  { startLt := start, rampLt := max pr.issueLt (start - (rises - 1) * w.power.meterWait 20), endLt := start + 1000 * o.duration,
    target := target, want := w.power.active.length + rises, raised := [] }

theorem boardRule_effect (w : State) (k : Nat) (h : Head) (pr : Prog) :
    boardRule.effect w k h pr = (putBoard w (boardOf w h pr)).completeNow k pr := rfl

theorem boardOf_fields (w : State) (h : Head) (pr : Prog) :
    (boardOf w h pr).startLt = pr.issueLt + (boardOps h.word).lead ∧
    (boardOf w h pr).endLt = (boardOf w h pr).startLt + 1000 * (boardOps h.word).duration ∧
    (boardOf w h pr).target = min (boardOps h.word).level w.power.capW ∧ (boardOf w h pr).raised = [] := ⟨rfl, rfl, rfl, rfl⟩

theorem putBoard_departed (w : State) (b : Board) : w.departed (putBoard w b) := rfl

theorem putBoard_sameStores {w : State} (b : Board) (h : s.sameStores w) : s.sameStores (putBoard w b) := h

/-- A board is announced at its issue (R174). -/
theorem warningBoard_announces (hi : s.issues k j t boardRule h) :
    let o := boardOps h.word
    ∃ u b, exec (.warningBoard k j t) s = .next u ∧ s.departed u ∧ u.fired k j h ∧ s.sameStores u ∧
      u.power.boards = s.power.boards ++ [b] ∧ b.startLt = u.time.lt + o.lead ∧ b.endLt = b.startLt + 1000 * o.duration ∧
      b.target = min o.level s.power.capW ∧ b.raised = [] := by
  intro o
  obtain ⟨w, hw⟩ : ∃ w, w = issuing s k j t h := ⟨_, rfl⟩
  obtain ⟨b, hb⟩ : ∃ b, b = boardOf w h (startedProg s k j t h) := ⟨_, rfl⟩
  obtain ⟨u, hu⟩ : ∃ u, u = ((putBoard w b).completeNow k (startedProg s k j t h)).note ((s.atIssue h t).station k) k := ⟨_, rfl⟩
  have power : w.power = { s.power with energyWin := s.power.energyWin + 2 ^ Dep.energy h.word } := hw ▸ issuing_power s k j t h
  have lt : (startedProg s k j t h).issueLt = w.time.lt := hw ▸ startedProg_issueLt s k j t h
  obtain ⟨start, stop, target, raised⟩ := boardOf_fields w h (startedProg s k j t h)
  rw [← hb] at start stop target raised
  have began : s.departed w := by rw [hw]; exact issuing_departed k j t h
  have same : s.sameStores w := by rw [hw]; exact issuing_sameStores k j t h
  obtain ⟨left, fired, stores, -⟩ := signalled (departed_trans began (putBoard_departed w b)) (putBoard_sameStores b same) hu
  have quiet : AtStations (putBoard w b) u := hu ▸ (completeNow_atStations _ k _).trans (note_atStations _ _ k)
  obtain ⟨_, _, _, _, _, _, eq⟩ := quiet
  have boards : u.power = (putBoard w b).power := by rw [eq]
  have time : u.time = w.time := by rw [eq]; rfl
  refine ⟨u, b, ?_, left, fired, stores, ?_, ?_, stop, ?_, raised⟩
  · show execWarningBoard k j t s = _
    rw [execWarningBoard, issue_unread hi rfl, boardRule_effect, hu, hb, hw]
  · rw [boards, putBoard, power]
  · rw [start, lt, time]
  · rw [target, power]

/-- A departure that changes a Siding of its Station, and then signals: that Siding is so, and the others stay. -/
theorem siding_set {d : Nat} {g : Siding → Siding} {u : State} (s : State) (k j : Nat) (t : IssueTick) (h : Head)
    (hu : u = (((issuing s k j t h).modStation k (fun st => st.setSiding d (g (st.siding d)))).completeNow k (startedProg s k j t h)).note
      ((s.atIssue h t).station k) k) :
    s.departed u ∧ u.fired k j h ∧ s.sameStores u ∧ (u.station k).siding d = g ((s.station k).siding d) ∧
      ∀ n, n ≠ d → (u.station k).siding n = (s.station k).siding n := by
  obtain ⟨w, hw⟩ : ∃ w, w = (issuing s k j t h).modStation k (fun st => st.setSiding d (g (st.siding d))) := ⟨_, rfl⟩
  rw [← hw] at hu
  have before : ((issuing s k j t h).station k).sidings = (s.station k).sidings := issuing_keeps (fun _ _ _ _ _ _ _ => rfl) k j t h k
  have began : s.departed w := by
    rw [hw]
    exact departed_trans (issuing_departed k j t h) (modStation_atStations _ k _).departed
  have same : s.sameStores w := by
    rw [hw]
    exact sameStores_trans_keeps (issuing_sameStores k j t h) (.modStation _ fun _ => rfl)
  obtain ⟨dep, fired, stores, kept⟩ := signalled began same hu
  have sidings : (u.station k).sidings = tset (s.station k).sidings d (g ((s.station k).siding d)) := by
    rw [kept.2, hw, State.modStation, station_setStation_self, Station.setSiding, Station.siding, before]
    rfl
  refine ⟨dep, fired, stores, ?_, fun n hn => ?_⟩
  · rw [Station.siding, sidings, tget_tset_self]
  · rw [Station.siding, sidings, tget_tset_ne _ _ _ _ _ hn]
    rfl

theorem tokenRule_effect (w : State) (k : Nat) (h : Head) (pr : Prog) : tokenRule.effect w k h pr = w.completeNow k pr := rfl

theorem sidingSetRule_effect (w : State) (k : Nat) (h : Head) (pr : Prog) :
    let o := sidingSetOps h.word
    sidingSetRule.effect w k h pr = (w.modStation k (fun st => st.setSiding o.siding
      { st.siding o.siding with isSet := true, base := o.base, size := o.size, line := pr.id.line, fillAt := 0 })).completeNow k pr := rfl

theorem expectRule_effect (w : State) (k : Nat) (h : Head) (pr : Prog) :
    let o := expectOps h.word
    expectRule.effect w k h pr = (w.modStation k (fun st => st.setSiding o.siding
      ((st.siding o.siding).reserve (.expect o.fmt false) 0 0 0 o.fmt h.sect (recGran o.fmt) false))).completeNow k pr := rfl

/-- Settles O33: every departure of these fires its signals last, and before them it changes a Siding, the power state, or nothing. -/
theorem signallingDepartures : Obligations.SignallingDepartures := by
  intro k j t s h
  refine ⟨fun hi => ?_, sectionEnd_ends, warningBoard_announces, fun hi => ?_, fun hi => ?_⟩
  · have eq := issue_unread hi rfl
    rw [tokenRule_effect] at eq
    obtain ⟨dep, fired, stores, -⟩ := signalled (issuing_departed k j t h) (issuing_sameStores k j t h) eq
    exact ⟨_, rfl, dep, fired, stores⟩
  · have eq := issue_unread hi rfl
    rw [sidingSetRule_effect] at eq
    let g : Siding → Siding := fun d =>
      { d with isSet := true, base := (sidingSetOps h.word).base, size := (sidingSetOps h.word).size, line := j.val, fillAt := 0 }
    obtain ⟨dep, fired, stores, set, rest⟩ := siding_set (g := g) s k j t h eq
    exact ⟨_, rfl, dep, fired, stores, set, rest⟩
  · have eq := issue_unread hi rfl
    rw [expectRule_effect] at eq
    let g : Siding → Siding := fun d =>
      d.reserve (.expect (expectOps h.word).fmt false) 0 0 0 (expectOps h.word).fmt h.sect (recGran (expectOps h.word).fmt) false
    obtain ⟨dep, fired, stores, set, -⟩ := siding_set (g := g) s k j t h eq
    exact ⟨_, _, rfl, dep, fired, stores, set, rfl, rfl, rfl⟩

end Sys2Proof.Proofs
end

section
/-! `POINTS` and its selection (O34). -/

namespace Sys2Proof.Proofs

open Sys2Proof Sys2Proof.Machine Sys2Proof.Laws

variable {s t u : State}

/-! ## `POINTS` at its issue -/

theorem report_cuts (s : State) (r : EvtRec) : Cuts s (s.report r) := by
  obtain ⟨slots, -, queues, -⟩ := report_slots s r
  exact .of slots (by simp) queues (by simp) (by simp) (by simp) (.of_eq (by simp) (by simp))

theorem flowingError_cuts (s : State) (r : EvtRec) : Cuts s (s.flowingError r) := (report_cuts s _).trans (runBad_cuts _ _)

theorem storeErrors_cuts (s : State) (k j sect index : Nat) (bad : List Nat) : Cuts s (s.storeErrors k j sect index bad) := by
  unfold State.storeErrors
  refine .foldl (fun x g => ?_) _ s
  have poisoned : Cuts x (x.modStation k (fun st => { st with storePoison := numInsert st.storePoison g })) :=
    modStation_cuts x k fun _ => by rfl
  exact poisoned.trans (flowingError_cuts _ _)

/-- The run of a context whose line has a head. -/
theorem headOf_run {k j : Nat} {h : Head} (hh : s.headOf k j = .head h) : ∃ run, (s.slot h.c).run = some run := by
  unfold State.headOf at hh
  split at hh
  · cases hh
  · dsimp only at hh
    split at hh
    next hr _ =>
      split at hh
      · cases hh
      · split at hh
        · cases hh
        · cases hh
          exact ⟨_, hr⟩
    · cases hh

/-- Points that a departure has asked for. -/
def AsksPoints (p : PointsSel) (k j : Nat) (o : PointsOps) (value : Nat) : Prop :=
  p.station = k ∧ p.line = j ∧ p.value = value ∧ p.base = o.base ∧ p.targets = o.targets ∧ p.mask = o.mask ∧ p.join = o.join ∧
    p.selected = none

/-- The departure reads its selector, and selects nothing yet (R172). -/
theorem pointsEffect_asks (w : State) (k : Nat) (h : Head) (pr : Prog) {run : Run} (hr : (w.slot h.c).run = some run) :
    Keeps Station.store w (pointsEffect w k h pr) ∧ ∃ r p, ((pointsEffect w k h pr).slot h.c).run = some r ∧ r.points = some p ∧
      AsksPoints p k pr.id.line (pointsOps h.word) (memReadNat (w.station k).store (4 * (pointsOps h.word).sel) 4) := by
  unfold pointsEffect
  extract_lets +onlyGivenNames o st v bad p x y
  have kept : Keeps Station.store w (y.runBad bad) :=
    (Keeps.trans (.of_eq rfl rfl : Keeps Station.store w x) (bump_keeps x _ _ _)).trans (runBad_keeps y bad)
  have run' : (x.slot h.c).run = some { run with points := some p } := by
    rw [slot_modSlot_self]
    dsimp only
    rw [hr, Option.map_some]
  have halts := ((bump_cuts x .pointsClamp 0 _).trans (runBad_cuts y bad)).slots h.c
  exact ⟨kept, _, p, halts.fields.2.2.1.trans run', rfl, rfl, rfl, rfl, rfl, rfl, rfl, rfl, rfl⟩

/-! ## The selection -/

/-- Every departure in progress of `y` was one of `x`, and done if it is done there. -/
def Thins (x y : Station) : Prop :=
  ∀ q ∈ y.progs, ∃ r ∈ x.progs, r.word = q.word ∧ r.id = q.id ∧ r.sect = q.sect ∧ r.doneSc = q.doneSc

theorem Thins.of_progs {x y : Station} (h : y.progs = x.progs) : Thins x y := fun q hq => ⟨q, h ▸ hq, rfl, rfl, rfl, rfl⟩

theorem Thins.trans {x y z : Station} (h : Thins x y) (k : Thins y z) : Thins x z := by
  intro q hq
  obtain ⟨r, hr, word, id, sect, done⟩ := k q hq
  obtain ⟨r', hr', word', id', sect', done'⟩ := h r hr
  exact ⟨r', hr', word'.trans word, id'.trans id, sect'.trans sect, done'.trans done⟩

/-- So it is at every Station. -/
def Thinned (s t : State) : Prop := ∀ n, Thins (s.station n) (t.station n)

theorem Thinned.refl (s : State) : Thinned s s := fun _ => .of_progs rfl

theorem Thinned.trans (h : Thinned s t) (k : Thinned t u) : Thinned s u := fun n => (h n).trans (k n)

theorem Thinned.foldl {β : Type} {g : State → β → State} (h : ∀ x b, Thinned x (g x b)) (l : List β) (s : State) : Thinned s (l.foldl g s) :=
  foldl_keeps (Thinned s) g (fun x b hx => hx.trans (h x b)) l s (.refl s)

theorem Thinned.of_keeps (h : Keeps Station.progs s t) : Thinned s t := fun n => .of_progs (h.2 n)

theorem Thinned.of_eq (h : t.stations = s.stations) : Thinned s t := fun n => .of_progs (by rw [State.station, h]; rfl)

variable (s)

theorem setStation_thinned (k : Nat) {v : Station} (h : Thins (s.station k) v) : Thinned s (s.setStation k v) := by
  intro n
  rw [station_setStation]
  split
  next e => exact e ▸ h
  · exact .of_progs rfl

theorem modStation_thinned (k : Nat) {g : Station → Station} (h : ∀ st, Thins st (g st)) : Thinned s (s.modStation k g) :=
  setStation_thinned s k (h _)

theorem cancelManifest_thins (st : Station) (m : Manifest) : Thins st (st.cancelManifest m) :=
  fun q hq => ⟨q, (List.mem_filter.1 hq).1, rfl, rfl, rfl, rfl⟩

theorem waybillDropped_progs (k : Nat) (id : DepId) (i : Nat) : Keeps Station.progs s (s.waybillDropped k id i) := by
  refine .modStation s fun st => ?_
  split
  · split <;> rfl
  · rfl

theorem reclaim_thinned (k sid : Nat) (moved : List (Nat × Nat)) : Thinned s (s.reclaim k sid moved) := by
  unfold State.reclaim
  split
  · exact .refl s
  · refine .foldl (fun x i => modStation_thinned x _ fun st q hq => ?_) _ s
    obtain ⟨r, hr, rfl⟩ := List.mem_map.1 hq
    refine ⟨r, hr, ?_⟩
    split <;> exact ⟨rfl, rfl, rfl, rfl⟩

theorem cancelSiding_thinned (k p sid : Nat) (hit : Pos → Bool) (cutFrom : Nat) : Thinned s (s.cancelSiding k p sid hit cutFrom) := by
  unfold State.cancelSiding
  extract_lets +onlyGivenNames d r out v w
  have cut : Keeps Station.progs s v := by
    unfold v
    split
    · exact .refl s
    · exact .modStation s fun _ => rfl
  have dropped : Keeps Station.progs v w := by
    refine .foldl v (fun x y => ?_) _
    split
    · split
      · exact .refl x
      · exact waybillDropped_progs x _ _ _
    · exact .refl x
  exact (Thinned.of_keeps ((cut.trans dropped).trans (bump_keeps w _ _ _))).trans (reclaim_thinned _ _ _ _)

theorem cancelPilot_thinned (k p : Nat) (test : Nat → Bool) (ahead : Bool) (cuts : List Prog) :
    Thinned s (s.cancelPilot k p test ahead cuts) := by
  unfold State.cancelPilot
  extract_lets +onlyGivenNames st mine st₁ st₂ streamed
  have cut : Thins st st₂ :=
    (foldl_keeps (Thins st) _ (fun x m hx => hx.trans (cancelManifest_thins x m)) _ st (.of_progs rfl) : Thins st st₁)
  refine Thinned.trans (Thinned.trans (Thinned.trans (setStation_thinned s k cut) (.foldl (fun x sid => ?_) _ _))
    (.of_keeps (noteFills_keeps _ (fun _ _ => rfl) k))) (.of_eq (drained_apart _).1)
  exact cancelSiding_thinned x k p sid _ _

theorem cancelAhead_thinned (stay : List Nat) : Thinned s (s.cancelAhead stay) := by
  refine .foldl (fun x k => ?_) _ s
  split
  · exact .refl x
  · exact cancelPilot_thinned x k _ _ true []

theorem plan_stations : s.plan.stations = s.stations := by
  obtain ⟨v, e, -⟩ := plan_shunter s
  rw [e]

theorem noteAllFills_progs : Keeps Station.progs s s.noteAllFills := .foldl s (fun x k => noteFills_keeps x (fun _ _ => rfl) k) _

variable {s}

/-! ### The state in which it is looked at -/

/-- Line time comes to an instant, and the epoch of the running section is seen. -/
theorem reached_slot (s : State) (n c : Nat) : ((s.advance n).reachEpoch).slot c = s.slot c ∨
    ∃ run, (s.slot c).run = some run ∧ ((s.advance n).reachEpoch).slot c = { s.slot c with run := some { run with epochSeen := true } } := by
  have slot (c : Nat) : (s.advance n).slot c = s.slot c := by simp [State.slot]
  obtain ⟨u, logged, hu⟩ := reachEpoch_marks (s.advance n)
  have same : (s.advance n).reachEpoch.slots = u.slots := by
    obtain ⟨_, _, _, _, e, _⟩ := logged
    rw [e]
  rw [State.slot, same]
  rcases hu with rfl | ⟨d, run, -, hr, rfl⟩
  · exact .inl (slot c)
  · rw [slot] at hr
    by_cases h : c = d
    · subst h
      refine .inr ⟨run, hr, ?_⟩
      exact (slot_modSlot_self _ c _).trans (by rw [slot])
    · refine .inl ?_
      refine (slot_modSlot (s.advance n) d c _).trans ?_
      rw [if_neg h, slot]

theorem reached_state (s : State) (n c : Nat) : (((s.advance n).reachEpoch).slot c).state = (s.slot c).state := by
  rcases reached_slot s n c with h | ⟨_, _, h⟩ <;> rw [h]

theorem reached_runSlot (s : State) (n : Nat) : ((s.advance n).reachEpoch).runSlot = s.runSlot := by
  simp only [State.runSlot, reached_state]

theorem reached_fields (s : State) (n : Nat) :
    ((s.advance n).reachEpoch).time = (s.advance n).time ∧ ((s.advance n).reachEpoch).flash = s.flash ∧
    ((s.advance n).reachEpoch).stations = s.stations ∧ ((s.advance n).reachEpoch).cycles = s.cycles ∧
    ((s.advance n).reachEpoch).coll = s.coll ∧ ((s.advance n).reachEpoch).queues = s.queues := by
  obtain ⟨u, ⟨_, _, _, _, e, _⟩, hu⟩ := reachEpoch_marks (s.advance n)
  rw [e]
  rcases hu with rfl | ⟨c, run, -, -, rfl⟩ <;> simp

/-! ## The obligation -/

theorem atStations_slot (h : AtStations s t) (c : Nat) : t.slot c = s.slot c := by
  obtain ⟨_, _, _, _, _, _, rfl⟩ := h
  rfl

theorem points_asks {k : Fin 128} {j : Fin 4} {t : IssueTick} {h : Head} (hi : s.issues k j t pointsRule h) :
    let o := pointsOps h.word
    ∃ u r p, exec (.points k j t) s = .next u ∧ (u.slot h.c).run = some r ∧ r.points = some p ∧
      AsksPoints p k j o (memReadNat (s.station k).store (4 * o.sel) 4) ∧ s.sameStores u := by
  intro o
  obtain ⟨w, hw⟩ : ∃ w, w = (issuing s k j t h).storeErrors k j h.sect h.index t.bad := ⟨_, rfl⟩
  have runs : exec (.points k j t) s =
      .next ((pointsEffect w k h (startedProg s k j t h)).note ((s.atIssue h t).station k) k) := by
    rw [hw]
    exact congrArg _ (issue_of_issues hi)
  have stores : s.sameStores w := by
    rw [hw]
    exact sameStores_trans_keeps (issuing_sameStores k j t h) (storeErrors_keeps _ (fun _ _ => rfl) _ _ _ _ _)
  obtain ⟨run, hr⟩ := headOf_run hi.1
  have began : (w.slot h.c).run = some run := by
    have halts := (storeErrors_cuts (issuing s k j t h) k j h.sect h.index t.bad).slots h.c
    rw [hw, halts.fields.2.2.1, State.slot, (departed_fields (issuing_departed k j t h)).2.1]
    simpa [State.slot] using hr
  obtain ⟨kept, r, p, run', points, asks⟩ := pointsEffect_asks w k h (startedProg s k j t h) began
  have noted := note_atStations (pointsEffect w k h (startedProg s k j t h)) ((s.atIssue h t).station k) k
  refine ⟨_, r, p, runs, ?_, points, ?_, sameStores_trans_keeps stores (kept.trans (note_keeps _ (fun _ _ => rfl) _ _))⟩
  · rw [atStations_slot noted, run']
  · rw [stores k] at asks
    exact asks

/-- The selection completes the departure that asked for it. -/
def selects (s : State) (c : Nat) (run : Run) (p : PointsSel) (ph : Nat) : State :=
  (s.modSlot c (fun x => { x with run := some { run with points := some { p with selected := some p.targetsOf } } })).modStation p.station
    (fun st => { st with progs := st.progs.map (fun x =>
      if Dep.opcode x.word == opPoints && x.id.line == p.line && x.id.index == p.index && x.sect == run.sect && x.doneSc.isNone then
        { x with doneSc := some (s.cycle ph) } else x) })

theorem selects_slot (s : State) (c : Nat) (run : Run) (p : PointsSel) (ph : Nat) :
    (selects s c run p ph).slot c =
      { s.slot c with run := some { run with points := some { p with selected := some p.targetsOf } } } :=
  (atStations_slot (modStation_atStations _ _ _) c).trans (slot_modSlot_self s c _)

theorem selects_done {c : Nat} {run : Run} {p : PointsSel} {ph : Nat} {x : Prog} (h : x ∈ ((selects s c run p ph).station p.station).progs)
    (op : Dep.opcode x.word = opPoints) (line : x.id.line = p.line) (index : x.id.index = p.index) (sect : x.sect = run.sect) :
    x.doneSc ≠ none := by
  rw [selects, State.modStation, station_setStation_self] at h
  obtain ⟨y, -, rfl⟩ := List.mem_map.1 h
  split at op
  next mine =>
    rw [if_pos mine]
    exact Option.some_ne_none _
  next other =>
    rw [if_neg other] at line index sect ⊢
    intro none
    exact other (by simp [op, line, index, sect, none])

/-- POINTS_SELECT broadcasts the selection of the running context. -/
theorem pointsSelect_selects {t : Tick} {c p : Nat} {run : Run} {x : PointsSel} (hc : s.runSlot = some c)
    (hs : (s.slot c).state = .running) (hr : (s.slot c).run = some run) (hx : run.points = some x) (hn : x.selected = none)
    (hq : run.cancelled = none) (hp : s.phys x.station = some p) :
    ∃ v r, r.sect = run.sect ∧ r.points = some x ∧
      exec (.pointsSelect t) s = .next (((selects v c r x p).cancelAhead [run.sect, x.targetsOf.headD x.join]).plan.noteAllFills) := by
  obtain ⟨v, hv⟩ : ∃ v, v = (s.advance t.lt).reachEpoch := ⟨_, rfl⟩
  have state : (v.slot c).state = .running := by rw [hv, reached_state, hs]
  have work : v.workSlot = some c := by rw [State.workSlot, hv, reached_runSlot, hc]
  have phys : v.phys x.station = some p := by rw [← hp, State.phys, State.phys, hv, (reached_fields s t.lt).2.1]
  obtain ⟨r, run', sect, points, cancelled⟩ : ∃ r, (v.slot c).run = some r ∧ r.sect = run.sect ∧ r.points = some x ∧ r.cancelled = none := by
    rcases reached_slot s t.lt c with e | ⟨run₂, e₂, e⟩
    · exact ⟨run, by rw [hv, e, hr], rfl, hx, hq⟩
    · obtain rfl := Option.some.inj (hr.symm.trans e₂)
      exact ⟨{ run with epochSeen := true }, by rw [hv, e], rfl, hx, hq⟩
  refine ⟨v.advanceSc p t.sc, r, sect, points, ?_⟩
  show execPointsSelect t s = _
  unfold execPointsSelect
  rw [← hv]
  dsimp only
  rw [work]
  dsimp only
  rw [run']
  dsimp only
  rw [points]
  dsimp only
  rw [if_neg (by simp [hn, cancelled, state]), phys]
  dsimp only
  rw [← sect]
  refine if_pos ?_
  exact (congrArg Slot.state (selects_slot (v.advanceSc p t.sc) c r x p)).trans state

/-- Settles O34: the effect of the departure leaves its question in the run, and the selection is broadcast before any work ahead is cut. -/
theorem pointsSelect : Obligations.PointsSelect := by
  refine ⟨fun k j t s h hi => ?_, fun t s c p run x hc hs hr hx hn hq hp => ?_⟩
  · obtain ⟨u, r, q, runs, run, points, ⟨station, line, value, base, targets, mask, join, selected⟩, stores⟩ := points_asks hi
    exact ⟨u, r, q, runs, run, points, station, line, value, base, targets, mask, join, selected, stores⟩
  · obtain ⟨v, r, sect, points, runs⟩ := pointsSelect_selects hc hs hr hx hn hq hp
    have cuts := ((cancelAhead_cuts (selects v c r x p) [run.sect, x.targetsOf.headD x.join]).trans (plan_cuts _)).trans (noteAllFills_cuts _)
    refine ⟨_, { r with points := some { x with selected := some x.targetsOf } }, runs, ?_, sect, rfl, ?_⟩
    · rw [(cuts.slots c).fields.2.2.1]
      rw [selects_slot]
    · intro q hq op line index insect
      have thinned : Thinned (selects v c r x p) _ := ((cancelAhead_thinned _ [run.sect, x.targetsOf.headD x.join]).trans
        (.of_eq (plan_stations _))).trans (.of_keeps (noteAllFills_progs _))
      obtain ⟨y, hy, word, id, sect', done⟩ := thinned x.station q hq
      rw [← done]
      exact selects_done hy (word ▸ op) (id ▸ line) (id ▸ index) (sect'.trans (insect.trans sect.symm))

end Sys2Proof.Proofs
end

section
/-! The collective engine lies apart from the Stations: contributions, closes, logs, gathers and votes leave the Stations, the Loop, the
Turntables, line time and the power state as they were. -/

namespace Sys2Proof.Proofs

open Sys2Proof Sys2Proof.Machine Sys2Proof.Laws

variable (s : State)

theorem setColl_apart (v : Collective) : Apart s (s.setColl v) := .refl s

theorem bump_apart (c : Ctr) (i n : Nat) : Apart s (s.bump c i n) := by simp [Apart]

theorem runBad_apart (b : Bool) : Apart s (s.runBad b) := by simp [Apart]

/-! ## Objects -/

@[simp] theorem tilePut_apart (c : Nat) (d : ObjDesc) (f : Fmt) (r col code scale : Nat) (bad : Bool) :
    Apart s (s.tilePut c d f r col code scale bad) := by
  unfold State.tilePut
  split
  dsimp only
  split
  · exact (objWrite_apart s _ _ _ _ _).trans (objWrite_apart _ _ _ _ _ _)
  · exact objWrite_apart s _ _ _ _ _

@[simp] theorem wholeGranules_apart (c object : Nat) (spans : List (Nat × Nat × Bool)) : Apart s (s.wholeGranules c object spans) := by
  unfold State.wholeGranules
  refine .foldl _ (fun x g => ?_) _ s
  dsimp only
  split
  · exact objWrite_apart x _ _ _ _ _
  · exact .refl x

@[simp] theorem stampPages_apart (c object a n epoch : Nat) : Apart s (s.stampPages c object a n epoch) := by
  unfold State.stampPages
  split
  · exact .refl s
  · exact .foldl _ (fun x q => setEntry_apart x _ _) _ s

@[simp] theorem tilePutAll_apart (c : Nat) (d : ObjDesc) (f : Fmt) (cols : Nat) (es : List OutElem) :
    Apart s (s.tilePutAll c d f cols es) :=
  (Apart.foldl _ (fun x _ => tilePut_apart x c d f _ _ _ _ _) es s).trans (wholeGranules_apart _ _ _ _)

@[simp] theorem wordsWrite_apart (c object a : Nat) (codes bad : List Nat) : Apart s (s.wordsWrite c object a codes bad) :=
  objWrite_apart s _ _ _ _ _

@[simp] theorem writeResid_apart (c : Nat) (d : CollDesc) (u : UnitDesc) (es : Nat → PVal) : Apart s (s.writeResid c d u es) := by
  unfold State.writeResid
  exact .foldl _ (fun x k => wordsWrite_apart x _ _ _ _ _) _ s

/-! ## Late contributions -/

@[simp] theorem stragWrite_apart (die rec' : Nat) : Apart s (s.stragWrite die rec') := by
  unfold State.stragWrite
  dsimp only
  split
  · exact setColl_apart s _
  · exact (setColl_apart s _).trans (bump_apart _ _ _ _)

@[simp] theorem dropLate_apart (die : Nat) (x : Contrib) (outcome late : Nat) : Apart s (s.dropLate die x outcome late) :=
  ((setColl_apart s _).trans (bump_apart _ _ _ _)).trans (stragWrite_apart _ _ _)

@[simp] theorem holdLate_apart (die : Nat) (x : Contrib) : Apart s (s.holdLate die x) := (setColl_apart s _).trans (stragWrite_apart _ _ _)

@[simp] theorem lateArrived_apart (die : Nat) (x : Contrib) : Apart s (s.lateArrived die x) := by
  unfold State.lateArrived
  dsimp only
  split
  · exact .refl s
  · split
    · exact (setColl_apart s _).trans (dropLate_apart _ _ _ _ _)
    · exact (setColl_apart s _).trans (holdLate_apart _ _ _)

@[simp] theorem settleRun_apart : Apart s s.settleRun := by
  unfold State.settleRun
  split
  · exact .refl s
  · split
    · exact .refl s
    · extract_lets +onlyGivenNames late held z v w
      have dropped : Apart v w := .foldl _ (fun x y => dropLate_apart x _ _ _ _) _ v
      exact ((setColl_apart s _).trans dropped).trans (.foldl _ (fun x y => dropLate_apart x _ _ _ _) _ w)

@[simp] theorem takeFolds_apart (die unit stage : Nat) : Apart s (s.takeFolds die unit stage).1 := by
  unfold State.takeFolds
  extract_lets +onlyGivenNames mine held z v
  split
  · exact (setColl_apart s _).trans (.foldl _ (fun x y => dropLate_apart x _ _ _ _) _ v)
  · exact ((setColl_apart s _).trans (setColl_apart _ _)).trans (bump_apart _ _ _ _)

@[simp] theorem markLate_apart (e id unit stage : Nat) (u : UnitDesc) (senders : List Nat) :
    Apart s (s.markLate e id unit stage u senders) := by
  unfold State.markLate
  refine .foldl _ (fun x r => ?_) _ s
  split
  · split
    · exact .refl x
    · exact setColl_apart x _
  · exact setColl_apart x _

@[simp] theorem writeFoldSum_apart (c : Nat) (u : UnitDesc) (folds : List Contrib) : Apart s (s.writeFoldSum c u folds) := by
  unfold State.writeFoldSum
  split
  · exact .refl s
  · exact wordsWrite_apart s _ _ _ _ _

/-! ## Closes -/

@[simp] theorem queueUnit_apart (die unit : Nat) (rank : Option Nat) : Apart s (s.queueUnit die unit rank) := setColl_apart s _

@[simp] theorem completeLog_apart (c : Nat) (img : Image) (b : Binding) (id unit : Nat) (sum : Nat → PVal) :
    Apart s (s.completeLog c img b id unit sum) := by
  unfold State.completeLog
  extract_lets +onlyGivenNames d u n vals codes bad v w z x
  have logged : Apart s x := ((wordsWrite_apart s _ _ _ _ _).trans (objWrite_apart v _ _ _ _ _)).trans (setColl_apart w _)
  split
  · split
    · exact logged
    · split
      · exact logged
      · exact ((logged.trans (tilePutAll_apart x _ _ _ _ _)).trans (bump_apart _ _ _ _)).trans (bump_apart _ _ _ _)
  · refine Apart.trans (Apart.trans logged (.foldl _ (fun y i => ?_) _ x)) (queueUnit_apart _ _ _ _)
    exact sendUnit_apart y b (b.holder i) _ u 0 noSect _

@[simp] theorem sendGroupSum_apart (c : Nat) (img : Image) (b : Binding) (id unit : Nat) : Apart s (s.sendGroupSum c img b id unit) := by
  unfold State.sendGroupSum
  dsimp only
  split
  · split
    · exact sendUnit_apart s _ _ _ _ _ _ _
    · exact .refl s
  · exact .refl s

@[simp] theorem closeStage1_apart (c : Nat) (img : Image) (b : Binding) (id unit : Nat) : Apart s (s.closeStage1 c img b id unit) := by
  unfold State.closeStage1
  extract_lets +onlyGivenNames d u e senders cs r v vals bad g z w
  have closed : Apart s w :=
    (((takeFolds_apart s _ _ _).trans (markLate_apart _ _ _ _ _ _ _)).trans (writeFoldSum_apart _ _ _ _)).trans (setColl_apart v _)
  split
  · exact closed.trans (sendGroupSum_apart w _ _ _ _ _)
  · exact closed.trans (completeLog_apart w _ _ _ _ _ _)

@[simp] theorem closeStage2_apart (c : Nat) (img : Image) (b : Binding) (id unit : Nat) : Apart s (s.closeStage2 c img b id unit) := by
  unfold State.closeStage2
  extract_lets +onlyGivenNames u e owners own cs r v at'
  exact (((takeFolds_apart s _ _ _).trans (markLate_apart _ _ _ _ _ _ _)).trans (writeFoldSum_apart _ _ _ _)).trans
    (completeLog_apart v _ _ _ _ _ _)

@[simp] theorem closeDue_apart (c : Nat) (img : Image) (b : Binding) (id unit : Nat) (second : Bool) :
    Apart s (s.closeDue c img b id unit second) := by
  unfold State.closeDue
  extract_lets +onlyGivenNames v
  have first : Apart s v := by
    unfold v
    split
    · exact closeStage1_apart s _ _ _ _ _
    · exact .refl s
  split
  · exact first.trans (closeStage2_apart v _ _ _ _ _)
  · exact first

/-! ## A unit -/

@[simp] theorem ownContrib_apart (c : Nat) (b : Binding) (id unit : Nat) (u : UnitDesc) (vals : Nat → PVal) (w : Nat) :
    Apart s (s.ownContrib c b id unit u vals w) := by
  unfold State.ownContrib
  dsimp only
  split
  · exact (setColl_apart s _).trans (lateArrived_apart _ _ _)
  · split
    · exact .refl s
    · exact setColl_apart s _

@[simp] theorem reduceUnit_apart (c : Nat) (img : Image) (b : Binding) (id unit w : Nat) : Apart s (s.reduceUnit c img b id unit w) := by
  unfold State.reduceUnit
  extract_lets +onlyGivenNames d u vals owner h es
  split
  · exact .refl s
  · split
    · exact (((closeDue_apart s _ _ _ _ _ _).trans (ownContrib_apart _ _ _ _ _ _ _ _)).trans (sendGroupSum_apart _ _ _ _ _ _)).trans
        (runBad_apart _ _)
    · split
      · exact .refl s
      · split
        · exact sendUnit_apart s _ _ _ _ _ _ _
        · exact (sendUnit_apart s _ _ _ _ _ _ _).trans (writeResid_apart _ _ _ _ _)

@[simp] theorem gatherWrite_apart (c : Nat) (img : Image) (u : UnitDesc) (epoch : Nat) (es : List OutElem) :
    Apart s (s.gatherWrite c img u epoch es) := by
  unfold State.gatherWrite
  split
  · exact (tilePutAll_apart s _ _ _ _ _).trans (.foldl _ (fun x e => stampPages_apart x _ _ _ _ _) es _)
  · exact .refl s

@[simp] theorem gatherMark_apart (id unit : Nat) (chunks : List Nat) : Apart s (s.gatherMark id unit chunks) := setColl_apart s _

@[simp] theorem gatherSend_apart (b : Binding) (h : CollHdr) (u : UnitDesc) (f : Fmt) (sect : Nat) (es : List OutElem)
    (has : Nat × Nat → Bool) : Apart s (s.gatherSend b h u f sect es has) := by
  unfold State.gatherSend
  exact .foldl _ (fun x rank => .foldl _ (fun y sp => sendSpan_apart y _ _ _ _ _ _) _ x) _ s

@[simp] theorem regather_apart (c : Nat) (img : Image) (b : Binding) (id unit w : Nat) : Apart s (s.regather c img b id unit w) := by
  unfold State.regather
  dsimp only
  split
  · split
    · exact .refl s
    · exact gatherSend_apart s _ _ _ _ _ _ _
  · exact .refl s

@[simp] theorem gatherUnit_apart (c : Nat) (img : Image) (b : Binding) (id unit w : Nat) : Apart s (s.gatherUnit c img b id unit w) := by
  unfold State.gatherUnit
  extract_lets +onlyGivenNames d u
  split
  · exact regather_apart s _ _ _ _ _ _
  · split
    · extract_lets +onlyGivenNames cc master r es v
      have written : Apart s v := by
        unfold v
        split
        · exact .refl s
        · exact (((bump_apart s _ _ _).trans (bump_apart _ _ _ _)).trans (gatherWrite_apart _ _ _ _ _ _)).trans (gatherMark_apart _ _ _ _)
      exact written.trans (gatherSend_apart v _ _ _ _ _ _ _)
    · exact .refl s

/-! ## Votes and pages -/

@[simp] theorem takeResult_apart (c : Nat) (b : Binding) (v : VoteRec) : Apart s (s.takeResult c b v) := by
  unfold State.takeResult
  exact (setColl_apart s _).trans (.foldl _ (fun x r => sendVote_apart x _ _ _ _ _) _ _)

@[simp] theorem takeVote_apart (c : Nat) (b : Binding) (v : VoteRec) : Apart s (s.takeVote c b v) := by
  unfold State.takeVote
  split
  · exact .refl s
  · extract_lets +onlyGivenNames z x need
    have counted : Apart s x := setColl_apart s _
    split
    · exact counted
    · split
      · exact counted
      · dsimp only
        split
        · exact counted.trans (takeResult_apart x _ _ _)
        · exact counted.trans (sendVote_apart x _ _ _ _ _)

@[simp] theorem castVote_apart (c : Nat) (b : Binding) : Apart s (s.castVote c b) := by
  unfold State.castVote
  extract_lets +onlyGivenNames v w
  have voted : Apart s w := .refl s
  split
  · exact voted.trans (takeVote_apart w _ _ _)
  · exact voted.trans (sendVote_apart w _ _ _ _ _)

@[simp] theorem pushPages_apart (c : Nat) (b : Binding) : Apart s (s.pushPages c b) := by
  unfold State.pushPages
  extract_lets +onlyGivenNames pages v
  have pushed : Apart s v := by
    refine .foldl _ (fun x i => ?_) _ s
    dsimp only
    split
    · split
      · exact .refl x
      · refine .foldl _ (fun y q => ?_) _ x
        exact ((sendMessage_apart y _ _ _ _).trans (bump_apart _ _ _ _)).trans (setColl_apart _ _)
    · exact .refl x
  exact pushed.trans (.refl v)

end Sys2Proof.Proofs
end

section
/-! What a departure does beside its issue: no effect of a departure changes a Token, a line, an issue count, the energy estimate, or the
names of the departures in progress. -/

namespace Sys2Proof.Proofs

open Sys2Proof Sys2Proof.Machine Sys2Proof.Laws

/-- A Station's Tokens, lines and issues, and the names of its departures in progress. -/
def ledger (st : Station) := (entries st, names st)

/-- Every Station's ledger and cycles, the Turntables' queues, the retired Stations and the energy estimate are the same. -/
structure Works (s t : State) : Prop where
  ledgers : Keeps ledger s t
  turns   : t.turns = s.turns
  retired : t.flash.retired = s.flash.retired
  energy  : t.power.energyWin = s.power.energyWin

variable {s t u : State}

theorem Works.refl (s : State) : Works s s := ⟨.refl s, rfl, rfl, rfl⟩

theorem Works.trans (h : Works s t) (k : Works t u) : Works s u :=
  ⟨h.ledgers.trans k.ledgers, k.turns.trans h.turns, k.retired.trans h.retired, k.energy.trans h.energy⟩

theorem Works.foldl {β : Type} {g : State → β → State} (h : ∀ x b, Works x (g x b)) (l : List β) (s : State) : Works s (l.foldl g s) :=
  foldl_keeps (Works s) g (fun x b hx => hx.trans (h x b)) l s (.refl s)

theorem Works.entries (h : Works s t) : Keeps entries s t := ⟨h.ledgers.1, fun n => congrArg Prod.fst (h.ledgers.2 n)⟩

theorem Works.names (h : Works s t) : Keeps names s t := ⟨h.ledgers.1, fun n => congrArg Prod.snd (h.ledgers.2 n)⟩

theorem Works.of_glides (h : Glides s t) : Works s t :=
  ⟨⟨h.keeps.1, fun n => Prod.ext (h.keeps.2 n) (h.named.2 n)⟩, h.turns, h.retired, by rw [h.power]⟩

theorem Works.of_apart (h : Apart s t) : Works s t := by
  obtain ⟨stations, cycles, retired, -, turns, -, -, power, -⟩ := h
  exact ⟨.of_eq cycles stations, turns, retired, by rw [power]⟩

theorem Works.of_stopped (h : Stopped s t) : Works s t := by
  obtain ⟨_, _, _, _, _, _, _, _, _, _, rfl, _⟩ := h
  exact ⟨.of_eq rfl rfl, rfl, rfl, rfl⟩

theorem Works.of_logged (h : Logged s t) : Works s t := .of_stopped h.stopped

variable (s)

theorem setStation_works (k : Nat) {v : Station} (h : ledger v = ledger (s.station k)) : Works s (s.setStation k v) :=
  ⟨.setStation s h, rfl, rfl, rfl⟩

theorem modStation_works (k : Nat) {g : Station → Station} (h : ∀ st, ledger (g st) = ledger st) : Works s (s.modStation k g) :=
  setStation_works s k (h _)

theorem bump_works (c : Ctr) (i n : Nat) : Works s (s.bump c i n) := .of_logged (bump_logged s c i n)

theorem runBad_works (b : Bool) : Works s (s.runBad b) := .of_stopped (runBad_stopped s b)

theorem ledger_modProg (st : Station) (id : DepId) (g : Prog → Prog) (hg : ∀ q : Prog, (g q).id = q.id ∧ (g q).word = q.word) :
    ledger (st.modProg id g) = ledger st := Prod.ext rfl (names_modProg st id g hg)

theorem modProg_works (k : Nat) (id : DepId) (g : Prog → Prog) (hg : ∀ q : Prog, (g q).id = q.id ∧ (g q).word = q.word) :
    Works s (s.modProg k id g) := modStation_works s k fun st => ledger_modProg st id g hg

theorem finish_works (k : Nat) (id : DepId) (sc : Nat) : Works s (s.finish k id sc) := .of_glides (finish_glides s k id sc)

theorem stall_works (k : Nat) (id : DepId) (cause n : Nat) : Works s (s.stall k id cause n) := .of_glides (stall_glides s k id cause n)

theorem malformedProg_works (k : Nat) (p : Prog) (reason : Nat) : Works s (s.malformedProg k p reason) := by
  unfold State.malformedProg
  split
  · exact .of_stopped (malformed_stopped s _ _ _ _ _ _)
  · exact .refl s

theorem storeErrors_works (k j sect index : Nat) (bad : List Nat) : Works s (s.storeErrors k j sect index bad) := by
  unfold State.storeErrors
  refine .foldl (fun x g => ?_) _ s
  have poisoned : Works x (x.modStation k (fun st => { st with storePoison := numInsert st.storePoison g })) :=
    modStation_works x k fun _ => by rfl
  exact poisoned.trans (.of_stopped (flowingError_stopped _ _))

theorem noteFills_works (k : Nat) : Works s (s.noteFills k) := .of_glides (noteFills_glides s k)

theorem pump_works (p l : Nat) : Works s (s.pump p l) := .of_glides (pump_glides s p l)

theorem modHop_works (p l : Nat) (g : Hop → Hop) : Works s (s.modHop p l g) := .of_glides (modHop_glides s p l g)

/-! ## The feeder and the Sidings -/

theorem claim_works (k sid n : Nat) (id : DepId) : Works s (s.claim k sid n id) := by
  unfold State.claim
  refine Works.trans (modStation_works s k fun st => ?_) (noteFills_works _ k)
  exact ledger_modProg (st.setSiding sid _) id _ fun _ => ⟨rfl, rfl⟩

theorem feedPort_works (k p a n : Nat) : Works s (s.feedPort k p a n) := by
  unfold State.feedPort
  extract_lets +onlyGivenNames st more feeds
  split
  · exact setStation_works s k rfl
  · extract_lets +onlyGivenNames r y st₁ st₂
    have delayed : ledger st₂ = ledger st := ledger_modProg st₁ _ _ fun _ => ⟨rfl, rfl⟩
    exact (((setStation_works s k delayed).trans (stall_works _ _ _ _ _)).trans (bump_works _ _ _ _)).trans (bump_works _ _ _ _)

theorem ledger_stageData (st : Station) (id : DepId) (pl : Plane) (sc : Nat) : ledger (st.stageData id pl sc) = ledger st :=
  stageData_blind (fun _ _ => rfl) st id pl sc

theorem feedStage_works (k : Nat) (pr : Prog) : Works s (s.feedStage k pr) := by
  unfold State.feedStage
  extract_lets +onlyGivenNames o st d
  split
  · split
    · exact .refl s
    · split
      · exact malformedProg_works s _ _ _
      · extract_lets +onlyGivenNames pl
        exact (((setStation_works s k (ledger_stageData st _ _ _)).trans (stall_works _ _ _ _ _)).trans (runBad_works _ _)).trans
          (feedPort_works _ _ _ _ _)
  · exact .refl s

theorem feedSend_works (k : Nat) (pr : Prog) : Works s (s.feedSend k pr) := by
  unfold State.feedSend
  extract_lets +onlyGivenNames o st d
  split
  · split
    · exact malformedProg_works s _ _ _
    · extract_lets +onlyGivenNames c v
      have passed : Works s v := by
        refine (modProg_works s k pr.id _ ?_).trans (stall_works _ _ _ _ _)
        exact fun _ => ⟨rfl, rfl⟩
      exact passed.trans (modHop_works v _ _ _)
  · exact .refl s

theorem matchMma_works (k : Nat) (pr : Prog) : Works s (s.matchMma k pr) := by
  unfold State.matchMma
  dsimp only
  split
  · exact malformedProg_works s _ _ _
  · exact .refl s

theorem feedSiding_works (k : Nat) : Works s (s.feedSiding k) := by
  unfold State.feedSiding
  refine .foldl (fun x pr => ?_) _ s
  split
  · exact .refl x
  · split
    · exact feedStage_works x k pr
    · split
      · exact feedSend_works x k pr
      · split
        · exact matchMma_works x k pr
        · exact .refl x

theorem matchHeld_works (p l : Nat) : Works s (s.matchHeld p l) := by
  unfold State.matchHeld
  extract_lets +onlyGivenNames h
  split
  · extract_lets +onlyGivenNames st
    split
    · split
      · exact .refl s
      · extract_lets +onlyGivenNames op mx bad v
        split
        · exact malformedProg_works s _ _ _
        · have given : Works s v := .of_glides (setHop_glides s p l _)
          exact (given.trans (.of_glides (bumpNode_glides v _ _ _))).trans (pump_works _ _ _)
    · exact .refl s
  · exact .refl s

theorem startTake_works (k p l tag : Nat) (id : DepId) : Works s (s.startTake k p l tag id) :=
  (modStation_works s k fun _ => by rfl).trans (matchHeld_works _ p l)

/-! ## The effects -/

theorem sendEffect_works (k : Nat) (h : Head) (pr : Prog) : Works s (sendEffect s k h pr) := by
  unfold sendEffect
  extract_lets +onlyGivenNames o claimed st n poison rc bad c v w
  split
  · have got : Works s claimed := claim_works s _ _ _ _
    split
    · exact got.trans (feedSend_works claimed _ _)
    · exact got
  · have passed : Works s v := modProg_works s k pr.id _ fun _ => ⟨rfl, rfl⟩
    have sent : Works s w := passed.trans (modHop_works v _ _ _)
    split
    · exact sent.trans (.of_stopped (markStepBad_stopped w h.c))
    · exact sent

theorem stageEffect_works (k : Nat) (h : Head) (pr : Prog) : Works s (stageEffect s k h pr) := by
  unfold stageEffect
  extract_lets +onlyGivenNames o v
  have staging : Works s v := modStation_works s k fun _ => rfl
  split
  · extract_lets +onlyGivenNames st pl
    exact ((staging.trans (setStation_works v k (ledger_stageData st _ _ _))).trans (runBad_works _ _)).trans (feedPort_works _ _ _ _ _)
  · extract_lets +onlyGivenNames w
    have got : Works s w := staging.trans (claim_works v _ _ _ _)
    split
    · exact got.trans (feedStage_works w _ _)
    · exact got
  · exact staging.trans (startTake_works v _ _ _ _ _)

theorem mmaEffect_works (k : Nat) (h : Head) (pr : Prog) : Works s (mmaEffect s k h pr) := by
  unfold mmaEffect
  extract_lets +onlyGivenNames o v
  have entered : Works s v := modStation_works s k fun _ => rfl
  split
  · exact entered
  · extract_lets +onlyGivenNames w
    have got : Works s w := entered.trans (claim_works v _ _ _ _)
    split
    · exact got.trans (matchMma_works w _ _)
    · exact got
  · exact entered.trans (startTake_works v _ _ _ _ _)

theorem shadow_ledger (st : Station) (x : Shadow) : ledger { st with shadow := x } = ledger st := rfl

theorem stageCplx_works (k p : Nat) (pr : Prog) (t sc : Nat) : Works s (s.stageCplx k p pr t sc) := by
  unfold State.stageCplx
  extract_lets +onlyGivenNames o st pl
  exact ((setStation_works s k (shadow_ledger st _)).trans (runBad_works _ _)).trans (feedPort_works _ _ _ _ _)

theorem ledger_foldl {β : Type} {g : Station → β → Station} (h : ∀ x b, ledger (g x b) = ledger x) (l : List β) (st : Station) :
    ledger (l.foldl g st) = ledger st :=
  foldl_keeps (fun x => ledger x = ledger st) g (fun x b hx => (h x b).trans hx) l st rfl

theorem cplxEffect_works (k : Nat) (h : Head) (pr : Prog) : Works s (cplxEffect s k h pr) := by
  unfold cplxEffect
  extract_lets +onlyGivenNames o v
  have entered : Works s v := modStation_works s k fun st => ledger_foldl (fun _ _ => by rfl) _ _
  exact entered.trans (stageCplx_works v _ _ _ _ _)

theorem openEffect_works (k : Nat) (h : Head) (pr : Prog) : Works s (openEffect s k h pr) := by
  unfold openEffect
  extract_lets +onlyGivenNames o st₁ st₂ st₃ st₄
  have first : ledger st₂ = ledger (s.station k) := by
    unfold st₂
    split <;> rfl
  have cleared : ledger st₃ = ledger st₂ := by
    unfold st₃
    split
    · exact clearRows_keeps _ (fun _ _ => rfl) _ _
    · rfl
  have both : ledger st₄ = ledger st₃ := by
    unfold st₄
    split
    · exact clearRows_keeps _ (fun _ _ => rfl) _ _
    · rfl
  exact (setStation_works s k (both.trans (cleared.trans first))).trans (finish_works _ _ _ _)

theorem closeEffect_works (k : Nat) (h : Head) (pr : Prog) : Works s (closeEffect s k h pr) := by
  unfold closeEffect
  extract_lets +onlyGivenNames o st₁ g st₂
  have closing : ledger st₂ = ledger (s.station k) := rfl
  split
  · have freed : ledger (st₂.freeGroup o.slot) = ledger st₂ := freeGroup_keeps _ _ (fun _ _ => rfl)
    exact (setStation_works s k (freed.trans closing)).trans (finish_works _ _ _ _)
  · exact setStation_works s k rfl

/-! ## The drain path -/

theorem accError_works (k p kind r : Nat) (e : AccError) : Works s (s.accError k p kind r e) := by
  unfold State.accError
  extract_lets +onlyGivenNames st
  split
  · exact .refl s
  · split
    · exact bump_works s _ _ _
    · have unseen (x : Table (List Nat)) (y : List Nat) : ledger { st with acc := x, accPoison := y } = ledger st := rfl
      exact (setStation_works s k (unseen _ _)).trans (.of_stopped (accReport_stopped _ _ _ _ _))

theorem drainErrors_works (k p : Nat) (groups : List Nat) (off n : Nat) (errs : List AccError) :
    Works s (s.drainErrors k p groups off n errs) := by
  unfold State.drainErrors State.accErrors
  refine .foldl (fun x g => .foldl (fun y r => .foldl (fun z e => ?_) _ y) _ x) _ s
  exact accError_works z k p _ r e

theorem outRow_works (k : Nat) (o : OutFmt) (row off : Nat) (xs : List PVal) : Works s (s.outRow k o row off xs) := by
  unfold State.outRow
  split
  · extract_lets +onlyGivenNames c v
    have written : Works s v := modStation_works s k fun st => writeRow_keeps (fun _ _ _ => rfl) st _ _ _ _ _
    exact (written.trans (bump_works v _ _ _)).trans (bump_works _ _ _ _)
  · exact .refl s

theorem drainValues_works (k n : Nat) (o : DrainOps) : Works s (s.drainValues k n o) := by
  unfold State.drainValues
  extract_lets +onlyGivenNames st rows params v
  have marked : Works s v := runBad_works s _
  split
  · exact marked.trans (.foldl (fun x i => outRow_works x k _ _ _ _) _ v)
  · exact marked

theorem cplxValues_works (k n : Nat) (o : DrainOps) : Works s (s.cplxValues k n o) := by
  unfold State.cplxValues
  extract_lets +onlyGivenNames st g kind row comb any3 mark out imag v w
  have real : Works v w := .foldl (fun x i => outRow_works x k _ _ _ _) _ v
  exact ((runBad_works s _).trans real).trans (.foldl (fun x i => outRow_works x k _ _ _ _) _ w)

theorem schedule_works (k p : Nat) (pr : Prog) (t : Nat) (b : Station) (q : DrainPace) : Works s (s.schedule k p pr t b q) := by
  obtain ⟨free, last, done, busy, yields, a, c, d, -, e⟩ := schedule_eq s k p pr t b q
  rw [e]
  have books : ledger (booked (s.station k) free last (q.run pr.id t b)) = ledger (s.station k) := booked_keeps (fun _ _ _ _ => rfl) _ _ _ _
  exact ((((((setStation_works s k books).trans (bump_works _ _ _ _)).trans (bump_works _ _ _ _)).trans (finish_works _ _ _ _)).trans
    (stall_works _ _ _ _ _)).trans (stall_works _ _ _ _ _)).trans (stall_works _ _ _ _ _)

theorem runDrain_works (k p : Nat) (pr : Prog) (t : Nat) (errs : List AccError) : Works s (s.runDrain k p pr t errs) := by
  unfold State.runDrain
  extract_lets +onlyGivenNames o b v st g into w x y z n
  have read : Works s w := (drainErrors_works s _ _ _ _ _ _).trans (drainValues_works v _ _ _)
  have reduced : Works w x := modStation_works w k fun st => writeReduction_keeps (fun _ _ _ => rfl) st _ _ _ _ _ _
  have cleared : Works x y := modStation_works x k fun st => drainClear_keeps (fun _ _ => rfl) st _ _ _
  exact (((read.trans reduced).trans cleared).trans (bump_works y _ _ _)).trans (schedule_works z _ _ _ _ _ _)

theorem runDrainCplx_works (k p : Nat) (pr : Prog) (t : Nat) (errs : List AccError) : Works s (s.runDrainCplx k p pr t errs) := by
  unfold State.runDrainCplx
  extract_lets +onlyGivenNames o groups b v w x n r y
  have read : Works s w := (drainErrors_works s _ _ _ _ _ _).trans (cplxValues_works v _ _ _)
  have cleared : Works w x := modStation_works w k fun st => drainClear_keeps (fun _ _ => rfl) st _ _ _
  exact ((read.trans cleared).trans (bump_works x _ _ _)).trans (schedule_works y _ _ _ _ _ _)

theorem drainOrWait_works (k p : Nat) (pr : Prog) (groups : List Nat) (cplx : Bool) (errs : List AccError) :
    Works s (s.drainOrWait k p pr groups cplx errs) := by
  unfold State.drainOrWait
  extract_lets +onlyGivenNames st
  split
  · split
    · exact runDrainCplx_works s _ _ _ _ _
    · exact runDrain_works s _ _ _ _ _
  · exact setStation_works s k rfl

theorem runRows_works (k : Nat) (o : OutFmt) (n : Nat) (f : Station → Nat → List PVal) : Works s (s.runRows k o n f) := by
  unfold State.runRows
  exact .foldl (fun x i => (runBad_works x _).trans (outRow_works _ _ _ _ _ _)) _ s

theorem vecSchedule_works (k p : Nat) (pr : Prog) (b : Station) (o : VecOps) (extra more : Nat) :
    Works s (s.vecSchedule k p pr b o extra more) := schedule_works s _ _ _ _ _ _

/-- A vector departure: its rows, their count, its schedule. -/
theorem vector_works (k p : Nat) (pr : Prog) (b : Station) (o : VecOps) (out : OutFmt) (n m extra more : Nat)
    (f : Station → Nat → List PVal) : Works s (((s.runRows k out n f).bump .vecRows p m).vecSchedule k p pr b o extra more) :=
  ((runRows_works s _ _ _ _).trans (bump_works _ _ _ _)).trans (vecSchedule_works _ _ _ _ _ _ _ _)

theorem vstatsEffect_works (k : Nat) (h : Head) (pr : Prog) : Works s (vstatsEffect s k h pr) := by
  unfold vstatsEffect
  extract_lets +onlyGivenNames o st rows v w
  have written : Works v w := modStation_works v k fun st => writeReduction_keeps (fun _ _ _ => rfl) st _ _ _ _ _ _
  exact (((runBad_works s _).trans written).trans (bump_works w _ _ _)).trans (schedule_works _ _ _ _ _ _ _)

/-! ## The Pilot, the Turntables and the collective engine -/

theorem manifestEffect_works (k : Nat) (h : Head) (pr : Prog) : Works s (manifestEffect s k h pr) := by
  unfold manifestEffect
  extract_lets +onlyGivenNames o m
  refine modStation_works s k fun st => ?_
  dsimp only
  split <;> rfl

/-- The effect of a `TURN` after its Turntable's queue has taken it. -/
theorem turnEffect_works (k : Nat) (h : Head) (pr : Prog) :
    ∃ x, Works { s with turns := x } (turnEffect s k h pr) := by
  unfold turnEffect
  extract_lets +onlyGivenNames o
  split
  next rc bad _ =>
    extract_lets +onlyGivenNames u req v w d
    refine ⟨_, Works.trans (runBad_works v bad) ?_⟩
    split
    · split
      next p _ =>
        have claimed : Works w (w.modProg k pr.id (fun x => { x with claim := p.num })) := modProg_works w k pr.id _ fun _ => ⟨rfl, rfl⟩
        exact claimed.trans (modStation_works _ _ fun _ => by rfl)
      · exact .refl w
    · exact .refl w

theorem fireSignals_works (k : Nat) (p : Prog) : Works s (s.fireSignals k p) := by
  unfold State.fireSignals State.signal
  exact .foldl (fun x g => modStation_works x _ fun _ => by rfl) _ s

theorem completeNow_works (k : Nat) (p : Prog) : Works s (s.completeNow k p) := by
  unfold State.completeNow
  refine (modProg_works s k p.id _ ?_).trans (fireSignals_works _ k p)
  exact fun _ => ⟨rfl, rfl⟩

theorem engineSignal_works (owner tok : Nat) : Works s (s.engineSignal owner tok) := by
  unfold State.engineSignal State.signal
  exact modStation_works s owner fun _ => by rfl

theorem collComplete_works (img : Image) (b : Binding) (r : CollRun) : Works s (s.collComplete img b r) := by
  unfold State.collComplete
  extract_lets +onlyGivenNames d z v sc w
  have ended : Works s v := .of_apart (setColl_apart s _)
  have signalled : Works v w := by
    unfold w
    split
    · refine (modProg_works v 0 r.dep _ ?_).trans (fireSignals_works _ _ _)
      exact fun _ => ⟨rfl, rfl⟩
    · exact .refl v
  exact (ended.trans signalled).trans (engineSignal_works w _ _)

theorem collProgress_works : Works s s.collProgress := by
  unfold State.collProgress
  split
  · exact .refl s
  next c img b _ =>
    extract_lets +onlyGivenNames v st z w
    have done : Works s v := by
      refine .foldl (fun x r => ?_) _ s
      split
      · exact collComplete_works x _ _ _
      · exact .refl x
    split
    · exact done.trans (.of_apart (castVote_apart v _ _))
    · split
      · have asked : Works v w := .of_apart (setColl_apart v _)
        split
        · exact (done.trans asked).trans (.of_apart (castVote_apart w _ _))
        · exact done.trans asked
      · exact done

theorem collEffect_works (errs : List ObjError) (k : Nat) (h : Head) (pr : Prog) : Works s (collEffect errs s k h pr) := by
  unfold collEffect
  extract_lets +onlyGivenNames v id
  have read : Works s v := .of_apart (objErrors_apart s _ _)
  split
  next img b run _ _ _ =>
    extract_lets +onlyGivenNames d w x y z a
    have begun : Works v z := .of_apart (.refl v)
    have units : Apart z a := by
      refine .foldl _ (fun x n => ?_) _ z
      split
      · exact gatherUnit_apart x _ _ _ _ _ _
      · exact reduceUnit_apart x _ _ _ _ _ _
    exact ((read.trans begun).trans (.of_apart units)).trans (collProgress_works a)
  · exact read

theorem rightAwayEffect_works (k : Nat) (h : Head) (pr : Prog) : Works s (rightAwayEffect s k h pr) := by
  unfold rightAwayEffect
  split
  · exact .refl s
  · extract_lets +onlyGivenNames v
    have asked : Works s v := .of_apart (.refl s)
    exact (asked.trans (.of_apart (pushPages_apart v _ _))).trans (collProgress_works _)

theorem pointsEffect_works (k : Nat) (h : Head) (pr : Prog) : Works s (pointsEffect s k h pr) := by
  unfold pointsEffect
  extract_lets +onlyGivenNames o st v bad p x y
  have asked : Works s x := .of_apart (.refl s)
  exact (asked.trans (bump_works x _ _ _)).trans (runBad_works _ _)

theorem sectionEnd_works (k : Nat) (h : Head) (pr : Prog) : Works s (sectionEndRule.effect s k h pr) := by
  refine (completeNow_works s k pr).trans (.of_stopped ?_)
  show Stopped (s.completeNow k pr) ((s.completeNow k pr).pointsMissing h.c k pr.id.line h.sect h.index)
  unfold State.pointsMissing
  split
  · dsimp only
    split
    · exact malformed_stopped _ _ _ _ _ _ _
    · exact .refl _
  · exact .refl _

theorem putBoard_works (b : Board) : Works s (putBoard s b) := ⟨.of_eq rfl rfl, rfl, rfl, rfl⟩

end Sys2Proof.Proofs
end

section
/-! The issue of a departure: what every one does to its Station's books (O30), and that a Station's issues come one in a cycle, in line
order, from their planned times (O29). -/

namespace Sys2Proof.Proofs

open Sys2Proof Sys2Proof.Machine Sys2Proof.Laws

/-- Every Station's Tokens, lines, issues and cycles, the retired Stations and the energy estimate are the same. -/
structure Spares (s t : State) : Prop where
  entries : Keeps entries s t
  retired : t.flash.retired = s.flash.retired
  energy  : t.power.energyWin = s.power.energyWin

variable {s t u : State}

theorem Spares.trans (h : Spares s t) (k : Spares t u) : Spares s u :=
  ⟨h.entries.trans k.entries, k.retired.trans h.retired, k.energy.trans h.energy⟩

theorem Works.spares (h : Works s t) : Spares s t := ⟨h.entries, h.retired, h.energy⟩

section
variable (s) (k : Nat) (h : Head) (pr : Prog)

theorem ballast_works : Works s (ballastRule.effect s k h pr) := by
  show Works s (s.modStation k (fun st => { st with mulq := st.mulq ++ [pr.id] }))
  exact modStation_works s k fun _ => by rfl

theorem convertEffect_works : Works s (convertEffect s k h pr) := vector_works s k h.p pr _ _ _ _ _ _ _ _

theorem actEffect_works : Works s (actEffect s k h pr) := vector_works s k h.p pr _ _ _ _ _ _ _ _

theorem ewEffect_works : Works s (ewEffect s k h pr) := vector_works s k h.p pr _ _ _ _ _ _ _ _

theorem normEffect_works : Works s (normEffect s k h pr) := vector_works s k h.p pr _ _ _ _ _ _ _ _

theorem pointsRule_works : Works s (pointsRule.effect s k h pr) := pointsEffect_works s k h pr

theorem stageRule_works : Works s (stageRule.effect s k h pr) := stageEffect_works s k h pr

theorem mmaRule_works : Works s (mmaRule.effect s k h pr) := mmaEffect_works s k h pr

theorem cplxRule_works : Works s (cplxRule.effect s k h pr) := cplxEffect_works s k h pr

theorem sendRule_works : Works s (sendRule.effect s k h pr) := sendEffect_works s k h pr

theorem takeRule_works : Works s (takeRule.effect s k h pr) := startTake_works s k _ _ _ _

theorem openRule_works : Works s (openRule.effect s k h pr) := openEffect_works s k h pr

theorem closeRule_works : Works s (closeRule.effect s k h pr) := closeEffect_works s k h pr

theorem convertRule_works : Works s (convertRule.effect s k h pr) := convertEffect_works s k h pr

theorem actRule_works : Works s (actRule.effect s k h pr) := actEffect_works s k h pr

theorem ewRule_works : Works s (ewRule.effect s k h pr) := ewEffect_works s k h pr

theorem normRule_works : Works s (normRule.effect s k h pr) := normEffect_works s k h pr

theorem vstatsRule_works : Works s (vstatsRule.effect s k h pr) := vstatsEffect_works s k h pr

theorem manifestRule_works : Works s (manifestRule.effect s k h pr) := manifestEffect_works s k h pr

theorem rightAwayRule_works : Works s (rightAwayRule.effect s k h pr) := rightAwayEffect_works s k h pr

theorem tokenRule_works : Works s (tokenRule.effect s k h pr) := completeNow_works s k pr

theorem collRule_works (errs : List ObjError) : Works s ((collRule errs).effect s k h pr) := collEffect_works s errs k h pr

theorem turnRule_spares : Spares s (turnRule.effect s k h pr) := by
  obtain ⟨x, works⟩ := turnEffect_works s k h pr
  have queued : Spares s { s with turns := x } := ⟨.of_eq rfl rfl, rfl, rfl⟩
  exact queued.trans works.spares

theorem drain_works (errs : List AccError) : Works s ((drainRule errs).effect s k h pr) := by
  let g := (drainOps h.word).group
  show Works s ((s.modStation k (fun st => st.enterGroup g 0)).drainOrWait k h.p pr [g] false errs)
  exact (modStation_works s k fun _ => by rfl).trans (drainOrWait_works _ k _ _ _ _ _)

theorem drainCplx_works (errs : List AccError) : Works s ((drainCplxRule errs).effect s k h pr) := by
  let g := (drainOps h.word).group
  show Works s ((s.modStation k (fun st => [g, g + 1, g + 2].foldl (fun st x => st.enterGroup x 0) st)).drainOrWait k h.p pr
    [g, g + 1, g + 2] true errs)
  exact (modStation_works s k fun _ => ledger_foldl (fun _ _ => by rfl) _ _).trans (drainOrWait_works _ k _ _ _ _ _)

theorem board_works : Works s (boardRule.effect s k h pr) := by
  rw [boardRule_effect]
  exact (putBoard_works s _).trans (completeNow_works _ k pr)

theorem sidingSet_works : Works s (sidingSetRule.effect s k h pr) := by
  rw [sidingSetRule_effect]
  exact (modStation_works s k fun _ => by rfl).trans (completeNow_works _ k pr)

theorem expect_works : Works s (expectRule.effect s k h pr) := by
  rw [expectRule_effect]
  exact (modStation_works s k fun _ => by rfl).trans (completeNow_works _ k pr)

end

/-- No effect of a departure touches the books. -/
theorem effect_spares {i : Instr} {k : Fin 128} {j : Fin 4} {t : IssueTick} {r : DepRule} (hi : i.departure = some (k, j, t, r))
    (w : State) (n : Nat) (h : Head) (pr : Prog) : Spares w (r.effect w n h pr) := by
  unfold Instr.departure at hi
  split at hi <;> cases hi
  case h_1 => exact (tokenRule_works w n h pr).spares
  case h_2 => exact (sectionEnd_works w n h pr).spares
  case h_3 => exact (pointsRule_works w n h pr).spares
  case h_4 => exact (board_works w n h pr).spares
  case h_5 => exact (stageRule_works w n h pr).spares
  case h_6 => exact (mmaRule_works w n h pr).spares
  case h_7 => exact (cplxRule_works w n h pr).spares
  case h_8 => exact (sendRule_works w n h pr).spares
  case h_9 => exact (takeRule_works w n h pr).spares
  case h_10 => exact (ballast_works w n h pr).spares
  case h_11 => exact (openRule_works w n h pr).spares
  case h_12 => exact (closeRule_works w n h pr).spares
  case h_13 => exact turnRule_spares w n h pr
  case h_14 => exact (drain_works w n h pr _).spares
  case h_15 => exact (drainCplx_works w n h pr _).spares
  case h_16 => exact (convertRule_works w n h pr).spares
  case h_17 => exact (actRule_works w n h pr).spares
  case h_18 => exact (ewRule_works w n h pr).spares
  case h_19 => exact (normRule_works w n h pr).spares
  case h_20 => exact (vstatsRule_works w n h pr).spares
  case h_21 => exact (manifestRule_works w n h pr).spares
  case h_22 => exact (sidingSet_works w n h pr).spares
  case h_23 => exact (expect_works w n h pr).spares
  case h_24 => exact (collRule_works w n h pr _).spares
  case h_25 => exact (rightAwayRule_works w n h pr).spares

/-! ## An issue -/

/-- What every issue does to the books of its Station, and leaves of the others (R155, R156, R163); `sc` is its cycle. -/
structure Issued (s : State) (k j : Nat) (h : Head) (sc : Nat) (u : State) : Prop where
  issued    : (u.station k).issued = (s.station k).issued + 1
  lastIssue : (u.station k).lastIssue = some sc
  cycle     : u.cycle h.p = sc
  tokens    : (u.station k).tokens = consume (s.station k).tokens (Dep.waits h.word)
  next      : ((u.station k).line j).next = ((s.station k).line j).next + 1
  others    : ∀ l, l ≠ j → ((u.station k).line l).next = ((s.station k).line l).next
  elsewhere : ∀ n, n ≠ k → (u.station n).tokens = (s.station n).tokens ∧ (u.station n).issued = (s.station n).issued
  energy    : u.power.energyWin = s.power.energyWin + 2 ^ Dep.energy h.word

/-- Fields of the books. -/
theorem Spares.station (h : Spares s t) (n : Nat) : (t.station n).tokens = (s.station n).tokens ∧
    (t.station n).lines = (s.station n).lines ∧ (t.station n).issued = (s.station n).issued ∧
    (t.station n).lastIssue = (s.station n).lastIssue := by
  have same := h.entries.2 n
  simp only [Proofs.entries, Prod.mk.injEq] at same
  exact same

theorem issuing_issued (s : State) (k j : Nat) (t : IssueTick) (h : Head) : Issued s k j h (s.issueSc h t) (issuing s k j t h) := by
  have lines (l : Nat) := linesAfter_line ((s.atIssue h t).station k) j ((s.atIssue h t).cycle h.p) (s.atIssue h t).time.lt
    (Dep.opcode h.word == opSectionEnd) (s.atIssue h t).power.tight
    ((readyLines (s.atIssue h t) k ((s.atIssue h t).cycle h.p)).filter (fun i => i != j)) ((s.atIssue h t).lineDelays k j h) l
  have own : (issuing s k j t h).station k = begun (s.atIssue h t) k j h ((s.atIssue h t).cycle h.p) := issuing_station k j t h
  constructor
  case issued => rw [own, ← atIssue_station h t k]; rfl
  case lastIssue => rw [own]; rfl
  case cycle => rw [issuing_cycle]; rfl
  case tokens => rw [own, ← atIssue_station h t k]; rfl
  case next => rw [own, ← atIssue_station h t k]; exact ((lines j).1 rfl).1
  case others =>
    intro l hl
    rw [own, ← atIssue_station h t k]
    exact ((lines l).2 hl).1
  case elsewhere =>
    intro n hn
    have same : (issuing s k j t h).station n = s.station n := by
      rw [issuing, State.station, (issueCommon_stations _ k j h _).1, ← atIssue_station (s := s) h t n]
      exact (station_setStation _ _ _ _).trans (if_neg hn)
    rw [same]
    exact ⟨rfl, rfl⟩
  case energy => rw [issuing_power]

/-- What leaves the books, and the place of every line, leaves them issued. -/
theorem Issued.keeps {k j : Nat} {h : Head} {sc : Nat} (hs : Issued s k j h sc t) (hk : Keeps (fun st => (st.issued, st.lastIssue, st.tokens)) t u)
    (hl : ∀ l, ((u.station k).line l).next = ((t.station k).line l).next) (he : u.power.energyWin = t.power.energyWin) :
    Issued s k j h sc u := by
  have same (n : Nat) : (u.station n).issued = (t.station n).issued ∧ (u.station n).lastIssue = (t.station n).lastIssue ∧
      (u.station n).tokens = (t.station n).tokens := by
    have e := hk.2 n
    simp only [Prod.mk.injEq] at e
    exact e
  obtain ⟨issued, last, tokens⟩ := same k
  constructor
  case issued => rw [issued, hs.issued]
  case lastIssue => rw [last, hs.lastIssue]
  case cycle => rw [hk.cycle, hs.cycle]
  case tokens => rw [tokens, hs.tokens]
  case next => rw [hl, hs.next]
  case others => exact fun l hn => (hl l).trans (hs.others l hn)
  case elsewhere =>
    intro n hn
    obtain ⟨issued, -, tokens⟩ := same n
    obtain ⟨tokens', issued'⟩ := hs.elsewhere n hn
    exact ⟨tokens.trans tokens', issued.trans issued'⟩
  case energy => rw [he, hs.energy]

theorem Issued.spares {k j : Nat} {h : Head} {sc : Nat} (hs : Issued s k j h sc t) (hk : Spares t u) : Issued s k j h sc u := by
  refine hs.keeps ⟨hk.entries.1, fun n => ?_⟩ (fun l => ?_) hk.energy
  · obtain ⟨tokens, -, issued, last⟩ := hk.station n
    simp only [tokens, issued, last]
  · rw [Station.line, (hk.station k).2.1]
    rfl

theorem Issued.noted {k j : Nat} {h : Head} {sc : Nat} (hs : Issued s k j h sc t) (b : Station) (n : Nat) : Issued s k j h sc (t.note b n) := by
  refine hs.keeps (note_keeps t (fun _ _ => rfl) b n) (fun l => (note_noted t b n k l).fields.1) ?_
  rw [(note_atStations t b n).eq]

/-- An issue that R155 allows, as one command asks for it. -/
theorem issue_issued {i : Instr} {k : Fin 128} {j : Fin 4} {t : IssueTick} {r : DepRule} {h : Head}
    (hi : i.departure = some (k, j, t, r)) (hs : s.issues k j t r h) : Issued s k j h (s.issueSc h t) (issue r k j t s) := by
  rw [issue_of_issues hs]
  exact (((issuing_issued s k j t h).spares (storeErrors_works _ _ _ _ _ _).spares).spares (effect_spares hi _ _ _ _)).noted _ _

/-! ## The command -/

/-- Every command of a departure but `TURN` is its issue. -/
theorem departure_exec {i : Instr} {k : Fin 128} {j : Fin 4} {t : IssueTick} {r : DepRule} (hi : i.departure = some (k, j, t, r)) (s : State) :
    exec i s = .next (issue r k j t s) ∨ (i = .turn k j t ∧ r = turnRule) := by
  unfold Instr.departure at hi
  split at hi <;> cases hi
  case h_13 => exact .inr ⟨rfl, rfl⟩
  all_goals exact .inl rfl

end Sys2Proof.Proofs
end

section
/-! The commands that issue departures (O30, O29). -/

namespace Sys2Proof.Proofs

open Sys2Proof Sys2Proof.Machine Sys2Proof.Laws

variable {s t u : State} {k j : Nat} {h : Head}

/-- The head of a line is its next departure. -/
theorem headOf_index (hh : s.headOf k j = .head h) : h.index = ((s.station k).line j).next := by
  unfold State.headOf at hh
  split at hh
  · cases hh
  · dsimp only at hh
    split at hh
    · split at hh
      · cases hh
      · split at hh
        · cases hh
        · cases hh
          rfl
    · cases hh

/-! ## The wait of a `TURN` for its queue -/

/-- A line that has moved on waits no more (R247). -/
theorem turnQueueWait_logged (sc : Nat) {l : RunLine} (hl : ((s.station k).line j).next ≠ l.next) :
    Logged s (s.turnQueueWait k j sc l) := by
  unfold State.turnQueueWait
  split
  next h' _ hh _ =>
    have moved : ¬h'.index = l.next := fun e => hl ((headOf_index hh).symm.trans e)
    rw [if_neg fun e => moved e.1]
    split
    · rw [if_neg moved]
      exact bump_logged s _ _ _
    · exact .refl s
  · split
    · exact bump_logged s _ _ _
    · exact .refl s
  · exact .refl s

/-- The note of the wait changes one line's own note alone. -/
theorem turnQueueWait_keeps {α : Type} {f : Station → α} (hf : ∀ st x, f { st with lines := x } = f st) (sc : Nat) (l : RunLine) (n : Nat) :
    f ((s.turnQueueWait k j sc l).station n) = f (s.station n) ∧
      (((s.turnQueueWait k j sc l).station n).line j).next = ((s.station n).line j).next := by
  have logged {v : State} (h : Logged s v) : f (v.station n) = f (s.station n) ∧ ((v.station n).line j).next = ((s.station n).line j).next := by
    obtain ⟨_, _, _, _, rfl, _⟩ := h
    exact ⟨rfl, rfl⟩
  unfold State.turnQueueWait
  split
  next p _ _ =>
    split
    · extract_lets +onlyGivenNames v
      have same : v.station n = s.station n := rfl
      rw [State.modStation, station_setStation]
      split
      next e =>
        subst e
        refine ⟨(hf _ _).trans rfl, ?_⟩
        simp only [Station.line, tget_tset_self]
        rfl
      · exact ⟨rfl, rfl⟩
    · split
      · split
        · exact ⟨rfl, rfl⟩
        · exact logged (bump_logged s _ _ _)
      · exact ⟨rfl, rfl⟩
  · split
    · exact logged (bump_logged s _ _ _)
    · exact ⟨rfl, rfl⟩
  · exact ⟨rfl, rfl⟩

/-- The Sidings of a Sector are looked at after a `TURN`. -/
def sectorLooked (x : State) (k : Nat) : State := (List.range 16).foldl (fun s i => s.noteFills (k / 16 * 16 + i)) x

theorem sectorLooked_works (x : State) (k : Nat) : Works x (sectorLooked x k) := by
  unfold sectorLooked
  exact .foldl (fun y i => noteFills_works y _) _ x

theorem turn_exec (k : Fin 128) (j : Fin 4) (t : IssueTick) (s : State) :
    exec (.turn k j t) s = .next ((sectorLooked (issue turnRule k j t s) k).turnQueueWait k j t.sc ((s.station k).line j)) := rfl

/-- What an issue has done to the books stands at the end of its command. -/
theorem departure_issues {i : Instr} {k : Fin 128} {j : Fin 4} {t : IssueTick} {r : DepRule} (hi : i.departure = some (k, j, t, r))
    (hs : s.issues k j t r h) : ∃ u, exec i s = .next u ∧ Issued s k j h (s.issueSc h t) u := by
  have issued := issue_issued hi hs
  rcases departure_exec hi s with e | ⟨rfl, rfl⟩
  · exact ⟨_, e, issued⟩
  · refine ⟨_, turn_exec k j t s, ?_⟩
    have looked := issued.spares (sectorLooked_works _ k).spares
    have moved : (((sectorLooked (issue turnRule k j t s) k).station k).line j).next ≠ ((s.station k).line j).next := by
      rw [looked.next]
      exact Nat.succ_ne_self _
    exact looked.spares (Works.of_logged (turnQueueWait_logged t.sc moved)).spares

/-- Settles O30: an issue enters the books, and no departure's own effect touches them. -/
theorem departuresIssue : Obligations.DeparturesIssue := by
  intro i k j t r s h hi hs
  obtain ⟨u, runs, books⟩ := departure_issues hi hs
  exact ⟨u, runs, books.issued, by rw [books.lastIssue, books.cycle], books.tokens, books.next, books.others, books.elsewhere, books.energy⟩

/-! ## One issue in a cycle -/

/-- A line of a Station stands where it stood, and nothing has issued there. -/
def Stands (s : State) (k j : Nat) (u : State) : Prop :=
  (u.station k).issued = (s.station k).issued ∧ ((u.station k).line j).next = ((s.station k).line j).next ∧
    (u.station k).tokens = (s.station k).tokens

theorem Stands.of_stations (h : t.stations = s.stations) : Stands s k j t := by
  have same : t.station k = s.station k := by rw [State.station, h]; rfl
  rw [Stands, same]
  exact ⟨rfl, rfl, rfl⟩

/-- The head of a line issues, or the line stands. -/
theorem issues_or_stands {t : IssueTick} (r : DepRule) (hh : (s.advance t.lt).headOf k j = .head h) :
    s.issues k j t r h ∨ Stands s k j (issue r k j t s) := by
  have still : (s.atIssue h t).stations = s.stations := by simp [State.atIssue]
  have stands (c sect index reason : Nat) : Stands s k j ((s.atIssue h t).malformed c k j sect index reason) := by
    obtain ⟨_, _, _, _, _, _, _, _, _, _, e, _⟩ := malformed_stopped (s.atIssue h t) c k j sect index reason
    rw [e]
    exact .of_stations still
  unfold issue
  dsimp only
  rw [hh]
  dsimp only
  split
  · exact .inr (stands _ _ _ _)
  next form =>
    split
    · exact .inr (.of_stations still)
    next turn =>
      split
      · exact .inr (stands _ _ _ _)
      next check =>
        left
        simp only [Bool.or_eq_true, Bool.not_eq_true', bne_iff_ne, ne_eq, beq_iff_eq, not_or, Bool.not_eq_false, not_not] at turn
        obtain ⟨⟨own, fresh⟩, turn⟩ := turn
        rw [if_pos (beq_iff_eq.2 own)] at form
        exact ⟨hh, own, form, fresh, turn, check⟩

/-- What is chosen is one of the lines. -/
theorem leastEnergy_mem (s : State) (k : Nat) (l : List Nat) {j : Nat} (h : leastEnergy s k l = some j) : j ∈ l := by
  induction l with
  | nil => cases h
  | cons i l ih =>
    unfold leastEnergy at h
    split at h
    · exact List.mem_cons.2 (.inl (Option.some.inj h).symm)
    next m hm =>
      split at h
      · obtain rfl := Option.some.inj h
        exact List.mem_cons_of_mem _ (ih hm)
      · exact List.mem_cons.2 (.inl (Option.some.inj h).symm)

/-- The Dispatcher picks a ready line (R163, R164). -/
theorem dispatch_ready {sc : Nat} (h : dispatch s k sc = some j) : j ∈ readyLines s k sc := by
  unfold dispatch at h
  dsimp only at h
  split at h
  · split at h
    next found =>
      obtain rfl := Option.some.inj h
      exact List.mem_of_find?_eq_some found
    · exact leastEnergy_mem s k _ h
  · exact List.mem_of_head? h

/-- A ready line's head is ready. -/
theorem ready_of_mem {sc : Nat} (hh : s.headOf k j = .head h) (hm : j ∈ readyLines s k sc) : ready s k h sc = true := by
  unfold readyLines readyHead at hm
  have some := (List.mem_filter.1 hm).2
  rw [hh] at some
  dsimp only at some
  split at some
  next r => exact r
  · cases some

/-- Under `FIXED`, the pick is the lowest of the ready lines, which stand in ascending order (R163). -/
theorem dispatch_fixed {sc : Nat} (hf : s.policies.budget = false) :
    dispatch s k sc = some j ↔ j ∈ readyLines s k sc ∧ ∀ l ∈ readyLines s k sc, j ≤ l := by
  have sorted : (readyLines s k sc).Pairwise (· < ·) := List.Pairwise.filter _ List.pairwise_lt_range
  have first : dispatch s k sc = (readyLines s k sc).head? := by
    unfold dispatch
    dsimp only
    rw [if_neg (by simp [hf])]
  rw [first]
  generalize readyLines s k sc = l at sorted
  cases l with
  | nil => simp
  | cons a l =>
    have least := (List.pairwise_cons.1 sorted).1
    simp only [List.head?_cons, Option.some.injEq, List.mem_cons]
    constructor
    · rintro rfl
      refine ⟨.inl rfl, fun m hm => ?_⟩
      rcases hm with rfl | hm
      · exact Nat.le_refl _
      · exact Nat.le_of_lt (least m hm)
    · rintro ⟨rfl | hm, low⟩
      · rfl
      · exact absurd (low a (.inl rfl)) (Nat.not_le.2 (least j hm))

theorem atIssue_headOf (t : IssueTick) (hh : (s.advance t.lt).headOf k j = .head h) : (s.atIssue h t).headOf k j = .head h := by
  rw [← hh]
  rfl

/-- The line stands, or it has issued. -/
theorem departure_stands_or_issued {i : Instr} {k : Fin 128} {j : Fin 4} {t : IssueTick} {r : DepRule} {u : State}
    (hi : i.departure = some (k, j, t, r)) (hh : (s.advance t.lt).headOf k j = .head h) (hu : exec i s = .next u) :
    Stands s k j u ∨ (s.issues k j t r h ∧ Issued s k j h (s.issueSc h t) u) := by
  rcases issues_or_stands r hh with issues | stands
  · obtain ⟨v, runs, books⟩ := departure_issues hi issues
    obtain rfl : v = u := Host.Outcome.next.inj (runs.symm.trans hu)
    exact .inr ⟨issues, books⟩
  · left
    rcases departure_exec hi s with e | ⟨rfl, rfl⟩
    · obtain rfl := Host.Outcome.next.inj (e.symm.trans hu)
      exact stands
    · obtain rfl := Host.Outcome.next.inj ((turn_exec k j t s).symm.trans hu)
      obtain ⟨tokens, lines, issued, -⟩ := (sectorLooked_works (issue turnRule k j t s) k).spares.station k
      have books := turnQueueWait_keeps (s := sectorLooked (issue turnRule k j t s) k) (k := k) (j := j)
        (f := fun st => (st.issued, st.tokens)) (fun _ _ => rfl) t.sc ((s.station k).line j) k
      obtain ⟨same, next⟩ := books
      simp only [Prod.mk.injEq] at same
      refine ⟨same.1.trans (issued.trans stands.1), next.trans (Eq.trans ?_ stands.2.1), same.2.trans (tokens.trans stands.2.2)⟩
      rw [Station.line, lines]
      rfl

/-- Settles O29: a line that does not stand has passed R155's conditions, and its Station's pick was that line. -/
theorem oneIssueEachCycle : Obligations.OneIssueEachCycle := by
  intro i k j t r s h hi hh v sc
  have head : v.headOf k j = .head h := atIssue_headOf t hh
  have fixed : v.policies.budget = s.policies.budget := by simp [v]
  have station : v.station k = s.station k := atIssue_station h t k
  refine ⟨fun u hu => ?_, fun hb own form fresh mem low check => ?_⟩
  · rcases departure_stands_or_issued hi hh hu with stands | ⟨issues, books⟩
    · exact .inl stands
    · right
      obtain ⟨-, -, -, fresh, turn, -⟩ := issues
      have planned : 16 * h.planned ≤ v.copy h.p := by
        have r := ready_of_mem head (dispatch_ready turn)
        simp only [ready, Bool.and_eq_true, decide_eq_true_eq] at r
        exact r.1.1
      refine ⟨books.issued, books.next, books.tokens, planned, ?_, books.lastIssue, fun hb => (dispatch_fixed (fixed.trans hb)).1 turn⟩
      rw [← station]
      exact fresh
  · have issues : s.issues k j t r h :=
      ⟨hh, own, form, station ▸ fresh, (dispatch_fixed (fixed.trans hb)).2 ⟨mem, low⟩, check⟩
    obtain ⟨u, runs, books⟩ := departure_issues hi issues
    exact ⟨u, runs, books.issued⟩

end Sys2Proof.Proofs
end

section
/-! A Turntable serves its oldest `TURN` (O48). -/

namespace Sys2Proof.Proofs

open Sys2Proof Sys2Proof.Machine Sys2Proof.Laws

variable {s t u : State}

/-! ### Errors that a read finds leave the runs of the contexts alone -/

section
variable (s)

theorem spareList_paged (c e object more : Nat) : Paged s (s.spareList c e object more) := by
  unfold State.spareList
  extract_lets +onlyGivenNames m v
  split
  · have counted : Paged s v := bump_paged s _ _ _
    split
    · exact counted.trans (shift_paged v _ _ _)
    · split
      · exact counted
      · exact counted.trans (abortingError_paged v _ _)
  · exact .refl s

theorem poisonGran_paged (c e object gran : Nat) : Paged s (s.poisonGran c e object gran) := by
  unfold State.poisonGran
  dsimp only
  split
  · exact .refl s
  · refine Paged.trans ?_ (spareList_paged _ _ _ _ _)
    exact .of_eq rfl rfl rfl

theorem evacFrame_paged (e k : Nat) : Paged s (s.evacFrame e k) := by
  unfold State.evacFrame
  dsimp only
  split <;> exact .of_eq rfl rfl rfl

theorem evacuate_paged (e : Nat) : Paged s (s.evacuate e) := by
  unfold State.evacuate
  dsimp only
  split
  · exact evacFrame_paged s _ _
  · exact .refl s

theorem freshError_paged (c object : Nat) (reads : List FillRead) (g : Nat) : Paged s (s.freshError c object reads g) := by
  unfold State.freshError
  split
  · exact .refl s
  · dsimp only
    split
    · exact .refl s
    · split
      · exact (evacuate_paged s _).trans (poisonGran_paged _ _ _ _ _)
      · split <;> exact .of_eq rfl rfl rfl

theorem dropFrame_paged (tier frame : Nat) : Paged s (s.dropFrame tier frame) := by
  unfold State.dropFrame
  dsimp only
  split
  · exact evacFrame_paged s _ _
  · split
    · split <;> exact .of_eq rfl rfl rfl
    · exact (retireFrame_quits s _ _).1.trans (checkFit_quits _ _).1

theorem corrected_paged (tier frame : Nat) : Paged s (s.corrected tier frame) := by
  unfold State.corrected
  split
  · extract_lets +onlyGivenNames k l z v
    have counted : Paged s v := by
      refine Paged.trans ?_ (bump_paged _ _ _ _)
      exact .of_eq rfl rfl rfl
    split
    · exact counted.trans (dropFrame_paged v _ _)
    · exact counted
  · exact .refl s

theorem correctedReads_paged (c object : Nat) (reads : List FillRead) (grans : List Nat) :
    Paged s (s.correctedReads c object reads grans) := by
  unfold State.correctedReads
  split
  · exact .refl s
  · refine .foldl s (fun x g => ?_) _
    dsimp only
    split
    · exact .refl x
    · exact corrected_paged x _ _

theorem readBack_paged (c object : Nat) (reads : List FillRead) (spans : List (Nat × Nat)) (errs : List ReadError) :
    Paged s (s.readBack c object reads spans errs).1 :=
  (correctedReads_paged s c object reads _).trans (.foldl _ (fun x g => freshError_paged x c object reads g) _)

end

theorem readBack_mapBase (s : State) (c object : Nat) (reads : List FillRead) (spans : List (Nat × Nat)) (errs : List ReadError)
    (d n : Nat) : (s.readBack c object reads spans errs).1.mapBase d n = s.mapBase d n := by
  obtain ⟨-, binding, -⟩ := ((readBack_paged s c object reads spans errs).slots d).fields
  rw [State.mapBase, binding]
  rfl

/-! ### Reports of errors mark the step alone -/

/-- Of a slot only the mark of a bad step may have changed; the part, its policies and its Stations are the same. -/
structure Marks (s t : State) : Prop where
  slots    : ∀ c, ∃ b, t.slot c = { s.slot c with step := { (s.slot c).step with bad := b } }
  part     : t.part = s.part
  policies : t.policies = s.policies
  cycles   : t.cycles = s.cycles
  retired  : t.flash.retired = s.flash.retired

theorem Marks.trans (h : Marks s t) (k : Marks t u) : Marks s u := by
  refine ⟨fun c => ?_, k.part.trans h.part, k.policies.trans h.policies, k.cycles.trans h.cycles, k.retired.trans h.retired⟩
  obtain ⟨a, ha⟩ := h.slots c
  obtain ⟨b, hb⟩ := k.slots c
  exact ⟨b, by rw [hb, ha]⟩

theorem Marks.of_slots (hs : t.slots = s.slots) (hp : t.part = s.part) (hq : t.policies = s.policies) (hc : t.cycles = s.cycles)
    (hr : t.flash = s.flash) : Marks s t := ⟨fun c => ⟨(s.slot c).step.bad, by rw [State.slot, hs]; rfl⟩, hp, hq, hc, by rw [hr]⟩

theorem Marks.refl (s : State) : Marks s s := .of_slots rfl rfl rfl rfl rfl

theorem Marks.foldl {β : Type} {g : State → β → State} (h : ∀ x b, Marks x (g x b)) (l : List β) (s : State) : Marks s (l.foldl g s) :=
  foldl_keeps (Marks s) g (fun x b hx => hx.trans (h x b)) l s (.refl s)

theorem Marks.runSlot (h : Marks s t) : t.runSlot = s.runSlot := by
  refine congrArg (fun f => (List.range 8).find? f) (funext fun c => ?_)
  obtain ⟨b, e⟩ := h.slots c
  rw [e]

theorem Marks.workSlot (h : Marks s t) : t.workSlot = s.workSlot := by
  have idle : (fun c => (t.slot c).state == SlotState.stopped && (t.slot c).run.isSome) =
      fun c => (s.slot c).state == SlotState.stopped && (s.slot c).run.isSome := by
    funext c
    obtain ⟨b, e⟩ := h.slots c
    rw [e]
  rw [State.workSlot, State.workSlot, h.runSlot, idle]

theorem Marks.image (h : Marks s t) (c : Nat) : (t.slot c).image = (s.slot c).image := by
  obtain ⟨b, e⟩ := h.slots c
  rw [e]

theorem Marks.committed (h : Marks s t) (c : Nat) : (t.slot c).step.committed = (s.slot c).step.committed := by
  obtain ⟨b, e⟩ := h.slots c
  rw [e]

theorem Marks.srInputs (h : Marks s t) : t.srInputs = s.srInputs := by
  unfold State.srInputs
  rw [h.workSlot]
  split
  · rw [h.image, h.committed]
  · rfl

theorem Marks.isA1 (h : Marks s t) : t.isA1 = s.isA1 := by rw [State.isA1, State.isA1, h.part]

theorem Marks.turnLatency (h : Marks s t) : t.turnLatency = s.turnLatency := by
  unfold State.turnLatency State.slowUnits
  simp only [h.workSlot, h.image, h.isA1, h.policies]

theorem Marks.stationCycle (h : Marks s t) (k : Nat) : t.stationCycle k = s.stationCycle k := by
  simp only [State.stationCycle, State.phys, State.cycle, h.retired, h.cycles]

theorem report_marks (s : State) (r : EvtRec) : Marks s (s.report r) := by
  refine .of_slots (report_slots s r).1 ?_ ?_ ?_ ?_ <;> simp

theorem markStepBad_marks (s : State) (c : Nat) : Marks s (s.markStepBad c) := by
  unfold State.markStepBad
  extract_lets +onlyGivenNames x z v
  split
  · exact .refl s
  · have marked : Marks s v := by
      refine ⟨fun d => ?_, rfl, rfl, rfl, rfl⟩
      rw [slot_setSlot]
      split
      next e => exact ⟨true, by rw [e]⟩
      · exact ⟨(s.slot d).step.bad, rfl⟩
    refine marked.trans (.of_slots ?_ ?_ ?_ ?_ ?_) <;> simp

theorem runBad_marks (s : State) (b : Bool) : Marks s (s.runBad b) := by
  unfold State.runBad
  split
  · exact markStepBad_marks s _
  · exact .refl s

theorem foundErrors_marks (s : State) (c object : Nat) (reads : List FillRead) (r : EvtRec) (grans : List Nat) :
    Marks s (s.foundErrors c object reads r grans) := by
  unfold State.foundErrors
  split
  · exact .refl s
  · exact (runBad_marks s _).trans (.foldl (fun x g => report_marks x _) _ _)

/-! ### A record that fills its position -/

theorem waybillDone_works (s : State) (k : Nat) (id : DepId) (i : Nat) : Works s (s.waybillDone k id i) := by
  unfold State.waybillDone State.signal
  split
  · split
    · exact .refl s
    · extract_lets +onlyGivenNames st z v
      have freed : Works s v := by
        refine Works.trans ?_ (bump_works _ _ _ _)
        exact setStation_works s k rfl
      split
      · exact freed.trans (modStation_works v k fun _ => by rfl)
      · exact freed
  · exact .refl s

theorem settle_works (s : State) (k sid : Nat) (l : List Pos) : Works s (s.settle k sid l) := by
  induction l generalizing s with
  | nil => exact .refl s
  | cons x rest ih =>
    unfold State.settle
    split
    · exact ih s
    · split
      · extract_lets +onlyGivenNames st d d' v w
        have done : Works s v := setStation_works s k rfl
        have told : Works v w := by
          unfold w
          split
          · exact waybillDone_works v _ _ _
          · exact .refl v
        exact (done.trans told).trans (ih w)
      · exact .refl s

theorem ringWrite_ledger (st : Station) (d : Siding) (p : Pos) (data : List Byte) (poison : List Nat) :
    ledger (st.ringWrite d p data poison) = ledger st := by
  unfold Station.ringWrite
  dsimp only
  split <;> rfl

theorem fillPos_works (s : State) (k sid n : Nat) (data : List Byte) (poison ring : List Nat) :
    Works s (s.fillPos k sid n data poison ring) := by
  unfold State.fillPos
  extract_lets +onlyGivenNames st d
  split
  · exact .refl s
  · extract_lets +onlyGivenNames st₁ st₂ v w
    have written : Works s (s.setStation k st₂) := setStation_works s k (ringWrite_ledger _ _ _ _ _)
    have settled : Works s v := written.trans (settle_works _ _ _ _)
    have read : Works v w := by
      unfold w
      split
      · exact storeErrors_works v _ _ _ _ _
      · exact .refl v
    exact (settled.trans read).trans (feedSiding_works w k)

/-! ### The record goes to its Siding or to its lines -/

/-- The requests of Turntable k are `rest`, and its buffers are `outs`. -/
def withTurns (s : State) (k : Nat) (rest : List TurnReq) (outs : List (Nat × List TurnOut)) : State :=
  { s with turns := tset s.turns k rest, turnOut := outs }

/-- The cycle at which the first flit of a record is ready (R244). -/
def turnFirst (s : State) (q : TurnReq) (feed : Nat) : Nat := s.stationCycle q.station + 255 + feed + s.turnLatency

/-- The record that goes on from what was read. -/
def turned (s : State) (q : TurnReq) (inF outF : Fmt) (mode : Round) (r : ReadBack) : List Byte × List Nat :=
  transpose inF outF mode s.srInputs q.station r.bytes (r.bad.map (fun g => g - r.grans.headD 0))

theorem Marks.turnFirst (h : Marks s t) (q : TurnReq) (feed : Nat) : turnFirst t q feed = turnFirst s q feed := by
  simp only [Proofs.turnFirst, h.stationCycle, h.turnLatency]

theorem Marks.turned (h : Marks s t) (q : TurnReq) (inF outF : Fmt) (mode : Round) (r : ReadBack) :
    turned t q inF outF mode r = turned s q inF outF mode r := by
  simp only [Proofs.turned, h.srInputs]

/-- A record for a Siding is done with the last of its flits (R244). -/
theorem turnOutput_siding (s : State) (k : Nat) (q : TurnReq) (rest : List TurnReq) (inF outF : Fmt) (mode : Round)
    (feed claim : Nat) (r : ReadBack) (fell : Bool) (ring : List Nat) (h : (turnOps q.word).dest = 0) :
    ∃ outs v, Works (withTurns s k rest outs) v ∧ s.turnOutput k q rest inF outF mode feed claim r fell ring =
      v.finish q.station q.dep (turnFirst s q feed + (turned s q inF outF mode r).1.length / 256 - 1) := by
  unfold State.turnOutput
  extract_lets +onlyGivenNames o out first flits free z w slot x y a
  rw [if_pos (show o.dest = 0 from h)]
  extract_lets +onlyGivenNames b d
  refine ⟨z.turnOut, _, ?_, rfl⟩
  have counted : Works z w := (bump_works z _ _ _).trans (bump_works _ _ _ _)
  have stalled : Works w x := (stall_works w _ _ _ _).trans (stall_works _ _ _ _ _)
  have stepped : Works x y := stall_works x _ _ _ _
  have fallen : Works y a := bump_works y _ _ _
  have launched : Works a b := bump_works a _ _ _
  have started : Works b d := modStation_works b _ fun _ => by rfl
  exact (((((counted.trans stalled).trans stepped).trans fallen).trans launched).trans started).trans (fillPos_works d _ _ _ _ _ _)

theorem stall_atStations (s : State) (k : Nat) (id : DepId) (cause n : Nat) : AtStations s (s.stall k id cause n) := by
  unfold State.stall
  split
  · exact .refl s
  · exact modProg_atStations s _ _ _

/-- The lines that a `TURN` names (R243). -/
def turnLines (dest : Nat) : List Nat := match dest with | 1 => [0] | 2 => [1] | _ => [0, 1]

/-- A Consist joins those that wait to leave on the lines of a `TURN`. -/
def onLines (s : State) (p dest : Nat) (cs : Consist) : State :=
  (turnLines dest).foldl (fun s l => s.modHop p l (fun h => { h with own := h.own ++ [cs] })) s

/-- A record for the lines: the books of its departure alone change before its Consist joins them. -/
theorem turnOutput_lines (s : State) (k : Nat) (q : TurnReq) (rest : List TurnReq) (inF outF : Fmt) (mode : Round)
    (feed claim : Nat) (r : ReadBack) (fell : Bool) (ring : List Nat) (h : (turnOps q.word).dest ≠ 0) :
    let cs := turnConsist (turnOps q.word) q (turned s q inF outF mode r).1 (turned s q inF outF mode r).2 (turnFirst s q feed)
    ∃ outs v, AtStations (withTurns s k rest outs) v ∧ Keeps Station.store (withTurns s k rest outs) v ∧
      s.turnOutput k q rest inF outF mode feed claim r fell ring =
        onLines v (136 + k) (turnOps q.word).dest cs := by
  intro cs
  unfold State.turnOutput
  extract_lets +onlyGivenNames o out first flits free z w slot x y a
  rw [if_neg (show o.dest ≠ 0 from h)]
  refine ⟨z.turnOut, a, ?_, ?_, rfl⟩
  · have counted : AtStations z w := (bump_atStations z _ _ _).trans (bump_atStations _ _ _ _)
    have stalled : AtStations w x := (stall_atStations w _ _ _ _).trans (stall_atStations _ _ _ _ _)
    exact ((counted.trans stalled).trans (stall_atStations x _ _ _ _)).trans (bump_atStations y _ _ _)
  · have counted : Keeps Station.store z w := (bump_keeps z _ _ _).trans (bump_keeps _ _ _ _)
    have stalled : Keeps Station.store w x := (stall_keeps w (fun _ _ => rfl) _ _ _ _).trans (stall_keeps _ (fun _ _ => rfl) _ _ _ _)
    exact ((counted.trans stalled).trans (stall_keeps x (fun _ _ => rfl) _ _ _ _)).trans (bump_keeps y _ _ _)

theorem onLines_works (s : State) (p dest : Nat) (cs : Consist) : Works s (onLines s p dest cs) :=
  .foldl (fun x _ => modHop_works x _ _ _) _ s

theorem onLines_keeps {α : Type} {f : Station → α} (s : State) (p dest : Nat) (cs : Consist) : Keeps f s (onLines s p dest cs) :=
  foldl_keeps (Keeps f s) _ (fun x _ hx => hx.trans (modHop_keeps x _ _ _)) _ s (.refl s)

theorem hop_modHop (s : State) (p l m : Nat) (g : Hop → Hop) :
    (s.modHop p l g).hop p m = if m = l then g (s.hop p l) else s.hop p m := by
  rw [State.modHop, hop_setHop]
  simp

theorem onLines_own (s : State) (p dest l : Nat) (cs : Consist)
    (h : (dest = 1 ∧ l = 0) ∨ (dest = 2 ∧ l = 1) ∨ (3 ≤ dest ∧ l < 2)) :
    ((onLines s p dest cs).hop p l).own = (s.hop p l).own ++ [cs] := by
  obtain ⟨rfl, rfl⟩ | ⟨rfl, rfl⟩ | ⟨hd, hl⟩ := h
  · simp [onLines, turnLines, hop_modHop]
  · simp [onLines, turnLines, hop_modHop]
  · have both : turnLines dest = [0, 1] := by
      unfold turnLines
      split
      · omega
      · omega
      · rfl
    have line : l = 0 ∨ l = 1 := by omega
    rw [onLines, both]
    rcases line with rfl | rfl <;> simp [hop_modHop]

theorem turns_atStations (h : AtStations s t) : t.turns = s.turns := by
  rw [h.eq]

theorem hop_atStations (h : AtStations s t) (p l : Nat) : t.hop p l = s.hop p l := by
  rw [h.eq]
  rfl

/-! ### Its Sector is looked at -/

theorem noteSector_atStations (s b : State) (k : Nat) : AtStations s (s.noteSector b k) :=
  foldl_keeps (AtStations s) _ (fun x _ hx => hx.trans ((noteHeads_atStations x _ _).trans (noteFills_atStations _ _))) _ s (.refl s)

theorem noteSector_keeps {α : Type} {f : Station → α} (hl : ∀ st x, f { st with lines := x } = f st)
    (hs : ∀ st x, f { st with sidings := x } = f st) (s b : State) (k : Nat) : Keeps f s (s.noteSector b k) :=
  foldl_keeps (Keeps f s) _ (fun x _ hx => hx.trans ((noteHeads_keeps x hl _ _).trans (noteFills_keeps _ hs _))) _ s (.refl s)

/-! ### The request that is served -/

/-- Turntable t and its Stations at cycle `sc`, with the flits launched that are ready. -/
def turnAt (s : State) (t : Fin 8) (now sc : Nat) : State := (((s.advance now).turnTick t sc).pump (136 + t) 0).pump (136 + t) 1

/-- The Siding that a `TURN` fills looked at. -/
def fillSeen (w : State) (q : TurnReq) : State := if (turnOps q.word).dest = 0 then w.noteFills (turnOps q.word).dstStation else w

theorem fillSeen_atStations (w : State) (q : TurnReq) : AtStations w (fillSeen w q) := by
  unfold fillSeen
  split
  · exact noteFills_atStations w _
  · exact .refl w

section
variable {t : Fin 8} {feed : Nat} {errs : List ReadError} {ring : List Nat} {sc now : Nat} {q : TurnReq} {rest : List TurnReq} {c : Nat}
  {img : Image} {od : ObjDesc} {inF outF : Fmt} {mode : Round} {w v : State}

/-- With a buffer free and its position free to start, the oldest `TURN` is served. -/
theorem turnRecordServe_serves (hw : w = turnAt s t now sc) (hv : v = fillSeen w q) (hpower : s.power.compStopped = false)
    (hq : tget [] w.turns t = q :: rest) (hc : w.workSlot = some c) (himg : (w.slot c).image = some img)
    (hfree : (v.turnBuffers t).length < 2)
    (hstart : (turnOps q.word).dest = 0 → ∃ pr, (v.station q.station).prog q.dep = some pr ∧
      ((v.station (turnOps q.word).dstStation).siding (turnOps q.word).siding).mayStart pr.claim (recGran (turnOps q.word).ofmt) = true) :
    exec (.turnRecordServe t ⟨feed, errs, ring⟩ ⟨now, sc⟩) s = .next ((v.turnServe t c q rest img feed errs ring).noteSector v t) := by
  have image : (v.slot c).image = some img := by
    rw [← himg, hv, (fillSeen_atStations w q).eq]
    rfl
  show execTurnRecordServe t ⟨feed, errs, ring⟩ ⟨now, sc⟩ s = _
  unfold execTurnRecordServe State.clocked
  rw [if_neg (by simp [hpower])]
  beta_reduce
  extract_lets +onlyGivenNames a b
  have hb : b = w := hw.symm
  clear_value b a
  subst hb
  rw [hq, hc]
  dsimp only
  rw [show (if (turnOps q.word).dest = 0 then b.noteFills (turnOps q.word).dstStation else b) = v from hv.symm, image]
  rw [if_neg]
  by_cases hd : (turnOps q.word).dest = 0
  · obtain ⟨pr, hpr, may⟩ := hstart hd
    simp [hpr, may, Nat.not_le.2 hfree]
  · simp [hd, Nat.not_le.2 hfree]

/-- The read of the source record of a `TURN`. -/
def turnRead (v : State) (c : Nat) (q : TurnReq) (od : ObjDesc) (inF : Fmt) (errs : List ReadError) : State × ReadBack :=
  let b := (q.row * od.cols + q.col) * od.recordBytes
  v.readBack c (turnOps q.word).object (v.readsOf c (turnOps q.word).object b inF.recordBytes) [(b, inF.recordBytes)] errs

/-- A `TURN` whose record stops its context leaves the queue (R307, R309). -/
def turnStop (s : State) (k c object : Nat) (rest : List TurnReq) (reads : List FillRead) (r : ReadBack) (whr : EvtRec) : State :=
  let s := withTurns s k rest s.turnOut
  let g := (r.grans.find? r.bad.contains).getD 0
  match s.mapBase c object with
  | some base =>
    if (s.slot c).state = .stopped then s
    else s.abortingError c { whr with
      object := object, page := g / pageGran, loc := whereKey (s.served reads (base + g / pageGran)).frame (g % pageGran) true }
  | none => s

theorem turnStop_stops {k object : Nat} {reads : List FillRead} {r : ReadBack} {whr : EvtRec} {base : Nat}
    (h : s.mapBase c object = some base) :
    (turnStop s k c object rest reads r whr).turns = tset s.turns k rest ∧
      ((turnStop s k c object rest reads r whr).slot c).state = .stopped := by
  have mapped : (withTurns s k rest s.turnOut).mapBase c object = some base := h
  unfold turnStop
  extract_lets +onlyGivenNames v g
  rw [mapped]
  dsimp only
  split
  next e => exact ⟨rfl, e⟩
  · exact ⟨by simp [v, withTurns], stopContext_state _ c⟩

/-- A `TURN` that is served goes on with its record, or stops its context. -/
theorem turnServe_eq (v : State) (t feed : Nat) (errs : List ReadError) (ring : List Nat) (rest : List TurnReq)
    (hobj : img.obj (turnOps q.word).object = some od) (hin : Fmt.ofDesc (turnOps q.word).ifmt = some inF)
    (hout : Fmt.ofDesc (turnOps q.word).ofmt = some outF) (hmode : Round.ofCode (turnOps q.word).round = some mode) :
    let back := turnRead v c q od inF errs
    ∃ claim reads fell whr, v.turnServe t c q rest img feed errs ring =
      if od.aborting && back.2.bad != [] then turnStop back.1 t c (turnOps q.word).object rest reads back.2 whr
      else (back.1.foundErrors c (turnOps q.word).object reads whr back.2.found).turnOutput t q rest inF outF mode feed claim
        back.2 fell ring := by
  intro back
  unfold State.turnServe
  extract_lets +onlyGivenNames o claim
  rw [show img.obj o.object = some od from hobj, show Fmt.ofDesc o.ifmt = some inF from hin,
    show Fmt.ofDesc o.ofmt = some outF from hout, show Round.ofCode o.round = some mode from hmode]
  exact ⟨_, _, _, _, rfl⟩

/-- A record that stops no context is reported on and goes on (R307). -/
theorem turnServe_output (v : State) (t feed : Nat) (errs : List ReadError) (ring : List Nat) (rest : List TurnReq)
    (hobj : img.obj (turnOps q.word).object = some od) (hin : Fmt.ofDesc (turnOps q.word).ifmt = some inF)
    (hout : Fmt.ofDesc (turnOps q.word).ofmt = some outF) (hmode : Round.ofCode (turnOps q.word).round = some mode)
    (h : od.aborting = false ∨ (turnRead v c q od inF errs).2.bad = []) :
    let back := turnRead v c q od inF errs
    ∃ x claim fell, Marks back.1 x ∧ Apart back.1 x ∧
      v.turnServe t c q rest img feed errs ring = x.turnOutput t q rest inF outF mode feed claim back.2 fell ring := by
  intro back
  have goesOn : (od.aborting && back.2.bad != []) ≠ true := by
    rcases h with e | e
    · simp [e]
    · simp [back, e]
  obtain ⟨claim, reads, fell, whr, e⟩ := turnServe_eq v t feed errs ring rest hobj hin hout hmode (c := c)
  rw [if_neg goesOn] at e
  exact ⟨_, _, _, foundErrors_marks _ _ _ _ _ _, foundErrors_apart _ _ _ _ _ _, e⟩

theorem inProgress_of_names {x y : Station} {id : DepId} (h : names y = names x) (hx : InProgress x id) : InProgress y id := by
  obtain ⟨p, hp, rfl⟩ := hx
  have named : (p.id, p.word) ∈ names y := h ▸ List.mem_map_of_mem hp
  obtain ⟨r, hr, e⟩ := List.mem_map.1 named
  exact ⟨r, hr, congrArg Prod.fst e⟩

/-- A record for a Siding is in it, and its `TURN` is done with its last flit (R244). -/
theorem turnServe_siding {pr : Prog} (v b : State) (t feed : Nat) (errs : List ReadError) (ring : List Nat) (rest : List TurnReq)
    (hobj : img.obj (turnOps q.word).object = some od) (hin : Fmt.ofDesc (turnOps q.word).ifmt = some inF)
    (hout : Fmt.ofDesc (turnOps q.word).ofmt = some outF) (hmode : Round.ofCode (turnOps q.word).round = some mode)
    (h : od.aborting = false ∨ (turnRead v c q od inF errs).2.bad = []) (hd : (turnOps q.word).dest = 0)
    (hpr : (v.station q.station).prog q.dep = some pr) :
    let back := turnRead v c q od inF errs
    let u := (v.turnServe t c q rest img feed errs ring).noteSector b t
    u.turns = tset v.turns t rest ∧
      u.doneAt q.station q.dep (turnFirst back.1 q feed + (turned back.1 q inF outF mode back.2).1.length / 256 - 1) := by
  intro back u
  obtain ⟨x, claim, fell, marks, apart, e⟩ := turnServe_output v t feed errs ring rest hobj hin hout hmode h
  obtain ⟨outs, y, works, f⟩ := turnOutput_siding x t q rest inF outF mode feed claim back.2 fell ring hd
  have frame : Apart v x := (readBack_apart v _ _ _ _ _).trans apart
  rw [marks.turnFirst, marks.turned] at f
  have shown : u = (y.finish q.station q.dep _).noteSector b t := congrArg (fun z => State.noteSector z b t) (e.trans f)
  rw [shown]
  have running : InProgress (y.station q.station) q.dep := by
    have same : names (y.station q.station) = names (v.station q.station) :=
      (works.names.2 q.station).trans ((Works.of_apart frame).names.2 q.station)
    exact inProgress_of_names same (inProgress_of_prog hpr)
  constructor
  · rw [turns_atStations (noteSector_atStations _ b t)]
    obtain ⟨-, -, -, -, turns, -⟩ := frame
    exact works.turns.trans (congrArg (fun z => tset z t rest) turns)
  · exact doneAt_keeps (finish_doneAt _ running) (noteSector_keeps (fun _ _ => rfl) (fun _ _ => rfl) _ _ _)

/-- The Consist of a record for the lines waits on each line that its `TURN` names (R243). -/
theorem turnServe_lines {l : Nat} (v b : State) (t feed : Nat) (errs : List ReadError) (ring : List Nat) (rest : List TurnReq)
    (hobj : img.obj (turnOps q.word).object = some od) (hin : Fmt.ofDesc (turnOps q.word).ifmt = some inF)
    (hout : Fmt.ofDesc (turnOps q.word).ofmt = some outF) (hmode : Round.ofCode (turnOps q.word).round = some mode)
    (h : od.aborting = false ∨ (turnRead v c q od inF errs).2.bad = [])
    (hl : ((turnOps q.word).dest = 1 ∧ l = 0) ∨ ((turnOps q.word).dest = 2 ∧ l = 1) ∨ (3 ≤ (turnOps q.word).dest ∧ l < 2)) :
    let back := turnRead v c q od inF errs
    let out := turned back.1 q inF outF mode back.2
    let u := (v.turnServe t c q rest img feed errs ring).noteSector b t
    u.turns = tset v.turns t rest ∧ v.sameStores u ∧
      (u.hop (136 + t) l).own = (v.hop (136 + t) l).own ++ [turnConsist (turnOps q.word) q out.1 out.2 (turnFirst back.1 q feed)] := by
  intro back out u
  have hd : (turnOps q.word).dest ≠ 0 := by omega
  obtain ⟨x, claim, fell, marks, apart, e⟩ := turnServe_output v t feed errs ring rest hobj hin hout hmode h
  obtain ⟨outs, y, at_, stores, f⟩ := turnOutput_lines x t q rest inF outF mode feed claim back.2 fell ring hd
  rw [marks.turnFirst, marks.turned] at f
  have frame : Apart v x := (readBack_apart v _ _ _ _ _).trans apart
  have shown : u = State.noteSector _ b t := congrArg (fun z => State.noteSector z b t) (e.trans f)
  rw [shown]
  obtain ⟨stations, -, retired, hops, turns, -⟩ := frame
  have before : y.hop (136 + t) l = v.hop (136 + t) l := by
    rw [hop_atStations at_, State.hop, State.hop]
    exact congrArg₂ (fun r z => tget { Hop.init with credits := hopCredits r (136 + t) l } z (2 * (136 + t) + l)) retired hops
  refine ⟨?_, fun n => ?_, ?_⟩
  · rw [turns_atStations (noteSector_atStations _ b t), (onLines_works y _ _ _).turns, turns_atStations at_, ← turns]
    rfl
  · have kept (cs : Consist) := (stores.trans (onLines_keeps y (136 + t) (turnOps q.word).dest cs)).trans
      (noteSector_keeps (fun _ _ => rfl) (fun _ _ => rfl) _ b t)
    exact ((kept _).2 n).trans (congrArg (fun z => (tget Station.init z n).store) stations)
  · rw [hop_atStations (noteSector_atStations _ b t), onLines_own y _ _ _ _ hl, before]

end

/-- Settles O48: what the start of a service does is `turnServe`; its record goes to a Siding (`turnServe_siding`), to the lines
(`turnServe_lines`), or stops its context (`turnStop_stops`), and the look at the Sector that follows leaves the queues, the slots and the
departures alone. -/
theorem turntableServes : Obligations.TurntableServes := by
  unfold Obligations.TurntableServes
  intro t feed errs ring sc now s q rest c img od inF outF mode o w v b back out first hpower hq hc himg hfree hobj hin hout hmode
  have hw : w = turnAt s t now sc := rfl
  have hv : v = fillSeen w q := rfl
  clear_value w v
  have served (hs : o.dest = 0 → ∃ pr, (v.station q.station).prog q.dep = some pr ∧
      ((v.station o.dstStation).siding o.siding).mayStart pr.claim (recGran o.ofmt) = true) :
      exec (.turnRecordServe t ⟨feed, errs, ring⟩ ⟨now, sc⟩) s = .next ((v.turnServe t c q rest img feed errs ring).noteSector v t) :=
    turnRecordServe_serves hw hv hpower hq hc himg hfree hs
  have taken : tget [] (tset v.turns t rest) t = rest := by simp
  refine ⟨fun pr hgood hd hpr may => ?_, fun l hgood hd hl => ?_, fun base habort hbad hbase hs => ?_⟩
  · obtain ⟨turns, done⟩ := turnServe_siding v v t feed errs ring rest hobj hin hout hmode hgood hd hpr
    exact ⟨_, served fun _ => ⟨pr, hpr, may⟩, turns ▸ taken, done⟩
  · have same : v = w := hv.trans (if_neg hd)
    have joins : (v.hop (136 + t) l).own = (w.hop (136 + t) l).own := by rw [same]
    obtain ⟨turns, stores, own⟩ := turnServe_lines v v t feed errs ring rest hobj hin hout hmode hgood hl
    exact ⟨_, served fun e => absurd e hd, turns ▸ taken, same ▸ stores, own.trans (congrArg (fun z => z ++ _) joins)⟩
  · obtain ⟨claim, reads, fell, whr, e⟩ := turnServe_eq v t feed errs ring rest hobj hin hout hmode (c := c)
    have stops : (od.aborting && back.2.bad != []) = true := by simp [habort, hbad]
    replace e := e.trans (if_pos stops)
    obtain ⟨turns, stopped⟩ := turnStop_stops ((readBack_mapBase v _ _ _ _ _ _ _).trans hbase) (k := t) (rest := rest)
      (reads := reads) (whr := whr) (r := back.2)
    refine ⟨_, served fun hd => ?_, ?_, ?_⟩
    · exact hs.resolve_left (fun h => h hd)
    · rw [turns_atStations (noteSector_atStations _ v t), e]
      exact (congrArg (fun z => tget [] z t) turns).trans (tget_tset_self [] _ _ rest)
    · rw [atStations_slot (noteSector_atStations _ v t), e]
      exact stopped

end Sys2Proof.Proofs
end

section
/-! Faults of the Timetable: with the event ring disabled the record of a fault that stops a context is the newest in its buffer (R451),
and what follows posts nothing more. -/

namespace Sys2Proof.Proofs

open Sys2Proof Sys2Proof.Machine Sys2Proof.Laws

/-- With the event ring disabled, the buffer of faults stays as it is. -/
def Muted (s t : State) : Prop := s.evt.enable = false → t.evt.enable = false ∧ t.evt.buffer = s.evt.buffer

variable {s t u : State}

theorem Muted.of_evt (h : t.evt = s.evt) : Muted s t := fun e => ⟨h ▸ e, by rw [h]⟩

theorem Muted.refl (s : State) : Muted s s := .of_evt rfl

theorem Muted.trans (h : Muted s t) (k : Muted t u) : Muted s u := fun e =>
  have ⟨e₁, b₁⟩ := h e
  have ⟨e₂, b₂⟩ := k e₁
  ⟨e₂, b₂.trans b₁⟩

theorem Muted.foldl {β : Type} {g : State → β → State} (h : ∀ x b, Muted x (g x b)) (l : List β) (s : State) : Muted s (l.foldl g s) :=
  foldl_keeps (Muted s) g (fun x b hx => hx.trans (h x b)) l s (.refl s)

variable (s)

/-! ### Notices -/

theorem post_muted {r : EvtRec} (h : r.family = 0) : Muted s (s.post r).1 := by
  intro e
  unfold State.post EventRing.space
  simp [h, e]

theorem count_muted (c : Ctr) (i n : Nat) : Muted s (s.count c i n) := .of_evt rfl

theorem emit_muted {r : EvtRec} (h : r.family = 0) : Muted s (s.emit r) := by
  have posted : Muted s (s.post { r with lt := s.time.lt }).1 := post_muted s h
  unfold State.emit
  dsimp only
  split
  · split
    · exact (posted.trans (count_muted _ _ _ _)).trans (post_muted _ rfl)
    · exact posted.trans (count_muted _ _ _ _)
  · exact posted

theorem bump_muted (c : Ctr) (i n : Nat) : Muted s (s.bump c i n) := by
  unfold State.bump
  split
  · exact .refl s
  · split
    · exact (count_muted s c i n).trans (emit_muted _ rfl)
    · exact count_muted s c i n

theorem reply_muted (q : Nat) (cmd : FetchedCmd) (status r0 r1 : Nat) : Muted s (s.reply q cmd status r0 r1) := by
  unfold State.reply
  extract_lets +onlyGivenNames b w b' v z x y a
  have counted : Muted s v := (bump_muted s _ _ _).trans (bump_muted _ _ _ _)
  split
  · exact counted.trans (.of_evt rfl)
  · refine counted.trans (.of_evt ?_)
    clear_value v
    split <;> rfl

theorem endCommands_muted (pick : Nat → FetchedCmd → Bool) (status : Nat) : Muted s (s.endCommands pick status) :=
  .foldl (fun x q => .foldl (fun y c => reply_muted y q c status 0 0) _ x) _ s

theorem recovered_muted (c : Nat) : Muted s (s.recovered c) := by
  unfold State.recovered
  extract_lets +onlyGivenNames v
  have moved : Muted s v := by
    refine .foldl (fun x q => ?_) _ s
    split
    · exact .of_evt rfl
    · exact .refl x
  clear_value v
  split
  · split
    · exact moved.trans (.of_evt rfl)
    · exact moved
  · exact moved

theorem stopContext_muted (c : Nat) : Muted s (s.stopContext c) := by
  unfold State.stopContext
  extract_lets +onlyGivenNames ended v w
  have stopped : Muted s w := by
    have before : Muted s { v with replay := false } := .of_evt rfl
    exact before.trans (endCommands_muted { v with replay := false } _ _)
  split
  · exact stopped.trans (recovered_muted w c)
  · exact stopped

/-! ### Faults -/

theorem emit_buffer {r : EvtRec} (hr : r.family ≠ 0) (he : s.evt.enable = false) (hb : s.evt.buffer.length < 64) :
    s.emit r = { s with evt := { s.evt with seq := (s.evt.seq + 1) % 65536,
                                            buffer := s.evt.buffer ++ [{ r with lt := s.time.lt, seq := s.evt.seq }] } } := by
  unfold State.emit State.post EventRing.space
  simp [hr, he, hb]

/-- A fault waits in the buffer of a disabled ring (R451). -/
theorem report_buffer {r : EvtRec} (hr : r.family ≠ 0) (he : s.evt.enable = false) (hb : s.evt.buffer.length < 64) :
    (s.report r).evt.enable = false ∧ ∃ x, (s.report r).evt.buffer = s.evt.buffer ++ [x] ∧ x.family = r.family ∧ x.code = r.code ∧
      x.context = r.context := by
  unfold State.report
  extract_lets +onlyGivenNames q w
  have posted : w = _ := emit_buffer s (r := q) hr he hb
  have kept (y : State) (hy : y.evt = w.evt) : y.evt.enable = false ∧ ∃ x, y.evt.buffer = s.evt.buffer ++ [x] ∧ x.family = r.family ∧
      x.code = r.code ∧ x.context = r.context := by
    rw [hy, posted]
    exact ⟨he, _, rfl, rfl, rfl, rfl⟩
  clear_value w
  split
  · split
    · exact kept _ rfl
    · exact kept _ rfl
  · exact kept _ rfl

/-- A fault reported, with its context stopped (R181). -/
theorem stoppedBy_report {r : EvtRec} (c : Nat) (hr : r.family ≠ 0) (hc : r.context = c) :
    s.stoppedBy ((s.report r).stopContext c) c r.family r.code := by
  refine ⟨stopContext_state _ c, by simp, fun he hb => ?_⟩
  obtain ⟨off, x, newest, family, code, context⟩ := report_buffer s hr he hb
  exact ⟨x, ((stopContext_muted _ c off).2).trans newest, family, code, context.trans hc⟩

theorem stoppedBy_contractFault (c subtype : Nat) (r : EvtRec) : s.stoppedBy (s.contractFault c subtype r) c 1 subtype :=
  stoppedBy_report s c (Nat.one_ne_zero) rfl

variable {s} {c family code : Nat}

/-- What the module has noted before the fault makes no difference to it. -/
theorem stoppedBy_after (h : Muted s t) (hs : t.stations = s.stations) (k : t.stoppedBy u c family code) : s.stoppedBy u c family code := by
  obtain ⟨stopped, stations, newest⟩ := k
  refine ⟨stopped, stations.trans hs, fun he hb => ?_⟩
  obtain ⟨off, buffer⟩ := h he
  obtain ⟨x, hx, what⟩ := newest off (buffer ▸ hb)
  exact ⟨x, buffer ▸ hx, what⟩

/-- A mark in the slot of the context that has been stopped. -/
theorem stoppedBy_modSlot {g : Slot → Slot} (hg : ∀ x, (g x).state = x.state) (h : s.stoppedBy t c family code) :
    s.stoppedBy (t.modSlot c g) c family code := by
  obtain ⟨stopped, stations, newest⟩ := h
  exact ⟨by rw [slot_modSlot_self, hg, stopped], stations, newest⟩

theorem stoppedBy_waitFault (s : State) (c k j sect index wait : Nat) :
    s.stoppedBy (s.waitFault c k j sect index wait) c 1 2 ∧ ((s.waitFault c k j sect index wait).slot c).timedOut = some wait := by
  refine ⟨stoppedBy_modSlot (fun _ => rfl) (stoppedBy_contractFault s c 2 _), ?_⟩
  rw [State.waitFault, slot_modSlot_self]

theorem stoppedBy_overflowed (s : State) (c k sid line : Nat) (q : Nat × Nat) :
    s.stoppedBy (s.overflowed c k sid line q) c 1 5 ∧ ((s.overflowed c k sid line q).slot c).overSiding = some sid := by
  refine ⟨stoppedBy_modSlot (fun _ => rfl) (stoppedBy_contractFault s c 5 _), ?_⟩
  rw [State.overflowed, slot_modSlot_self]

/-! ### Waits that last too long -/

theorem slot_advance (s : State) (n c : Nat) : (s.advance n).slot c = s.slot c := by simp only [State.slot, advance_fields]

theorem runSlot_advance (s : State) (n : Nat) : (s.advance n).runSlot = s.runSlot := by simp only [State.runSlot, slot_advance]

theorem phys_advance (s : State) (n k : Nat) : (s.advance n).phys k = s.phys k := by simp only [State.phys, advance_fields]

section
variable {k : Fin 128} {j : Fin 4} {now p : Nat} {img : Image} {w : Nat} {h : Head} {pr : Prog}

/-- A wait of a line's head that has lasted `WAIT_TIMEOUT` (R180). -/
theorem waitTimeout_stops (hc : s.runSlot = some c) (hp : s.phys k = some p) (himg : (s.slot c).image = some img)
    (hh : (s.advance now).headOf k j = .head h) (hw : (s.advance now).waitExpired k j h (1000 * img.waitTimeout) = some w) :
    ∃ u, exec (.waitTimeout k j now) s = .next u ∧ (s.advance now).stoppedBy u c 1 2 ∧ (u.slot c).timedOut = some w := by
  refine ⟨_, ?_, stoppedBy_waitFault (s.advance now) c k j h.sect h.index w⟩
  show execWaitTimeout k j now s = _
  unfold execWaitTimeout
  simp only [runSlot_advance, phys_advance, hc, hp, slot_advance, himg, hh, hw, Option.map_some]

/-- A take at whose line's input another tag has stood that long (R97, R180). -/
theorem tagTimeout_stops (hc : s.runSlot = some c) (hp : s.phys k = some p) (himg : (s.slot c).image = some img)
    (hw : ∀ h, (s.advance now).headOf k j = .head h → (s.advance now).waitExpired k j h (1000 * img.waitTimeout) = none)
    (ht : (s.advance now).tagExpired k p j (1000 * img.waitTimeout) = some pr) :
    ∃ u, exec (.waitTimeout k j now) s = .next u ∧ (s.advance now).stoppedBy u c 1 2 ∧ (u.slot c).timedOut = some 5 := by
  refine ⟨_, ?_, stoppedBy_waitFault (s.advance now) c k j pr.sect pr.id.index 5⟩
  show execWaitTimeout k j now s = _
  unfold execWaitTimeout
  simp only [runSlot_advance, phys_advance, hc, hp, slot_advance, himg]
  split
  next h w e =>
    split at e
    next h' hh => simp [hw h' hh] at e
    · cases e
  · rw [ht]

theorem headOf_image {k j : Nat} (hh : s.headOf k j = .head h) : (s.slot h.c).image = some h.img := by
  unfold State.headOf at hh
  split at hh
  · cases hh
  · dsimp only at hh
    split at hh
    next _ himg _ _ =>
      split at hh
      · cases hh
      · split at hh
        · cases hh
        · cases hh
          exact himg
    · cases hh

/-- The watchdog of a line (R405). -/
theorem watchdogExpiry_stops (hh : (s.advance now).headOf k j = .head h)
    (hmet : waitsMet ((s.advance now).station k) (Dep.waits h.word) = true)
    (hseq : gseqWaits ((s.advance now).station k) h.word = false)
    (hlock : ∀ w ∈ ((s.advance now).station k).waits, w.dep.line ≠ j.val)
    (hspan : ((s.advance now).watchSpan k j h).1 ≤ ((s.advance now).watchSpan k j h).2)
    (hlong : 1000 * h.img.waitTimeout ≤ ((s.advance now).watchSpan k j h).2 - ((s.advance now).watchSpan k j h).1 -
      suspended (s.advance now).coll.suspends ((s.advance now).watchSpan k j h).1 ((s.advance now).watchSpan k j h).2) :
    ∃ u, exec (.watchdogExpiry k j now) s = .next u ∧ (s.advance now).stoppedBy u h.c 2 5 := by
  have counted : Muted (s.advance now) ((s.advance now).bump .depWatchdog 0 1) := bump_muted _ _ _ _
  have fault := stoppedBy_report ((s.advance now).bump .depWatchdog 0 1) h.c
    (r := { whereDep ((s.advance now).bump .depWatchdog 0 1) k j h.sect h.index with
      family := 2, code := 5, scope := scopeContext, context := h.c }) (Nat.succ_ne_zero 1) rfl
  refine ⟨_, ?_, stoppedBy_after counted (by simp) fault⟩
  have unlocked : (((s.advance now).station k).waits.any fun w => w.dep.line == j.val) = false := by simpa using hlock
  show execWatchdogExpiry k j now s = _
  unfold execWatchdogExpiry
  simp only [hh]
  rw [if_pos (by simp only [hmet, hseq, unlocked, hspan, hlong, decide_true, Bool.not_false, Bool.and_self])]

section
variable {sid : Fin 16} (hc : s.runSlot = some c) (himg : (s.slot c).image = some img)
include hc himg

theorem run_noteFills : ((s.advance now).noteFills k).runSlot = some c ∧ (((s.advance now).noteFills k).slot c).image = some img := by
  have same := atStations_slot (noteFills_atStations (s.advance now) k)
  constructor
  · rw [← hc, ← runSlot_advance s now]
    simp only [State.runSlot, same]
  · rw [same, slot_advance, himg]

/-- A fill that waits for a take that was issued at a position that nothing has reserved (R303). -/
theorem sidingOverflow_take (hpr : (((s.advance now).noteFills k).station k).hungTake sid = some pr)
    (hlong : pr.reachLt + 1000 * img.waitTimeout ≤ ((s.advance now).noteFills k).time.lt) :
    ∃ u, exec (.sidingOverflow k sid now) s = .next u ∧ ((s.advance now).noteFills k).stoppedBy u c 1 5 ∧
      (u.slot c).overSiding = some sid.val := by
  obtain ⟨run, image⟩ := run_noteFills (now := now) (k := k) hc himg
  refine ⟨_, ?_, stoppedBy_overflowed ((s.advance now).noteFills k) c k sid
    ((((s.advance now).noteFills k).station k).siding sid).line (pr.sect, pr.id.index)⟩
  show execSidingOverflow k sid now s = _
  unfold execSidingOverflow
  simp only [run, image, hpr, hlong, if_true]

/-- A fill that has waited that long for a slot or for room in its ring (R303). -/
theorem sidingOverflow_fill {w : FillWait} {x : Pos} {a : Nat} {q : Nat × Nat}
    (hpr : (((s.advance now).noteFills k).station k).hungTake sid = none)
    (hw : ((((s.advance now).noteFills k).station k).siding sid).wait = some w)
    (hx : ((((s.advance now).noteFills k).station k).siding sid).oldest = some x) (hn : w.num = x.num) (ha : w.hungLt = some a)
    (hlong : a + 1000 * img.waitTimeout ≤ ((s.advance now).noteFills k).time.lt)
    (hq : ((s.advance now).noteFills k).fillDep k sid x = some q) :
    ∃ u, exec (.sidingOverflow k sid now) s = .next u ∧ ((s.advance now).noteFills k).stoppedBy u c 1 5 ∧
      (u.slot c).overSiding = some sid.val := by
  obtain ⟨run, image⟩ := run_noteFills (now := now) (k := k) hc himg
  refine ⟨_, ?_, stoppedBy_overflowed ((s.advance now).noteFills k) c k sid
    ((((s.advance now).noteFills k).station k).siding sid).line q⟩
  show execSidingOverflow k sid now s = _
  unfold execSidingOverflow
  simp only [run, image, hpr, hw, hx, ha, hq, hn, hlong, and_self, if_true]

end

end

end Sys2Proof.Proofs
end

section
/-! Completion and lateness, and Tokens that land (O41). -/

namespace Sys2Proof.Proofs

open Sys2Proof Sys2Proof.Machine Sys2Proof.Laws

variable {s t u : State}

/-! ### The lateness log -/

theorem lateInsert_length (l : List Nat) (e : Nat) : (lateInsert l e).length = l.length + 1 := by
  induction l with
  | nil => rfl
  | cons x l ih =>
    unfold lateInsert
    dsimp only
    split
    · rfl
    · rw [List.length_cons, ih, List.length_cons]

/-- An entry is in the log, or is counted as lost (R170). -/
theorem logLate_log (s : State) (c e : Nat) :
    ((((s.logLate c e).slot c).log.entries.length = (s.slot c).log.entries.length + 1 ∧
        ((s.logLate c e).slot c).log.lost = (s.slot c).log.lost) ∨
      (((s.logLate c e).slot c).log.entries = (s.slot c).log.entries ∧
        ((s.logLate c e).slot c).log.lost = (s.slot c).log.lost + 1)) ∧
    (s.logLate c e).stations = s.stations := by
  unfold State.logLate
  extract_lets +onlyGivenNames x cap l i fills z v w
  split
  · have inPages : OffPages v w := itemCells_offPages v _ _ _ _ _
    have slot : w.slot c = { x with log := { x.log with entries := l, full := fills } } :=
      (inPages.slot c).trans (slot_setSlot_self s c _)
    have enters (y : State) (hy : y.slots = w.slots) (hs : y.stations = w.stations) :
        (((y.slot c).log.entries.length = x.log.entries.length + 1 ∧ (y.slot c).log.lost = x.log.lost) ∨
          ((y.slot c).log.entries = x.log.entries ∧ (y.slot c).log.lost = x.log.lost + 1)) ∧ y.stations = s.stations := by
      have same : y.slot c = w.slot c := by rw [State.slot, hy]; rfl
      refine ⟨.inl ?_, hs.trans inPages.2⟩
      rw [same, slot]
      exact ⟨lateInsert_length _ _, rfl⟩
    split
    · refine enters _ ?_ ?_ <;> simp
    · exact enters _ rfl rfl
  · refine ⟨.inr ?_, by simp⟩
    rw [(bump_offPages _ _ _ _).slot, slot_setSlot_self]
    exact ⟨rfl, rfl⟩

/-! ### A departure that has reached its completion -/

section
variable {k p : Nat} {pr : Prog} (v : State)

/-- Its signals fired, where they have not. -/
def firedBy (k : Nat) (pr : Prog) : State := if pr.fired then v else v.fireSignals k pr

/-- Its Station without it. -/
def leave (pr : Prog) (st : Station) : Station :=
  { (st.sendDone pr) with progs := st.progs.filter (fun x => x.id != pr.id), runs := st.runs.filter (fun x => x.dep != pr.id) }

/-- The state that it leaves: it is no longer in progress, and the heads and the Sidings of its Station are looked at. -/
def leftBy (k : Nat) (pr : Prog) : State :=
  (((firedBy v k pr).modStation k (leave pr)).noteHeads (v.station k) k).noteFills k

theorem firedBy_atStations : AtStations v (firedBy v k pr) := by
  unfold firedBy
  split
  · exact .refl v
  · exact fireSignals_atStations v _ _

theorem firedBy_keeps {α : Type} {f : Station → α} (ht : ∀ st x, f { st with transit := x } = f st) : Keeps f v (firedBy v k pr) := by
  unfold firedBy
  split
  · exact .refl v
  · exact fireSignals_keeps v _ _ ht

theorem leftBy_atStations : AtStations v (leftBy v k pr) :=
  (((firedBy_atStations v).trans (modStation_atStations _ _ _)).trans (noteHeads_atStations _ _ _)).trans (noteFills_atStations _ _)

theorem leave_fields (st : Station) :
    (leave pr st).store = st.store ∧ (leave pr st).transit = st.transit ∧ (leave pr st).progs = st.progs.filter (fun x => x.id != pr.id) := by
  unfold leave Station.sendDone
  dsimp only
  split <;> exact ⟨rfl, rfl, rfl⟩

theorem leftBy_looked {α : Type} {f : Station → α} (hl : ∀ st x, f { st with lines := x } = f st)
    (hs : ∀ st x, f { st with sidings := x } = f st) : Keeps f ((firedBy v k pr).modStation k (leave pr)) (leftBy v k pr) :=
  (noteHeads_keeps _ hl _ _).trans (noteFills_keeps _ hs _)

theorem leftBy_store : Keeps Station.store v (leftBy v k pr) :=
  ((firedBy_keeps v fun _ _ => rfl).trans (.modStation _ fun st => (leave_fields st).1)).trans
    (leftBy_looked v (fun _ _ => rfl) (fun _ _ => rfl))

theorem leftBy_progs : ((leftBy v k pr).station k).progs = (v.station k).progs.filter (fun x => x.id != pr.id) := by
  obtain ⟨-, -, left⟩ := leave_fields (pr := pr) ((firedBy v k pr).station k)
  rw [(leftBy_looked (f := Station.progs) v (fun _ _ => rfl) (fun _ _ => rfl)).2, station_modStation_self, left,
    (firedBy_keeps (f := Station.progs) v fun _ _ => rfl).2]

/-- Its signals are on their way (R157). -/
theorem leftBy_signals (h : pr.fired = false) {g : Sig} (hg : g ∈ Dep.sigs pr.word) :
    signalOf k pr g ∈ ((leftBy v k pr).station g.station).transit := by
  have fired : firedBy v k pr = v.fireSignals k pr := if_neg (by simp [h])
  have kept : Keeps Station.transit (firedBy v k pr) (leftBy v k pr) :=
    (Keeps.modStation _ fun st => (leave_fields st).2.1).trans (leftBy_looked v (fun _ _ => rfl) (fun _ _ => rfl))
  rw [kept.2, fired]
  exact fireSignals_transit v k pr hg

/-- What it is late by beyond its allowance (R166), with the delay of its issue and its stalls. -/
def lateness (v : State) (p : Nat) (pr : Prog) : Nat :=
  (chargeSum pr.waits + chargeSum (pr.stallParts (v.copy p - pr.issueAt) (v.cycle p - pr.issueSc)) - 16 * Dep.allowance pr.word) / 16

/-- A lateness of 1 lt or more is counted, and logged for the context whose work it is (R166 to R170). -/
def lateLogged (w : State) (k p : Nat) (pr : Prog) : State :=
  if lateness w p pr = 0 then w
  else
    let parts := pr.stallParts (w.copy p - pr.issueAt) (w.cycle p - pr.issueSc)
    let s := (w.bump .ttLate p 1).bump .ttLateLt p (lateness w p pr)
    match s.workSlot with
    | none => s
    | some c => s.logLate c (lateEntry s.time.lt k pr (chargeSum pr.waits) (chargeSum parts) (mainCause (pr.waits ++ parts)))

theorem workSlot_of_slots (h : t.slots = s.slots) : t.workSlot = s.workSlot := by
  simp only [State.workSlot, State.runSlot, State.slot, h]

theorem lateLogged_spec (w : State) :
    (lateLogged w k p pr).stations = w.stations ∧
    (lateness w p pr = 0 → (lateLogged w k p pr).slots = w.slots) ∧
    ∀ c, w.workSlot = some c → lateness w p pr ≠ 0 →
      (((lateLogged w k p pr).slot c).log.entries.length = (w.slot c).log.entries.length + 1 ∧
        ((lateLogged w k p pr).slot c).log.lost = (w.slot c).log.lost) ∨
      (((lateLogged w k p pr).slot c).log.entries = (w.slot c).log.entries ∧
        ((lateLogged w k p pr).slot c).log.lost = (w.slot c).log.lost + 1) := by
  unfold lateLogged
  split
  next none => exact ⟨rfl, fun _ => rfl, fun _ _ h => absurd none h⟩
  next late =>
    extract_lets +onlyGivenNames parts y
    have counted : OffPages w y := (bump_offPages w _ _ _).trans (bump_offPages _ _ _ _)
    refine ⟨?_, fun h => absurd h late, fun c hc _ => ?_⟩
    · split
      · exact counted.2
      · exact (logLate_log y _ _).2.trans counted.2
    · rw [(workSlot_of_slots counted.1).trans hc, ← counted.slot c]
      exact (logLate_log y c _).1

end

section
variable {k : Fin 128} {j : Fin 4} {sect index lt sc p : Nat} {pr : Prog}

theorem departureComplete_eq (hpower : s.power.compStopped = false) (hp : s.phys k = some p)
    (hpr : (s.station k).progs.find? (fun x => x.id.line == j.val && x.sect == sect && x.id.index == index && x.doneSc.isSome) = some pr)
    (hdone : pr.doneSc.getD 0 ≤ max (s.cycle p) sc) :
    exec (.departureComplete k j sect index lt sc) s = .next (lateLogged (leftBy ((s.advance lt).advanceSc p sc) k pr) k p pr) := by
  have found : (((s.advance lt).advanceSc p sc).station k).progs.find?
      (fun x => x.id.line == j.val && x.sect == sect && x.id.index == index && x.doneSc.isSome) = some pr := by
    rw [← hpr]
    simp only [State.station, advanceSc_fields, advance_fields]
  have come : ¬((s.advance lt).advanceSc p sc).cycle p < pr.doneSc.getD 0 := by
    have cycle : (s.advance lt).cycle p = s.cycle p := by simp only [State.cycle, advance_fields]
    rw [cycle_advanceSc, if_pos rfl, cycle]
    omega
  show execDepartureComplete k j sect index lt sc s = _
  unfold execDepartureComplete State.clocked
  rw [if_neg (by simp [hpower])]
  beta_reduce
  extract_lets +onlyGivenNames a
  rw [show a.phys k = some p from (phys_advance s lt k).trans hp]
  dsimp -zeta only
  extract_lets +onlyGivenNames v
  rw [show (v.station k).progs.find? _ = some pr from found]
  dsimp -zeta only
  rw [if_neg (show ¬v.cycle p < pr.doneSc.getD 0 from come)]
  extract_lets +onlyGivenNames b x y w n parts st late z
  have left : w = leftBy v k pr := rfl
  have much : late = lateness w p pr := rfl
  unfold lateLogged
  rw [← left]
  clear_value w
  by_cases hl : lateness w p pr = 0
  · rw [if_pos (much.trans hl), if_pos hl]
  · rw [if_neg (fun e => hl (much ▸ e)), if_neg hl]
    change _ = Host.Outcome.next (match z.workSlot with
      | none => z
      | some c => z.logLate c (lateEntry z.time.lt k pr n st (mainCause (pr.waits ++ parts))))
    cases z.workSlot <;> rfl

end

end Sys2Proof.Proofs
end

section
/-! Tokens that land, and the events of the Timetable together (O41). -/

namespace Sys2Proof.Proofs

open Sys2Proof Sys2Proof.Machine Sys2Proof.Laws

variable {s t u : State}

/-! ### A departure completes -/

theorem lateness_leftBy (v : State) (k p : Nat) (pr : Prog) : lateness (leftBy v k pr) p pr = lateness v p pr := by
  have cycle : (leftBy v k pr).cycle p = v.cycle p := (leftBy_store v).cycle p
  have copy : (leftBy v k pr).copy p = v.copy p := by
    have time : (leftBy v k pr).time = v.time := by rw [(leftBy_atStations v).eq]
    rw [State.copy, State.copy, cycle, time]
  rw [lateness, lateness, cycle, copy]

/-- What a departure leaves that has reached its completion (R157, R166 to R170). -/
theorem departureComplete_leaves {k : Fin 128} {j : Fin 4} {sect index lt sc p : Nat} {pr : Prog} (hpower : s.power.compStopped = false)
    (hp : s.phys k = some p)
    (hpr : (s.station k).progs.find? (fun x => x.id.line == j.val && x.sect == sect && x.id.index == index && x.doneSc.isSome) = some pr)
    (hdone : pr.doneSc.getD 0 ≤ max (s.cycle p) sc) :
    let late := lateness ((s.advance lt).advanceSc p sc) p pr
    ∃ u, exec (.departureComplete k j sect index lt sc) s = .next u ∧ s.sameStores u ∧
      (∀ x ∈ (u.station k).progs, x.id ≠ pr.id) ∧
      (∀ x ∈ (s.station k).progs, x.id ≠ pr.id → x ∈ (u.station k).progs) ∧
      (pr.fired = false → ∀ g ∈ Dep.sigs pr.word, ∃ x ∈ (u.station g.station).transit,
        x.token = g.tok ∧ x.count = g.count ∧ x.bySt = k.val ∧ x.byIx = pr.id.index) ∧
      (late = 0 → u.slots = s.slots) ∧
      (∀ c, s.workSlot = some c → late ≠ 0 →
        ((u.slot c).log.entries.length = (s.slot c).log.entries.length + 1 ∧ (u.slot c).log.lost = (s.slot c).log.lost) ∨
        ((u.slot c).log.entries = (s.slot c).log.entries ∧ (u.slot c).log.lost = (s.slot c).log.lost + 1)) := by
  intro late
  refine ⟨_, departureComplete_eq hpower hp hpr hdone, ?_⟩
  have slots : ((s.advance lt).advanceSc p sc).slots = s.slots := by simp only [advanceSc_fields, advance_fields]
  have stations : ((s.advance lt).advanceSc p sc).stations = s.stations := by simp only [advanceSc_fields, advance_fields]
  unfold late
  generalize (s.advance lt).advanceSc p sc = v at slots stations ⊢
  rw [← lateness_leftBy v k]
  have left : (leftBy v k pr).slots = s.slots := by rw [(leftBy_atStations v).eq, ← slots]
  have here (n : Nat) : (s.station n) = v.station n := congrArg (tget Station.init · n) stations.symm
  obtain ⟨logged, unlate, late⟩ := lateLogged_spec (leftBy v k pr) (k := k) (p := p) (pr := pr)
  have after (n : Nat) : (lateLogged (leftBy v k pr) k p pr).station n = (leftBy v k pr).station n :=
    congrArg (tget Station.init · n) logged
  refine ⟨fun n => ?_, ?_, ?_, fun hf g hg => ⟨signalOf k pr g, ?_, rfl, rfl, rfl, rfl⟩, fun h => (unlate h).trans left, fun c hc hl => ?_⟩
  · rw [after, here, (leftBy_store v).2]
  · rw [after, leftBy_progs]
    intro x hx
    simpa using (List.mem_filter.1 hx).2
  · rw [after, leftBy_progs, here]
    exact fun x hx hne => List.mem_filter.2 ⟨hx, by simpa using hne⟩
  · rw [after]
    exact leftBy_signals v hf hg
  · have same : (leftBy v k pr).slot c = s.slot c := congrArg (tget Slot.init · c) left
    rw [← same]
    exact late c ((workSlot_of_slots left).trans hc) hl

/-! ### A signal lands -/

/-- Only the notes of Station k's lines may have changed. -/
structure Looks (k : Nat) (s t : State) : Prop where
  frame  : t = { s with stations := t.stations }
  here   : ∃ x, t.station k = { s.station k with lines := x }
  others : ∀ n, n ≠ k → t.station n = s.station n

section
variable {k : Nat}

theorem Looks.refl (s : State) : Looks k s s := ⟨rfl, ⟨_, rfl⟩, fun _ _ => rfl⟩

theorem Looks.trans (h : Looks k s t) (i : Looks k t u) : Looks k s u := by
  obtain ⟨x, hx⟩ := h.here
  obtain ⟨y, hy⟩ := i.here
  exact ⟨by rw [i.frame, h.frame], ⟨y, by rw [hy, hx]⟩, fun n hn => (i.others n hn).trans (h.others n hn)⟩

theorem modLines_looks (s : State) (k : Nat) (g : Station → Table RunLine) :
    Looks k s (s.modStation k (fun st => { st with lines := g st })) :=
  ⟨rfl, ⟨g (s.station k), station_modStation_self s k _⟩, fun n hn => by rw [station_modStation, if_neg hn]⟩

theorem note_looks (s : State) (b : Station) (k : Nat) : Looks k s (s.note b k) := by
  unfold State.note State.noteHeads
  have met : Looks k s (s.noteMet b k) := modLines_looks s k _
  split
  · exact (met.trans (modLines_looks _ k _)).trans (modLines_looks _ k _)
  · exact met

/-- The first of a list that has a property stands where the others before it end. -/
theorem findIdx?_first {α : Type} {P : α → Bool} {pre post : List α} {g : α} (hpre : ∀ x ∈ pre, P x = false) (hg : P g = true) :
    (pre ++ g :: post).findIdx? P = some pre.length := by
  have none : pre.findIdx? P = none := List.findIdx?_eq_none_iff.2 hpre
  simp [List.findIdx?_append, none, List.findIdx?_cons, hg]

/-- Line time and the cycle of Station k as an event finds them. -/
def stationAt (s : State) (k : Nat) (t : Tick) : State :=
  match (s.advance t.lt).phys k with
  | some p => (s.advance t.lt).advanceSc p t.sc
  | none => s.advance t.lt

theorem stationAt_frame (s : State) (k : Nat) (t : Tick) :
    stationAt s k t = { s with time := (stationAt s k t).time, cycles := (stationAt s k t).cycles } := by
  unfold stationAt
  rw [advance_eq_time]
  split <;> rfl

theorem stationAt_station (s : State) (k n : Nat) (t : Tick) : (stationAt s k t).station n = s.station n := by
  rw [stationAt_frame]
  rfl

/-- Can a signal have arrived (R160)? -/
def arrived (v : State) (k : Nat) (g : Signal) : Bool := match v.phys k with | some p => g.visible (v.cycle p) | none => true

theorem arrived_iff (s : State) (k : Nat) (t : Tick) (g : Signal) :
    arrived (stationAt s k t) k g = true ↔ ∀ p, s.phys k = some p → g.visible (max (s.cycle p) t.sc) = true := by
  have phys : (stationAt s k t).phys k = s.phys k := by
    rw [stationAt_frame]
    rfl
  unfold arrived
  rw [phys]
  cases hp : s.phys k with
  | none => simp
  | some p =>
    have cycle : (stationAt s k t).cycle p = max (s.cycle p) t.sc := by
      have before : (s.advance t.lt).cycle p = s.cycle p := by simp only [State.cycle, advance_fields]
      simp only [stationAt, phys_advance, hp, cycle_advanceSc, if_true, before]
    simp [cycle]

/-- Station k without the signal that lands. -/
def landed (st : Station) (pre post : List Signal) : Station := { st with transit := pre ++ post }

section
variable {tok : Fin 256} {t : Tick} {pre post : List Signal} {g : Signal} {k : Fin 128}

theorem tokenSignalLand_eq (hpower : s.power.compStopped = false) (htr : (s.station k).transit = pre ++ g :: post)
    (htok : g.token = tok.val) (hseen : arrived (stationAt s k t) k g = true)
    (hpre : ∀ x ∈ pre, x.token = tok.val → ¬arrived (stationAt s k t) k x = true) :
    ∃ r, exec (.tokenSignalLand k tok t) s =
      if (s.station k).token tok + g.count ≤ 65535 then
        .next (((stationAt s k t).setStation k { landed (s.station k) pre post with
          tokens := tset (s.station k).tokens tok ((s.station k).token tok + g.count) }).note (s.station k) k)
      else
        match ((stationAt s k t).setStation k (landed (s.station k) pre post)).workSlot with
        | some c => .next (((stationAt s k t).setStation k (landed (s.station k) pre post)).contractFault c 1 r)
        | none => .next ((stationAt s k t).setStation k (landed (s.station k) pre post)) := by
  show ∃ r, execTokenSignalLand k tok t s = _
  unfold execTokenSignalLand State.clocked
  rw [if_neg (by simp [hpower])]
  beta_reduce
  extract_lets +onlyGivenNames a b x seen
  have station : x = s.station k := stationAt_station s k k t
  have found : x.transit.findIdx? (fun y => y.token == tok.val && seen y) = some pre.length := by
    rw [station, htr]
    refine findIdx?_first (fun y hy => ?_) ?_
    · have unseen (e : y.token = tok.val) : seen y = false := Bool.eq_false_iff.2 (hpre y hy e)
      by_cases e : y.token = tok.val
      · simp [unseen e]
      · simp [e]
    · simp [htok, show seen g = true from hseen]
  have there : x.transit[pre.length]? = some g := by simp [station, htr]
  rw [found]
  dsimp -zeta only
  rw [there]
  dsimp -zeta only
  extract_lets +onlyGivenNames y n z w
  have gone : y = landed (s.station k) pre post := by
    unfold y landed
    rw [station, htr, List.eraseIdx_append_of_length_le (Nat.le_refl _)]
    simp
  clear_value y x
  subst gone station
  exact ⟨_, rfl⟩

/-- A signal that lands raises its Token and leaves the rest of its Station to the notes of its lines (R160, R161). -/
theorem lands (v : State) (k : Nat) (x : List Signal) (y : Table Nat)
    (hv : v = { s with time := v.time, cycles := v.cycles }) :
    let u := (v.setStation k { s.station k with transit := x, tokens := y }).note (s.station k) k
    u = { s with time := u.time, cycles := u.cycles, stations := u.stations } ∧
    u.station k = { s.station k with transit := x, tokens := y, lines := (u.station k).lines } ∧
    (∀ j, ((u.station k).line j).next = ((s.station k).line j).next ∧ ((u.station k).line j).ended = ((s.station k).line j).ended) ∧
    ∀ n, n ≠ k → u.station n = s.station n := by
  intro u
  obtain ⟨frame, ⟨lines, here⟩, others⟩ := note_looks (v.setStation k { s.station k with transit := x, tokens := y }) (s.station k) k
  rw [station_setStation_self] at here
  refine ⟨?_, ?_, fun j => ?_, fun n hn => ?_⟩
  · rw [show u = _ from frame, hv]
    rfl
  · rw [show u.station k = _ from here]
  · obtain ⟨next, ended, -⟩ := (note_noted (v.setStation k { s.station k with transit := x, tokens := y }) (s.station k) k k j).fields
    rw [station_setStation_self] at next ended
    exact ⟨next, ended⟩
  · rw [show u.station n = _ from others n hn, station_setStation, if_neg hn, hv]
    rfl

end

end

/-- Settles O41: a departure completes (`departureComplete_leaves`), a signal lands (`tokenSignalLand_eq`), and a wait, a take, a head or
a fill that has lasted too long stops its context with its fault (`waitTimeout_stops` to `sidingOverflow_fill`). -/
theorem timetableEvents : Obligations.TimetableEvents := by
  unfold Obligations.TimetableEvents
  refine ⟨fun k j sect index lt sc p s pr hpower hp hpr hdone => departureComplete_leaves hpower hp hpr hdone, ?_, ?_, ?_⟩
  · intro k tok t s pre post g seen hpower htr htok hseen hpre
    obtain ⟨r, e⟩ := tokenSignalLand_eq hpower htr htok ((arrived_iff s k t g).2 hseen)
      fun x hx hxt ha => hpre x hx hxt ((arrived_iff s k t x).1 ha)
    refine ⟨fun hn => ⟨_, e.trans (if_pos hn), lands _ k _ _ (stationAt_frame s k t)⟩, fun c hn hc => ?_⟩
    obtain ⟨w, hw⟩ : ∃ w, w = (stationAt s k t).setStation k (landed (s.station k) pre post) := ⟨_, rfl⟩
    have work : w.workSlot = some c := by
      rw [← hc, hw, stationAt_frame]
      exact workSlot_of_slots rfl
    have there : ((w.contractFault c 1 r).station k) = landed (s.station k) pre post := by
      have stations : (w.contractFault c 1 r).stations = w.stations := by simp
      rw [State.station, stations, hw]
      exact station_setStation_self _ _ _
    rw [if_neg (by omega), ← hw, work] at e
    exact ⟨_, e, stopContext_state _ c, by rw [there]; rfl, by rw [there]; rfl⟩
  · intro k j now c p s img hc hp himg v limit
    refine ⟨fun h w hh hw => waitTimeout_stops hc hp himg hh hw, fun pr hw ht => tagTimeout_stops hc hp himg hw ht,
      fun h hh hmet hseq hlock hspan hlong => ?_⟩
    have run : h.c = c := Option.some.inj ((headOf_head hh).1.symm.trans ((runSlot_advance s now).trans hc))
    have image : h.img = img := by
      have := headOf_image hh
      rw [slot_advance, run, himg] at this
      exact (Option.some.inj this).symm
    exact run ▸ watchdogExpiry_stops hh hmet hseq hlock hspan (image ▸ hlong)
  · intro k sid now c s img hc himg v limit d
    exact ⟨fun pr hpr hlong => sidingOverflow_take hc himg hpr hlong,
      fun w x a q hpr hw hx hn ha hlong hq => sidingOverflow_fill hc himg hpr hw hx hn ha hlong hq⟩

end Sys2Proof.Proofs
end

section
/-! A section ends and the next one begins (R149, R443): what the boundary of a section and the entry of the next leave as they were. -/

namespace Sys2Proof.Proofs

open Sys2Proof Sys2Proof.Machine Sys2Proof.Laws

variable {s t u : State}

/-! ### What goes with a section leaves the runs of the contexts and the Stations' Tokens and lines -/

theorem Halts.run {x y : Slot} (h : Halts x y) : y.run = x.run := by
  obtain ⟨-, -, run, -⟩ := h.fields
  exact run

/-- The runs of the contexts, line time, and every Station's Tokens, lines and issues stay. -/
structure Follows (s t : State) : Prop where
  slots : ∀ c, Halts (s.slot c) (t.slot c)
  time  : t.time = s.time
  keeps : Keeps entries s t

theorem Follows.trans (h : Follows s t) (k : Follows t u) : Follows s u :=
  ⟨fun c => (h.slots c).trans (k.slots c), k.time.trans h.time, h.keeps.trans k.keeps⟩

theorem Follows.of_cuts (h : Cuts s t) : Follows s t := ⟨h.slots, h.time, h.keeps⟩

theorem Follows.of_apart (h : Paged s t) (k : Apart s t) : Follows s t := by
  obtain ⟨stations, cycles, -, -, -, -, time, -, -⟩ := k
  exact ⟨h.slots, time, .of_eq cycles stations⟩

theorem Follows.of_replied (h : Replied s t) : Follows s t := by
  obtain ⟨_, _, _, _, _, _, _, rfl, _⟩ := h
  exact ⟨fun _ => .refl _, rfl, .of_eq rfl rfl⟩

theorem Follows.mapStations (s : State) {g : Station → Station} (hg : ∀ st, entries (g st) = entries st) : Follows s (s.mapStations g) :=
  ⟨fun _ => .refl _, rfl, mapStations_keeps s hg⟩

/-! ### Lifetimes -/

section
variable (s)

@[simp] theorem relieve_apart (c : Nat) (order : List Nat) : Apart s (s.relieve c order) := by
  unfold State.relieve
  split
  · exact .refl s
  · split
    · split
      · exact shift_apart s _ _ _
      · exact .refl s
    · exact .refl s

@[simp] theorem allocObject_apart (c n : Nat) (d : ObjDesc) : Apart s (s.allocObject c n d) := by
  unfold State.allocObject
  split
  · exact .refl s
  · refine .foldl _ (fun x p => ?_) _ s
    extract_lets +onlyGivenNames y
    have got : Apart x y := (relieve_apart x _ _).trans (allocPage_apart _ _ _ _ _ _ _)
    split
    · exact got
    · split
      · exact got
      · exact got.trans (by simp [Apart])

theorem lifetimes_apart (c x : Nat) : Apart s (s.lifetimes c x) := by
  unfold State.lifetimes
  split
  · exact .refl s
  · extract_lets +onlyGivenNames old now v w
    have freed : Apart s v := .foldl _ (fun y n => .foldl _ (fun z e => freePage_apart z e) _ y) _ s
    have got : Apart v w := by
      refine .foldl _ (fun y n => ?_) _ v
      split
      · exact allocObject_apart y _ _ _
      · exact .refl y
    exact (freed.trans got).trans (.refl w)

theorem lifetimes_follows (c x : Nat) : Follows s (s.lifetimes c x) := .of_apart (lifetimes_paged s c x) (lifetimes_apart s c x)

theorem noPoints_apart (c : Nat) (img : Image) (x : Nat) : Apart s (s.noPoints c img x) := by
  unfold State.noPoints State.pointsMissing
  split
  · split
    · dsimp only
      split
      · simp [Apart]
      · exact .refl s
    · exact .refl s
  · exact .refl s

theorem noPoints_follows (c : Nat) (img : Image) (x : Nat) : Follows s (s.noPoints c img x) :=
  .of_apart (noPoints_paged s c img x) (noPoints_apart s c img x)

end

/-! ### The section that begins -/

/-- The run of a context at the first departures of section x. -/
def sectionRun (run : Run) (x epoch began : Nat) (floatPast : Bool) (follow : List Nat) : Run :=
  { run with
    sect := x, sectEpoch := epoch, began := began, cancelled := none, halting := false, switching := false, points := none,
    follow := follow, floatPast := floatPast, epochSeen := false }

/-- The run of context c stands at `r`, every line at its first departure, and line time and the Tokens as in `s`. -/
structure Begins (s t : State) (c : Nat) (r : Run) : Prop where
  run    : (t.slot c).run = some r
  time   : t.time = s.time
  lines  : ∀ k, (t.station k).lines = []
  tokens : ∀ k, (t.station k).tokens = (s.station k).tokens

theorem Begins.follows {c : Nat} {r : Run} (h : Begins s t c r) (k : Follows t u) : Begins s u c r := by
  obtain ⟨run, time, lines, tokens⟩ := h
  have kept (n : Nat) : (u.station n).tokens = (t.station n).tokens ∧ (u.station n).lines = (t.station n).lines := by
    have e := k.keeps.2 n
    exact ⟨congrArg Prod.fst e, congrArg (fun z => z.2.1) e⟩
  exact ⟨(k.slots c).run.trans run, k.time.trans time, fun n => (kept n).2.trans (lines n), fun n => (kept n).1.trans (tokens n)⟩

theorem newSection_stations (s : State) (n : Nat) :
    ((s.mapStations Station.newSection).station n).lines = [] ∧
      ((s.mapStations Station.newSection).station n).tokens = (s.station n).tokens := by
  refine ⟨?_, (mapStations_keeps (f := Station.tokens) (g := Station.newSection) s fun _ => rfl).2 n⟩
  simp only [State.station, State.mapStations]
  induction s.stations with
  | nil => rfl
  | cons e t ih =>
    obtain ⟨i, st⟩ := e
    simp only [List.map_cons, tget]
    split
    · rfl
    · exact ih

theorem enterSection_begins (s : State) (c x epoch : Nat) (floatPast : Bool) (follow : List Nat) {run : Run} {img : Image}
    (hr : (s.slot c).run = some run) (hi : (s.slot c).image = some img) :
    Begins s (s.enterSection c x epoch floatPast follow) c (sectionRun run x epoch s.time.lt floatPast follow) := by
  unfold State.enterSection
  split
  next r i hr' hi' =>
    obtain rfl := Option.some.inj (hr.symm.trans hr')
    extract_lets +onlyGivenNames a b v w
    have entered : Begins s b c (sectionRun run x epoch s.time.lt floatPast follow) := by
      refine ⟨?_, rfl, fun n => (newSection_stations a n).1, fun n => (newSection_stations a n).2⟩
      rw [show b.slot c = a.slot c from rfl, slot_modSlot_self]
      rfl
    have stepped : Begins s v c (sectionRun run x epoch s.time.lt floatPast follow) := by
      unfold v
      split
      · obtain ⟨run', time, lines, tokens⟩ := entered
        exact ⟨by rw [slot_modSlot_self]; exact run', time, lines, tokens⟩
      · exact entered
    have planned : Begins s w c (sectionRun run x epoch s.time.lt floatPast follow) :=
      stepped.follows ((lifetimes_follows v c x).trans (.of_cuts (plan_cuts _)))
    split
    · exact planned
    · exact planned.follows (noPoints_follows w _ _ _)
  next h => exact absurd hi (h run img hr)

/-! ### The Stations at the boundary -/

theorem closeGroups_zeroAt (st : Station) (sect sc : Nat) : (st.closeGroups sect sc).zeroAt = st.zeroAt := by
  refine foldl_keeps (fun x => x.zeroAt = st.zeroAt) _ (fun x g hx => ?_) _ st rfl
  exact (freeGroup_keeps x g (fun _ _ => rfl) : (x.freeGroup g).zeroAt = x.zeroAt).trans hx

/-- The counts that are written at their places are there. -/
theorem tget_resets (f : Nat → Nat) (b n : Nat) (l : Table Nat) {i : Nat} (hi : i < n) :
    tget 0 ((List.range n).foldl (fun t i => tset t (b + i) (f i)) l) (b + i) = f i := by
  induction n with
  | zero => omega
  | succ n ih =>
    rw [List.range_succ, List.foldl_append, List.foldl_cons, List.foldl_nil, tget_tset]
    split
    next e =>
      obtain rfl : i = n := by omega
      rfl
    next e => exact ih (by omega)

/-- R149: the Tokens that a section resets, where no Pilot Token waits for its own. -/
theorem boundary_token (st : Station) (img : Image) (run : Run) (k sc : Nat) (h : st.zeroAt = []) {i : Nat}
    (hi : i < (img.sect run.sect).tresetCount) :
    (st.boundary img run k sc).token ((img.sect run.sect).tresetBase + i) =
      img.tokenInit k ((img.sect run.sect).tresetBase + i) := by
  unfold Station.boundary
  extract_lets +onlyGivenNames closed r reset none
  have unset : none = reset := by
    have zero : closed.zeroAt = [] := by
      unfold closed
      split
      · rw [closeGroups_zeroAt, h]
      · exact h
    unfold none
    rw [zero]
    rfl
  show tget 0 none _ = _
  rw [unset]
  exact tget_resets (fun i => img.tokenInit k (r.tresetBase + i)) r.tresetBase r.tresetCount closed.tokens hi

/-- One Station at the boundary of the running section, with what its closes have waited. -/
def endStation (img : Image) (run : Run) (s : State) (k : Nat) : State :=
  match s.phys k with
  | some p => (s.bump .accDrainWait p ((s.station k).closeWait run (s.cycle p))).modStation k (fun st => st.boundary img run k (s.cycle p))
  | none => s

theorem endStation_atStations (img : Image) (run : Run) (s : State) (k : Nat) : AtStations s (endStation img run s k) := by
  unfold endStation
  split
  · exact (bump_atStations s _ _ _).trans (modStation_atStations _ _ _)
  · exact .refl s

theorem endStation_other (img : Image) (run : Run) (s : State) {k n : Nat} (h : n ≠ k) : (endStation img run s k).station n = s.station n := by
  unfold endStation
  split
  · rw [station_modStation, if_neg h]
    simp [State.station]
  · rfl

theorem endStation_self (img : Image) (run : Run) (s : State) {k p : Nat} (h : s.phys k = some p) :
    ∃ sc, (endStation img run s k).station k = (s.station k).boundary img run k sc := by
  unfold endStation
  rw [h]
  refine ⟨s.cycle p, ?_⟩
  rw [station_modStation_self]
  simp [State.station]

/-- Every Station at the boundary. -/
def endStations (img : Image) (run : Run) (s : State) : State := (List.range 128).foldl (endStation img run) s

theorem endStations_atStations (img : Image) (run : Run) (s : State) : AtStations s (endStations img run s) :=
  foldl_keeps (AtStations s) _ (fun x k hx => hx.trans (endStation_atStations img run x k)) _ s (.refl s)

theorem endStations_token (img : Image) (run : Run) (s : State) {n i : Nat} (hn : n < 128) (hp : (s.phys n).isSome = true)
    (hz : (s.station n).zeroAt = []) (hi : i < (img.sect run.sect).tresetCount) :
    ((endStations img run s).station n).token ((img.sect run.sect).tresetBase + i) =
      img.tokenInit n ((img.sect run.sect).tresetBase + i) := by
  suffices h : ∀ (l : List Nat) (x : State), (x.phys n).isSome = true → (x.station n).zeroAt = [] →
      (n ∈ l ∨ (x.station n).token ((img.sect run.sect).tresetBase + i) = img.tokenInit n ((img.sect run.sect).tresetBase + i)) →
      ((l.foldl (endStation img run) x).station n).token ((img.sect run.sect).tresetBase + i) =
        img.tokenInit n ((img.sect run.sect).tresetBase + i) from
    h _ s hp hz (.inl (List.mem_range.2 hn))
  intro l
  induction l with
  | nil => exact fun x _ _ h => h.resolve_left (List.not_mem_nil)
  | cons k l ih =>
    intro x hp hz h
    have phys : ((endStation img run x k).phys n).isSome = true := by
      rw [(endStation_atStations img run x k).eq]
      exact hp
    by_cases e : n = k
    · subst e
      obtain ⟨p, hp'⟩ := Option.isSome_iff_exists.1 hp
      obtain ⟨sc, same⟩ := endStation_self img run x hp'
      exact ih _ phys (by rw [same]; rfl) (.inr (by rw [same]; exact boundary_token _ _ _ _ _ hz hi))
    · have same := endStation_other img run x e
      refine ih _ phys (by rw [same, hz]) ?_
      rw [same]
      exact h.imp_left fun m => (List.mem_cons.1 m).resolve_left e

end Sys2Proof.Proofs
end

section
/-! The section boundary (R149, R172, R441 to R443). -/

namespace Sys2Proof.Proofs

open Sys2Proof Sys2Proof.Machine Sys2Proof.Laws

variable {s t u : State}

/-! ### The boundary up to the successor -/

/-- The boundary of the running section: its Stations end it, work for sections that do not follow is cut, and a `CANCEL_SECTION` of it
is replied. -/
def boundaryPast (s : State) (c : Nat) (img : Image) (run : Run) (succ : Nat) : State :=
  ((((endStations img run s).cancelAhead [run.sect, succ]).mapStations (fun st => st.adoptAhead succ)).endCommands
    (fun _ x => x.accepted && x.opcode == 0x17 && x.context == c) 0).modSlot c
    (fun x => { x with step := { x.step with ended := numInsert x.step.ended run.sect } })

/-- The section that follows. -/
def boundaryNext (s : State) (c : Nat) (img : Image) (run : Run) (succ : Nat) (follow : List Nat) : State :=
  let e := epochOf (img.sect succ) run.epoch s.time.lt run.floatPast
  let s := s.enterSection c succ e.1 e.2 follow
  match run.preemptAt with
  | some _ =>
    let s := s.cancelSection c succ false true
    (s.modSlot c (fun x => { x with run := x.run.map (fun r => { r with switching := true, preemptAt := none }) })).plan
  | none => s.noteAllFills

/-- What the boundary leaves. -/
def boundaryEnd (s : State) (c : Nat) (img : Image) (run : Run) (succ : Nat) (follow : List Nat) : State :=
  if succ = 0xFFFF then (boundaryPast s c img run succ).endRun c
  else boundaryNext (boundaryPast s c img run succ) c img run succ follow

section
variable {now c succ : Nat} {follow : List Nat} {img : Image} {run : Run} {v : State}

theorem sectionBoundary_eq (hv : v = (s.advance now).reachEpoch) (hc : v.runSlot = some c) (himg : (v.slot c).image = some img)
    (hrun : (v.slot c).run = some run) (hready : v.boundaryReady c img run = true) (hnext : nextSection img run = (succ, follow)) :
    exec (.sectionBoundary now) s = .next (boundaryEnd v c img run succ follow) := by
  show execSectionBoundary now s = _
  unfold execSectionBoundary
  rw [← hv]
  extract_lets +onlyGivenNames a
  have ha : v = a := rfl
  clear_value a
  subst ha
  have notReady : ¬(!v.boundaryReady c img run) = true := by simp [hready]
  rw [hc]
  dsimp -zeta only
  rw [himg, hrun]
  dsimp -zeta only
  rw [if_neg notReady, hnext]
  dsimp -zeta only
  extract_lets +onlyGivenNames b d e f x
  have past : x = boundaryPast v c img run succ := rfl
  clear_value x
  subst past
  unfold boundaryEnd boundaryNext
  split
  · rfl
  · extract_lets +onlyGivenNames g y
    cases run.preemptAt <;> rfl

end

/-! ### What it leaves -/

theorem boundaryPast_spec {v x : State} {c : Nat} {img : Image} {run : Run} {succ : Nat} (hx : x = boundaryPast v c img run succ) :
    (x.slot c).run = (v.slot c).run ∧ (x.slot c).image = (v.slot c).image ∧ x.time = v.time ∧
      ∀ k, (x.station k).tokens = ((endStations img run v).station k).tokens := by
  have ended := endStations_atStations img run v
  unfold boundaryPast at hx
  generalize endStations img run v = z at hx ended ⊢
  obtain ⟨w, hw⟩ : ∃ w, w = ((z.cancelAhead [run.sect, succ]).mapStations (fun st => st.adoptAhead succ)).endCommands
      (fun _ x => x.accepted && x.opcode == 0x17 && x.context == c) 0 := ⟨_, rfl⟩
  rw [← hw] at hx
  have cut : Follows z w := by
    have adopts (st : Station) : entries (st.adoptAhead succ) = entries st := rfl
    rw [hw]
    exact ((Follows.of_cuts (cancelAhead_cuts _ _)).trans (.mapStations _ adopts)).trans (.of_replied (endCommands_replied _ _ _))
  obtain ⟨image, -, kept, -⟩ := (cut.slots c).fields
  rw [atStations_slot ended] at image kept
  have time : z.time = v.time := by rw [ended.eq]
  rw [hx, slot_modSlot_self]
  exact ⟨kept, image, cut.time.trans time, fun k => congrArg Prod.fst (cut.keeps.2 k)⟩

theorem Begins.modSlot {c : Nat} {r r' : Run} {g : Slot → Slot} (hg : ∀ x, x.run = some r → (g x).run = some r') (h : Begins s t c r) :
    Begins s (t.modSlot c g) c r' := by
  obtain ⟨run, time, lines, tokens⟩ := h
  exact ⟨by rw [slot_modSlot_self]; exact hg _ run, time, lines, tokens⟩

section
variable {c succ : Nat} {follow : List Nat} {img : Image} {run : Run} {x : State}

/-- The run as the section that follows begins (R150, R443). -/
def nextRun (x : State) (img : Image) (run : Run) (succ : Nat) (follow : List Nat) : Run :=
  let e := epochOf (img.sect succ) run.epoch x.time.lt run.floatPast
  sectionRun run succ e.1 x.time.lt e.2 follow

/-- Without a `PREEMPT` that waits, the section that follows runs. -/
theorem boundaryNext_begins (hrun : (x.slot c).run = some run) (himg : (x.slot c).image = some img) (h : run.preemptAt = none) :
    Begins x (boundaryNext x c img run succ follow) c (nextRun x img run succ follow) := by
  unfold boundaryNext
  rw [h]
  exact (enterSection_begins x c succ _ _ follow hrun himg).follows (.of_cuts (noteAllFills_cuts _))

/-- A `PREEMPT` that waited for the boundary cancels it (R442). -/
theorem boundaryNext_preempted (hrun : (x.slot c).run = some run) (himg : (x.slot c).image = some img) (h : run.preemptAt ≠ none) :
    Begins x (boundaryNext x c img run succ follow) c
      { nextRun x img run succ follow with cancelled := some succ, switching := true, preemptAt := none } := by
  unfold boundaryNext
  obtain ⟨n, hn⟩ := Option.ne_none_iff_exists'.1 h
  rw [hn]
  extract_lets +onlyGivenNames e y w
  have begun : Begins x y c (nextRun x img run succ follow) := enterSection_begins x c succ _ _ follow hrun himg
  have marked : Begins x (y.modSlot c (fun z => { z with run := some { nextRun x img run succ follow with cancelled := some succ, halting := false } }))
      c { nextRun x img run succ follow with cancelled := some succ, halting := false } := begun.modSlot fun _ _ => rfl
  have cut : Begins x w c { nextRun x img run succ follow with cancelled := some succ, halting := false } :=
    marked.follows (.of_cuts (cancelSection_cuts y succ false true begun.run))
  refine Begins.follows (cut.modSlot fun z hz => ?_) (.of_cuts (plan_cuts _))
  rw [hz]
  rfl

theorem settleRun_offPages (s : State) : OffPages s s.settleRun := by
  have stragWrite (y : State) (die n : Nat) : OffPages y (y.stragWrite die n) := by
    unfold State.stragWrite
    dsimp only
    split
    · exact ⟨rfl, rfl⟩
    · exact OffPages.trans ⟨rfl, rfl⟩ (bump_offPages _ _ _ _)
  have dropLate (y : State) (die : Nat) (z : Contrib) (outcome late : Nat) : OffPages y (y.dropLate die z outcome late) := by
    unfold State.dropLate
    extract_lets +onlyGivenNames a b
    have noted : OffPages y b := ⟨rfl, rfl⟩
    exact (noted.trans (bump_offPages b _ _ _)).trans (stragWrite _ _ _)
  have foldl {β : Type} (g : State → β → State) (h : ∀ y b, OffPages y (g y b)) (l : List β) (y : State) : OffPages y (l.foldl g y) :=
    foldl_keeps (OffPages y) g (fun z b hz => hz.trans (h z b)) l y ⟨rfl, rfl⟩
  unfold State.settleRun
  split
  · exact ⟨rfl, rfl⟩
  · split
    · exact ⟨rfl, rfl⟩
    · extract_lets +onlyGivenNames late held z v w
      have emptied : OffPages s v := ⟨rfl, rfl⟩
      have dropped : OffPages v w := foldl _ (fun y b => dropLate y _ _ _ _) _ v
      exact (emptied.trans dropped).trans (foldl _ (fun y b => dropLate y _ _ _ _) _ w)

/-- The run ends (R441): its slot is `BOUND`, and the Stations stand as they are. -/
theorem endRun_ends (x : State) (c : Nat) :
    ((x.endRun c).slot c).state = .bound ∧ ((x.endRun c).slot c).run = none ∧ (x.endRun c).stations = x.stations := by
  unfold State.endRun
  extract_lets +onlyGivenNames y z
  have replied : OffPages y z := by simp [OffPages, z]
  have ended : OffPages (x.modSlot c (fun y => { y with state := .bound, run := none })) ((z.plan).notice 1 c 0) := by
    refine (((settleRun_offPages _).trans replied).trans (plan_offPages z)).trans ?_
    simp [OffPages]
  rw [ended.slot, slot_modSlot_self]
  exact ⟨rfl, rfl, ended.2⟩

end

end Sys2Proof.Proofs
end

section
/-! The run epoch, and the sections that follow (O42). -/

namespace Sys2Proof.Proofs

open Sys2Proof Sys2Proof.Machine Sys2Proof.Laws

variable {s t u : State}

/-! ### Commands that are answered leave their queues -/

/-- Every command that is outstanding in `t` was so in `s`. -/
def Fewer (s t : State) : Prop :=
  ∀ q, ∀ x ∈ (t.queue q).cmds, ∃ y ∈ (s.queue q).cmds, y.accepted = x.accepted ∧ y.header = x.header

theorem Fewer.of_queues (h : t.queues = s.queues) : Fewer s t := by
  intro q x hx
  rw [State.queue, h] at hx
  exact ⟨x, hx, rfl, rfl⟩

theorem Fewer.refl (s : State) : Fewer s s := .of_queues rfl

theorem Fewer.trans (h : Fewer s t) (k : Fewer t u) : Fewer s u := by
  intro q x hx
  obtain ⟨y, hy, accepted, header⟩ := k q x hx
  obtain ⟨z, hz, accepted', header'⟩ := h q y hy
  exact ⟨z, hz, accepted'.trans accepted, header'.trans header⟩

theorem Fewer.foldl {β : Type} {g : State → β → State} (h : ∀ x b, Fewer x (g x b)) (l : List β) (s : State) : Fewer s (l.foldl g s) :=
  foldl_keeps (Fewer s) g (fun x b hx => hx.trans (h x b)) l s (.refl s)

section
variable (s)

theorem reply_cmds (q : Nat) (cmd : FetchedCmd) (status r0 r1 n : Nat) : ((s.reply q cmd status r0 r1).queue n).cmds =
    if n = q then (s.queue q).cmds.filter (fun x => x.seq != cmd.seq) else (s.queue n).cmds := by
  unfold State.reply
  extract_lets +onlyGivenNames b w b' v z x y a
  have before (m : Nat) : v.queue m = s.queue m := by simp [v, State.queue]
  clear_value v
  have put (i : State) (hi : i.queues = v.queues) (r : Queue) (hr : r.cmds = b'.cmds) : ((i.setQueue q r).queue n).cmds =
      if n = q then (s.queue q).cmds.filter (fun x => x.seq != cmd.seq) else (s.queue n).cmds := by
    rw [queue_setQueue]
    split
    · exact hr
    · rw [← before n, State.queue, hi]
      rfl
  split
  next e => exact e ▸ put v rfl b' rfl
  · split
    · exact put y rfl _ rfl
    · exact put y rfl _ rfl

theorem reply_fewer (q : Nat) (cmd : FetchedCmd) (status r0 r1 : Nat) : Fewer s (s.reply q cmd status r0 r1) := by
  intro n x hx
  rw [reply_cmds] at hx
  split at hx
  next e => exact ⟨x, e ▸ (List.mem_filter.1 hx).1, rfl, rfl⟩
  · exact ⟨x, hx, rfl, rfl⟩

theorem endCommands_fewer (pick : Nat → FetchedCmd → Bool) (status : Nat) : Fewer s (s.endCommands pick status) :=
  .foldl (fun x q => .foldl (fun y c => reply_fewer y q c status 0 0) _ x) _ s

theorem recovered_fewer (c : Nat) : Fewer s (s.recovered c) := by
  unfold State.recovered
  extract_lets +onlyGivenNames v
  have unparked : Fewer s v := by
    refine .foldl (fun x q => ?_) _ s
    split
    · intro n y hy
      rw [queue_modQueue] at hy
      split at hy
      next e =>
        obtain ⟨z, hz, rfl⟩ := List.mem_map.1 hy
        exact ⟨z, e ▸ hz, rfl, rfl⟩
      · exact ⟨y, hy, rfl, rfl⟩
    · exact .refl x
  clear_value v
  split
  · split
    · exact unparked.trans (.of_queues rfl)
    · exact unparked
  · exact unparked

theorem stopContext_fewer (c : Nat) : Fewer s (s.stopContext c) := by
  unfold State.stopContext
  extract_lets +onlyGivenNames ended v w
  have stopped : Fewer s w := by
    have before : Fewer s { v with replay := false } := .of_queues rfl
    exact before.trans (endCommands_fewer { v with replay := false } _ _)
  split
  · exact stopped.trans (recovered_fewer w c)
  · exact stopped

theorem noPoints_fewer (c : Nat) (img : Image) (x : Nat) : Fewer s (s.noPoints c img x) := by
  unfold State.noPoints State.pointsMissing
  split
  · split
    · dsimp only
      split
      · unfold State.malformed State.contractFault
        obtain ⟨-, -, queues, -⟩ := report_slots s _
        exact Fewer.trans (.of_queues queues) (stopContext_fewer _ c)
      · exact .refl s
    · exact .refl s
  · exact .refl s

/-! ### Commands that complete together -/

/-- The commands of one queue that complete together. -/
def answers (pick : Nat → FetchedCmd → Bool) (status r0 : Nat) (s : State) (q : Nat) : State :=
  ((s.queue q).cmds.filter (pick q)).foldl (fun s c => s.reply q c status r0 0) s

variable (pick : Nat → FetchedCmd → Bool) (status r0 : Nat)

theorem answers_within (q n : Nat) : ∀ x ∈ ((answers pick status r0 s q).queue n).cmds, x ∈ (s.queue n).cmds := by
  refine foldl_keeps (fun y => ∀ x ∈ (y.queue n).cmds, x ∈ (s.queue n).cmds) _ (fun y c hy x hx => hy x ?_) _ s fun _ h => h
  rw [reply_cmds] at hx
  split at hx
  next e => exact e ▸ (List.mem_filter.1 hx).1
  · exact hx

theorem replies_gone (q : Nat) (l : List FetchedCmd) (s : State) {c : FetchedCmd} (hc : c ∈ l) :
    ∀ x ∈ ((l.foldl (fun s c => s.reply q c status r0 0) s).queue q).cmds, x.seq ≠ c.seq := by
  suffices h : ∀ (l : List FetchedCmd) (s : State), (c ∈ l ∨ ∀ x ∈ (s.queue q).cmds, x.seq ≠ c.seq) →
      ∀ x ∈ ((l.foldl (fun s c => s.reply q c status r0 0) s).queue q).cmds, x.seq ≠ c.seq from h l s (.inl hc)
  intro l
  induction l with
  | nil => exact fun s h => h.resolve_left List.not_mem_nil
  | cons d l ih =>
    intro s h
    refine ih _ ?_
    have left : ∀ x ∈ ((s.reply q d status r0 0).queue q).cmds, x ∈ (s.queue q).cmds ∧ x.seq ≠ d.seq := by
      intro x hx
      rw [reply_cmds, if_pos rfl] at hx
      exact ⟨(List.mem_filter.1 hx).1, by simpa using (List.mem_filter.1 hx).2⟩
    rcases h with h | h
    · rcases List.mem_cons.1 h with rfl | h
      · exact .inr fun x hx => (left x hx).2
      · exact .inl h
    · exact .inr fun x hx => h x (left x hx).1

theorem answers_done (q : Nat) : ∀ x ∈ ((answers pick status r0 s q).queue q).cmds, pick q x = false := by
  intro x hx
  refine Bool.eq_false_iff.2 fun picked => ?_
  have mine : x ∈ (s.queue q).cmds.filter (pick q) := List.mem_filter.2 ⟨answers_within s pick status r0 q q x hx, picked⟩
  exact replies_gone status r0 q _ s mine x hx rfl

/-- Once commands complete together, none of them is outstanding. -/
theorem finishCommands_done {q : Nat} (hq : q < 9) : ∀ x ∈ ((s.finishCommands pick status r0).queue q).cmds, pick q x = false := by
  suffices h : ∀ (l : List Nat) (s : State), (q ∈ l ∨ ∀ x ∈ (s.queue q).cmds, pick q x = false) →
      ∀ x ∈ ((l.foldl (answers pick status r0) s).queue q).cmds, pick q x = false from h _ s (.inl (List.mem_range.2 hq))
  intro l
  induction l with
  | nil => exact fun s h => h.resolve_left List.not_mem_nil
  | cons n l ih =>
    intro s h
    refine ih _ ?_
    rcases h with h | h
    · rcases List.mem_cons.1 h with rfl | h
      · exact .inr (answers_done s pick status r0 q)
      · exact .inl h
    · exact .inr fun x hx => h x (answers_within s pick status r0 n q x hx)

theorem finishCommands_replied : Replied s (s.finishCommands pick status r0) :=
  replied_foldl _ (fun x q => replied_foldl _ (fun y c => reply_replied y q c status r0 0) _ x) _ s

end

end Sys2Proof.Proofs
end

section
/-! The run epoch, and the sections that follow (O42). -/

namespace Sys2Proof.Proofs

open Sys2Proof Sys2Proof.Machine Sys2Proof.Laws

variable {s t u : State}

/-! ### The run epoch -/

/-- No command of opcode `op` of context c is outstanding. -/
def Answered (s : State) (op c : Nat) : Prop := ∀ q < 9, ∀ x ∈ (s.queue q).cmds, ¬(x.accepted = true ∧ x.opcode = op ∧ x.context = c)

theorem Answered.fewer {op c : Nat} (h : Answered s op c) (k : Fewer s t) : Answered t op c := by
  intro q hq x hx
  obtain ⟨y, hy, accepted, header⟩ := k q x hx
  have none := h q hq y hy
  simp only [FetchedCmd.opcode, FetchedCmd.context, FetchedCmd.f, accepted, header] at none
  exact none

theorem finishCommands_answered (s : State) (op c status r0 : Nat) :
    Answered (s.finishCommands (fun _ x => x.accepted && x.opcode == op && x.context == c) status r0) op c := by
  intro q hq x hx ⟨accepted, opcode, context⟩
  have none := finishCommands_done s (fun _ x => x.accepted && x.opcode == op && x.context == c) status r0 hq x hx
  simp [accepted, opcode, context] at none

theorem startSeeding_spec (s : State) (b : Binding) (also : Bool) :
    (s.startSeeding b also).slots = s.slots ∧ (s.startSeeding b also).coll.adopt = s.coll.adopt := by
  refine foldl_keeps (fun x => x.slots = s.slots ∧ x.coll.adopt = s.coll.adopt) _ (fun x i hx => ?_) _ s ⟨rfl, rfl⟩
  dsimp only
  split
  · exact hx
  · exact hx

theorem enterSection_coll (s : State) (c x epoch : Nat) (floatPast : Bool) (follow : List Nat) :
    (s.enterSection c x epoch floatPast follow).coll = s.coll := by
  unfold State.enterSection
  split
  · extract_lets +onlyGivenNames a b v w
    have same : v.coll = s.coll := by
      unfold v
      split <;> rfl
    have planned : w.coll = v.coll := ((lifetimes_paged v c x).trans (plan_paged _)).coll
    split
    · exact planned.trans same
    · exact (noPoints_paged w _ _ _).coll.trans (planned.trans same)
  · rfl

theorem beginRun_runs {c : Nat} {img : Image} (runEpoch x epoch : Nat) (floatPast waiting : Bool) (hi : (s.slot c).image = some img) :
    (∃ r, ((s.beginRun c runEpoch x epoch floatPast waiting).slot c).run = some r ∧ r.waiting = waiting ∧ r.sect = x) ∧
      (s.beginRun c runEpoch x epoch floatPast waiting).coll = s.coll := by
  unfold State.beginRun
  extract_lets +onlyGivenNames run v
  have running : v.slot c = { s.slot c with state := .running, run := some run } := slot_modSlot_self s c _
  have begun := enterSection_begins v c x epoch floatPast [] (run := run) (img := img) (by rw [running]) (by rw [running]; exact hi)
  exact ⟨⟨_, begun.run, rfl, rfl⟩, (enterSection_coll v c x epoch floatPast []).trans rfl⟩

/-- An adopting context runs from the first section of its step (R419), with nothing more to adopt. -/
theorem startAdopted_runs {c : Nat} {img : Image} (b : Binding) (run : Run) (hi : (s.slot c).image = some img) :
    (∃ r, ((s.startAdopted c img b run).slot c).run = some r ∧ r.waiting = false ∧ r.sect = img.stepFirst) ∧
      (s.startAdopted c img b run).coll.adopt = none := by
  unfold State.startAdopted
  extract_lets +onlyGivenNames v z w x e y
  have image : (w.slot c).image = some img := ((freshStations_paged s img).slots c).fields.1.trans hi
  obtain ⟨⟨r, hr, waiting, sect⟩, coll⟩ := beginRun_runs run.epoch x e.1 e.2 false image
  obtain ⟨slots, adopt⟩ := startSeeding_spec (w.beginRun c run.epoch x e.1 e.2 false) b true
  have seeded : y.slot c = (w.beginRun c run.epoch x e.1 e.2 false).slot c := congrArg (tget Slot.init · c) slots
  refine ⟨⟨r, ?_, waiting, sect⟩, ?_⟩
  · rw [(bump_offPages y _ _ _).slot, seeded, hr]
  · rw [(bump_paged y _ _ _).coll]
    exact adopt.trans (congrArg Collective.adopt coll)

section
variable {now c : Nat} {img : Image} {b : Binding} {run : Run}

/-- At its run epoch the run that waits begins, and its `START` is replied (R441). -/
theorem runEpoch_starts (hc : s.runSlot = some c) (himg : (s.slot c).image = some img) (hb : (s.slot c).binding = some b)
    (hrun : (s.slot c).run = some run) (hwait : run.waiting = true) (hlt : run.epoch ≤ (s.advance now).time.lt)
    (hadopt : s.coll.adopt = none) :
    ∃ u, exec (.runEpoch now) s = .next u ∧ (u.slot c).run = some { run with waiting := false } ∧ u.stations = s.stations ∧
      Answered u 0x13 c := by
  obtain ⟨v, hv⟩ : ∃ v, v = (s.advance now).modSlot c (fun x => { x with run := some { run with waiting := false } }) := ⟨_, rfl⟩
  obtain ⟨w, hw⟩ : ∃ w, w = v.finishCommands (fun _ x => x.accepted && x.opcode == 0x13 && x.context == c) 0 run.epoch := ⟨_, rfl⟩
  have replied : Replied v w := hw ▸ finishCommands_replied v _ _ _
  have runs : (v.slot c).run = some { run with waiting := false } := by rw [hv, slot_modSlot_self]
  refine ⟨w.noPoints c img run.sect, ?_, ?_, ?_, ?_⟩
  · show execRunEpoch now s = _
    unfold execRunEpoch
    have come : ¬(!run.waiting || decide ((s.advance now).time.lt < run.epoch)) = true := by simp [hwait, hlt]
    simp only [runSlot_advance, hc, slot_advance, hrun, himg, hb, advance_fields, hadopt]
    rw [if_neg come, hw, hv]
  · have follows := (Follows.of_replied replied).trans (noPoints_follows w c img run.sect)
    exact (follows.slots c).run.trans runs
  · obtain ⟨stations, -⟩ := noPoints_apart w c img run.sect
    obtain ⟨_, _, _, _, _, _, _, e, _⟩ := replied
    rw [stations, e, hv]
    simp
  · exact (hw ▸ finishCommands_answered v 0x13 c 0 run.epoch : Answered w 0x13 c).fewer (noPoints_fewer w c img run.sect)

theorem runEpoch_adopts (hc : s.runSlot = some c) (himg : (s.slot c).image = some img) (hb : (s.slot c).binding = some b)
    (hrun : (s.slot c).run = some run) (hwait : run.waiting = true) (hlt : run.epoch ≤ (s.advance now).time.lt)
    (hadopt : s.coll.adopt = some .known) :
    ∃ u r, exec (.runEpoch now) s = .next u ∧ (u.slot c).run = some r ∧ r.waiting = false ∧ r.sect = img.stepFirst ∧
      u.coll.adopt = none ∧ Answered u 0x19 c := by
  obtain ⟨⟨r, hr, waiting, sect⟩, adopted⟩ := startAdopted_runs b run ((congrArg Slot.image (slot_advance s now c)).trans himg)
  obtain ⟨v, hv⟩ : ∃ v, v = (s.advance now).startAdopted c img b run := ⟨_, rfl⟩
  rw [← hv] at hr adopted
  have replied := finishCommands_replied v (fun _ x => x.accepted && x.opcode == 0x19 && x.context == c) 0 0
  refine ⟨_, r, ?_, ?_, waiting, sect, ?_, finishCommands_answered v 0x19 c 0 0⟩
  · show execRunEpoch now s = _
    unfold execRunEpoch
    have come : ¬(!run.waiting || decide ((s.advance now).time.lt < run.epoch)) = true := by simp [hwait, hlt]
    simp only [runSlot_advance, hc, slot_advance, hrun, himg, hb, advance_fields, hadopt]
    rw [if_neg come, hv]
  · exact ((Paged.of_replied replied).slots c).run.trans hr
  · rw [(Paged.of_replied replied).coll, adopted]

end

theorem endRun_tokens (x : State) (c k : Nat) : ((x.endRun c).station k).tokens = (x.station k).tokens :=
  congrArg (fun z => (tget Station.init z k).tokens) (endRun_ends x c).2.2

/-- Settles O42: the boundary up to the successor (`boundaryPast_spec`), the section that follows (`boundaryNext_begins`,
`boundaryNext_preempted`) or the end of the run (`endRun_ends`); and the run epoch (`runEpoch_starts`, `runEpoch_adopts`). -/
theorem sectionsFollow : Obligations.SectionsFollow := by
  unfold Obligations.SectionsFollow
  refine ⟨?_, fun now c s img b run hc himg hb hrun hwait hlt =>
    ⟨runEpoch_starts hc himg hb hrun hwait hlt, runEpoch_adopts hc himg hb hrun hwait hlt⟩⟩
  intro now c succ follow s img run v hc himg hrun hready hnext begins
  have runs := sectionBoundary_eq rfl hc himg hrun hready hnext
  obtain ⟨time, flash, stations, -⟩ := reached_fields s now
  obtain ⟨x, hx⟩ : ∃ x, x = boundaryPast v c img run succ := ⟨_, rfl⟩
  obtain ⟨run', image, instant, past⟩ := boundaryPast_spec hx
  rw [hrun] at run'
  rw [himg] at image
  unfold boundaryEnd at runs
  rw [← hx] at runs
  have started (u : State) (r : Run) (h : Begins x u c r) (hs : r.sect = succ) (hb : r.began = x.time.lt) (hp : r.points = none)
      (he : r.sectEpoch = (epochOf (img.sect succ) run.epoch x.time.lt run.floatPast).1) (hf : r.follow = follow) : begins u r := by
    rw [instant] at hb he
    exact ⟨h.run, hs, hb, hp, he, hf, h.lines⟩
  refine ⟨?_, fun hs => ?_, fun hs hp => ?_, fun hs hp => ?_⟩
  · refine ⟨_, runs, fun k hk phys zero i hi => ?_⟩
    have kept : ((if succ = 0xFFFF then x.endRun c else boundaryNext x c img run succ follow).station k).tokens = (x.station k).tokens := by
      split
      · exact endRun_tokens x c k
      · by_cases hp : run.preemptAt = none
        · exact (boundaryNext_begins run' image hp).tokens k
        · exact (boundaryNext_preempted run' image hp).tokens k
    have reset := endStations_token img run v hk (by rw [State.phys, flash]; exact phys)
      (by rw [State.station, stations]; exact zero) hi
    rw [Station.token, kept, past k]
    exact reset
  · rw [if_pos hs] at runs
    exact ⟨_, runs, (endRun_ends x c).1, (endRun_ends x c).2.1⟩
  · rw [if_neg hs] at runs
    exact ⟨_, _, runs, started _ _ (boundaryNext_begins run' image hp) rfl rfl rfl rfl rfl, rfl⟩
  · rw [if_neg hs] at runs
    exact ⟨_, _, runs, started _ _ (boundaryNext_preempted run' image hp) rfl rfl rfl rfl rfl, rfl, rfl, rfl⟩

end Sys2Proof.Proofs
end

section
/-! `STAGE`, the multiplies and `BALLAST` at their issue (O35): each changes its Station's shadow plane, queue, groups or Siding once, and
what follows in the same command is seen by nothing that the clause reads. -/

namespace Sys2Proof.Proofs

open Sys2Proof Sys2Proof.Machine Sys2Proof.Laws

/-! ### The state in which a departure's own effect begins -/

section
variable (s : State) (k j : Nat) (t : IssueTick) (h : Head) (r : DepRule) {α : Type} {f : Station → α}

/-- After what every issue does, with the errors told that the departure's reads of the store find (R155, R307). -/
def effectStart : State := (issuing s k j t h).storeErrors k j h.sect h.index (if readsStore r.op then t.bad else [])

theorem effectStart_sees (hp : ∀ st x, f { st with storePoison := x } = f st)
    (hb : ∀ st a b c d e g, f { st with tokens := a, bound := b, lines := c, issued := d, lastIssue := e, progs := g } = f st) (n : Nat) :
    f ((effectStart s k j t h r).station n) = f (s.station n) :=
  ((storeErrors_keeps _ hp _ _ _ _ _).2 n).trans (issuing_keeps hb k j t h n)

theorem effectStart_hop (p l : Nat) : (effectStart s k j t h r).hop p l = s.hop p l :=
  ((departed_offLoop (issuing_departed k j t h)).trans (storeErrors_offLoop _ _ _ _ _ _)).hop p l

theorem effectStart_cycle : (effectStart s k j t h r).cycle h.p = (startedProg s k j t h).issueSc :=
  ((storeErrors_keeps (f := fun _ => ()) _ (fun _ _ => rfl) _ _ _ _ _).cycle h.p).trans (issuing_cycle s k j t h)

variable {s k j t h r}

/-- After its effect, an issue only writes notes on the lines. -/
theorem issue_keeps (hi : s.issues k j t r h) (hl : ∀ st x, f { st with lines := x } = f st) :
    Keeps f (r.effect (effectStart s k j t h r) k h (startedProg s k j t h)) (issue r k j t s) := by
  rw [issue_of_issues hi]
  exact note_keeps _ hl _ _

/-- An effect that leaves the stores leaves them at the end of the issue. -/
theorem issue_sameStores (hi : s.issues k j t r h)
    (he : Keeps Station.store (effectStart s k j t h r) (r.effect (effectStart s k j t h r) k h (startedProg s k j t h))) :
    s.sameStores (issue r k j t s) :=
  sameStores_trans_keeps (effectStart_sees s k j t h r (fun _ _ => rfl) fun _ _ _ _ _ _ _ => rfl)
    (he.trans (issue_keeps hi fun _ _ => rfl))

theorem issue_cycle (hi : s.issues k j t r h)
    (he : Keeps Station.store (effectStart s k j t h r) (r.effect (effectStart s k j t h r) k h (startedProg s k j t h))) :
    (issue r k j t s).cycle h.p = (startedProg s k j t h).issueSc :=
  ((he.trans (issue_keeps hi fun _ _ => rfl)).cycle h.p).trans (effectStart_cycle s k j t h r)

end

/-! ### The feeder and the Sidings -/

/-- The array's queue, and the slots with what they have in flight. -/
def multiplying (st : Station) : List DepId × Table Group := (st.mulq, st.groups)

/-- What of a Station the array-feed port serves: the store, the shadow plane, and the multiplies. -/
def served (st : Station) : List Host.Cell × Shadow × List DepId × Table Group := (st.store, st.shadow, multiplying st)

theorem Keeps.store_of_served {s t : State} (h : Keeps served s t) : Keeps Station.store s t := ⟨h.1, fun n => congrArg Prod.fst (h.2 n)⟩

theorem Keeps.shadow_of_served {s t : State} (h : Keeps served s t) : Keeps Station.shadow s t :=
  ⟨h.1, fun n => congrArg (fun x => x.2.1) (h.2 n)⟩

section
variable {α : Type} {f : Station → α} (s : State)

/-- Reads through the array-feed port delay the drain path, and leave what they serve as it is (R217, R218). -/
theorem feedPort_served (k p a n : Nat) : Keeps served s (s.feedPort k p a n) := by
  unfold State.feedPort
  extract_lets +onlyGivenNames st more feeds
  split
  · exact .setStation s rfl
  · extract_lets +onlyGivenNames r y st₁ st₂
    have delayed : served st₂ = served st := rfl
    exact (((Keeps.setStation s delayed).trans (stall_keeps _ (fun _ _ => rfl) _ _ _ _)).trans (bump_keeps _ _ _ _)).trans
      (bump_keeps _ _ _ _)

theorem malformedProg_keeps (k : Nat) (p : Prog) (reason : Nat) : Keeps f s (s.malformedProg k p reason) := by
  unfold State.malformedProg
  split
  · exact .of_stopped (malformed_stopped _ _ _ _ _ _ _)
  · exact .refl s

theorem matchMma_keeps (k : Nat) (pr : Prog) : Keeps f s (s.matchMma k pr) := by
  unfold State.matchMma
  dsimp only
  split
  · exact malformedProg_keeps s _ _ _
  · exact .refl s

theorem feedStage_keeps (hf : Blind f) (k : Nat) (pr : Prog) : Keeps f s (s.feedStage k pr) := by
  unfold State.feedStage
  extract_lets +onlyGivenNames o st d
  split
  · split
    · exact .refl s
    · split
      · exact malformedProg_keeps s _ _ _
      · extract_lets +onlyGivenNames pl
        exact (((Keeps.setStation s (stageData_blind hf.shadow st _ _ _)).trans (stall_keeps _ hf.progs _ _ _ _)).trans
          (runBad_keeps _ _)).trans (feedPort_keeps _ hf _ _ _ _)
  · exact .refl s

theorem claim_keeps (hs : ∀ st x, f { st with sidings := x } = f st) (hp : ∀ st x, f { st with progs := x } = f st)
    (k sid n : Nat) (id : DepId) : Keeps f s (s.claim k sid n id) :=
  (Keeps.modStation s fun st => (hp _ _).trans (hs st _)).trans (noteFills_keeps _ hs k)

/-- A claim of n positions of a Siding (R288). -/
theorem claim_claims (k sid n : Nat) (id : DepId) :
    claimedOf sid ((s.claim k sid n id).station k) = claimedOf sid (s.station k) + n := by
  rw [State.claim, (noteFills_claimed _ sid k).2, station_modStation_self]
  simp [claimedOf, Station.modProg, Station.siding, Station.setSiding]

end

theorem blind_claimedOf (d : Nat) : Blind (claimedOf d) :=
  { lines := fun _ _ => rfl, progs := fun _ _ => rfl, mulq := fun _ _ => rfl, takes := fun _ _ => rfl, shadow := fun _ _ => rfl,
    feeds := fun _ _ => rfl, drain := fun _ _ _ _ => rfl }

/-! ### `STAGE` -/

@[simp] theorem withRefs_desc (pl : Plane) : pl.withRefs.desc = pl.desc := by
  unfold Plane.withRefs
  split <;> rfl

@[simp] theorem withRefs_bytes (pl : Plane) : pl.withRefs.bytes = pl.bytes := by
  unfold Plane.withRefs
  split <;> rfl

/-- The staging of the departure's own plane starts to run (R70). -/
theorem stageData_shadow {st : Station} {tag desc d : Nat} {id : DepId} {x : Option Plane} (h : st.shadow = .staging tag desc id x d)
    (pl : Plane) (sc : Nat) :
    (st.stageData id pl sc).shadow = .staging tag desc id (some { pl.withRefs with tag := tag }) (sc + stagingSc desc) := by
  unfold Station.stageData
  rw [h]
  dsimp only
  rw [if_pos rfl]

/-- A Station whose shadow plane waits for the record of a `STAGE` (R187). -/
def awaiting (st : Station) (o : StageOps) (id : DepId) : Station := { st with shadow := .staging o.tag o.sfmt id none 0 }

theorem awaiting_keeps {α : Type} {f : Station → α} (hf : ∀ st x, f { st with shadow := x } = f st) (s : State) (k : Nat) (o : StageOps)
    (id : DepId) : Keeps f s (s.modStation k fun st => awaiting st o id) := .modStation s fun st => hf st _

section
variable (w : State) (k : Nat) (h : Head) (pr : Prog)

/-- From the store, the plane has its record at once, until the cycle of R70 (R187, R190). -/
theorem stageEffect_store (hk : (stageOps h.word).kind = 0) :
    let o := stageOps h.word
    Keeps Station.store w (stageEffect w k h pr) ∧ ∃ pl,
      ((stageEffect w k h pr).station k).shadow = .staging o.tag o.sfmt pr.id (some pl) (pr.issueSc + stagingSc o.sfmt) ∧
      pl.desc = o.sfmt ∧ pl.tag = o.tag ∧ pl.bytes = storeRead (w.station k) (64 * o.src) (64 * recGran o.sfmt) := by
  intro o
  let v := w.modStation k fun st => awaiting st o pr.id
  have waits : (v.station k).shadow = .staging o.tag o.sfmt pr.id none 0 := congrArg Station.shadow (station_modStation_self _ _ _)
  let pl := storePlane (v.station k) o.sfmt o.src o.tag h.sect
  let x := v.setStation k ((v.station k).stageData pr.id pl pr.issueSc)
  have runs : stageEffect w k h pr = (x.runBad (pl.poison != [])).feedPort k h.p pr.issueSc (recordSc o.sfmt) := by
    unfold stageEffect
    simp only [hk]
    rfl
  have read : Keeps served x (stageEffect w k h pr) := by
    rw [runs]
    exact (runBad_keeps x _).trans (feedPort_served _ _ _ _ _)
  have staged : Keeps Station.store v x := .setStation v (stageData_blind (fun _ _ => rfl) _ _ _ _)
  refine ⟨((awaiting_keeps (fun _ _ => rfl) w k o pr.id).trans staged).trans read.store_of_served,
    { pl.withRefs with tag := o.tag }, ?_, withRefs_desc pl, rfl, ?_⟩
  · rw [read.shadow_of_served.2, station_setStation_self]
    exact stageData_shadow waits pl _
  · exact (withRefs_bytes pl).trans ((awaiting_keeps (f := fun st => storeRead st _ _) (fun _ _ => rfl) w k o pr.id).2 k)

/-- From a Siding, it claims a position (R190, R288). -/
theorem stageEffect_siding (hk : (stageOps h.word).kind = 1) :
    let d := (stageOps h.word).src % 16
    Keeps Station.store w (stageEffect w k h pr) ∧
    claimedOf d ((stageEffect w k h pr).station k) = claimedOf d (w.station k) + 1 := by
  intro d
  let v := w.modStation k fun st => awaiting st (stageOps h.word) pr.id
  have fed {β : Type} {f : Station → β} (hf : Blind f) : Keeps f (v.claim k d 1 pr.id) (stageEffect w k h pr) := by
    unfold stageEffect
    simp only [hk]
    split
    · exact feedStage_keeps _ hf _ _
    · exact .refl _
  refine ⟨((awaiting_keeps (fun _ _ => rfl) w k _ pr.id).trans (claim_keeps v (fun _ _ => rfl) (fun _ _ => rfl) k d 1 pr.id)).trans
    (fed blind_store), ?_⟩
  rw [(fed (blind_claimedOf d)).2, claim_claims, (awaiting_keeps (f := claimedOf d) (fun _ _ => rfl) w k _ pr.id).2]

/-- From a line at whose input nothing is held for a take, it waits for its tag (R96, R190). -/
theorem stageEffect_line (hk : 2 ≤ (stageOps h.word).kind)
    (hm : (w.hop h.p ((stageOps h.word).kind - 2)).held = none ∨ (w.hop h.p ((stageOps h.word).kind - 2)).mode ≠ .holding) :
    let o := stageOps h.word
    stageEffect w k h pr = (w.modStation k fun st => awaiting st o pr.id).modStation k fun st =>
      { st with takes := st.takes ++ [(pr.id, o.kind - 2, o.src % 65536)] } := by
  intro o
  obtain ⟨n, hn⟩ : ∃ n, o.kind = n + 2 := ⟨o.kind - 2, (Nat.sub_add_cancel hk).symm⟩
  have runs : stageEffect w k h pr =
      (w.modStation k fun st => awaiting st o pr.id).startTake k h.p (o.kind - 2) (o.src % 65536) pr.id := by
    unfold stageEffect
    simp only [o, show (stageOps h.word).kind = n + 2 from hn]
    rfl
  rw [runs]
  exact matchHeld_idle _ _ _ (hm.imp_right .inl)

end

section
variable {s : State} {k : Fin 128} {j : Fin 4} {t : IssueTick} {h : Head}

/-- R187, R190: the record of the store is at hand at the issue. -/
theorem stage_reads (hi : s.issues k j t stageRule h) (hk : (stageOps h.word).kind = 0) :
    let o := stageOps h.word
    ∃ u pl, exec (.stage k j t) s = .next u ∧ (u.station k).shadow =
        .staging o.tag o.sfmt (s.depId k j h) (some pl) (u.cycle h.p + stagingSc o.sfmt) ∧ pl.desc = o.sfmt ∧ pl.tag = o.tag ∧
      pl.bytes = storeRead (s.station k) (64 * o.src) (64 * recGran o.sfmt) ∧ s.sameStores u := by
  intro o
  obtain ⟨kept, pl, shadow, desc, tag, bytes⟩ := stageEffect_store (effectStart s k j t h stageRule) k h (startedProg s k j t h) hk
  refine ⟨_, pl, rfl, ?_, desc, tag, bytes.trans ?_, issue_sameStores hi kept⟩
  · rw [issue_cycle hi kept, ← startedProg_id]
    exact ((issue_keeps hi (f := Station.shadow) fun _ _ => rfl).2 k).trans shadow
  · exact effectStart_sees (f := fun st => storeRead st _ _) s k j t h stageRule (fun _ _ => rfl) (fun _ _ _ _ _ _ _ => rfl) k

/-- R190, R288: the record of a Siding is claimed. -/
theorem stage_claims (hi : s.issues k j t stageRule h) (hk : (stageOps h.word).kind = 1) :
    let o := stageOps h.word
    ∃ u, exec (.stage k j t) s = .next u ∧
      ((u.station k).siding (o.src % 16)).claimed = ((s.station k).siding (o.src % 16)).claimed + 1 ∧ s.sameStores u := by
  intro o
  obtain ⟨kept, claimed⟩ := stageEffect_siding (effectStart s k j t h stageRule) k h (startedProg s k j t h) hk
  refine ⟨_, rfl, ?_, issue_sameStores hi kept⟩
  refine ((issue_keeps hi (f := claimedOf (o.src % 16)) fun _ _ => rfl).2 k).trans (claimed.trans (congrArg (· + 1) ?_))
  exact effectStart_sees (f := claimedOf (o.src % 16)) s k j t h stageRule (fun _ _ => rfl) (fun _ _ _ _ _ _ _ => rfl) k

/-- R96, R190: the record of a line is waited for. -/
theorem stage_waits (hi : s.issues k j t stageRule h) (hk : 2 ≤ (stageOps h.word).kind) :
    let o := stageOps h.word
    ((s.hop h.p (o.kind - 2)).held = none ∨ (s.hop h.p (o.kind - 2)).mode ≠ .holding) →
    ∃ u, exec (.stage k j t) s = .next u ∧
      (u.station k).takes = (s.station k).takes ++ [(s.depId k j h, o.kind - 2, o.src % 65536)] ∧
      (u.station k).shadow = .staging o.tag o.sfmt (s.depId k j h) none 0 ∧ s.sameStores u := by
  intro o hm
  rw [← effectStart_hop s k j t h stageRule] at hm
  have effect := stageEffect_line _ k h (startedProg s k j t h) hk hm
  have kept : Keeps Station.store (effectStart s k j t h stageRule)
      (stageEffect (effectStart s k j t h stageRule) k h (startedProg s k j t h)) := by
    rw [effect]
    exact (awaiting_keeps (fun _ _ => rfl) _ k o _).trans (.modStation _ fun _ => rfl)
  have noted {β : Type} {f : Station → β} (hl) := (issue_keeps hi (f := f) hl).2 k
  rw [show stageRule.effect = stageEffect from rfl, effect] at noted
  refine ⟨_, rfl, ?_, ?_, issue_sameStores hi kept⟩
  · rw [noted (f := Station.takes) fun _ _ => rfl, station_modStation_self, station_modStation_self, startedProg_id]
    exact congrArg (· ++ _) (effectStart_sees (f := Station.takes) s k j t h stageRule (fun _ _ => rfl) (fun _ _ _ _ _ _ _ => rfl) k)
  · rw [noted (f := Station.shadow) fun _ _ => rfl, station_modStation_self, station_modStation_self, startedProg_id]
    rfl

end

/-! ### What the Loop brings to a multiply -/

theorem dropTake_multiplying (st : Station) (id : DepId) : multiplying (st.dropTake id) = multiplying st := rfl

theorem storeWrite_multiplying (st : Station) (a : Nat) (bs : List Byte) (bad : Nat → Bool) :
    multiplying (st.storeWrite a bs bad) = multiplying st := rfl

theorem multiplying_steady : Steady multiplying := ⟨fun _ _ _ _ => rfl⟩

section
variable (s : State)

/-- A take that brings flits puts nothing in the array's queue and no row in flight. -/
theorem consume_multiplying (p l : Nat) (c : Consist) (id : DepId) (r n : Nat) : Keeps multiplying s (s.consume p l c id r n) := by
  unfold State.consume
  split
  · exact .refl s
  next k _ =>
    extract_lets +onlyGivenNames st
    split
    · exact .refl s
    · extract_lets +onlyGivenNames op began
      split
      · extract_lets +onlyGivenNames a from' bytes v done
        have written : Keeps multiplying s v := .setStation s (storeWrite_multiplying st _ _ _)
        split
        · exact ((written.trans (.modStation v fun st => dropTake_multiplying st id)).trans (finish_keeps _ (fun _ _ => rfl) _ _ _)).trans
            (stall_keeps _ (fun _ _ => rfl) _ _ _ _)
        · exact written
      · split
        · have staged := stageData_blind (f := multiplying) (fun _ _ => rfl) st id
          exact ((Keeps.setStation s ((dropTake_multiplying _ _).trans (staged _ _))).trans
            (stall_keeps _ (fun _ _ => rfl) _ _ _ _)).trans (runBad_keeps _ _)
        · exact .refl s

theorem nodeStep_multiplying (p l : Nat) : Keeps multiplying s (s.nodeStep p l).1 := by
  rcases nodeStep_stations s p l (.inl multiplying_steady) with kept | ⟨c, id, _, n, v, -, -, -, -, before, after⟩
  · exact kept
  · exact (before.trans (consume_multiplying v p l c id _ n)).trans after

theorem pump_multiplying (p l : Nat) : Keeps multiplying s (s.pump p l) :=
  pump_inv (I := Keeps multiplying s) (fun x q hx => hx.trans (nodeStep_multiplying x q l)) p (.refl s)

theorem matchHeld_multiplying (p l : Nat) : Keeps multiplying s (s.matchHeld p l) := by
  unfold State.matchHeld
  extract_lets +onlyGivenNames h
  split
  · extract_lets +onlyGivenNames st
    split
    · split
      · exact .refl s
      · extract_lets +onlyGivenNames op mx bad v
        split
        · exact malformedProg_keeps s _ _ _
        · have given : Keeps multiplying s v := setHop_keeps s p l _
          exact (given.trans (bumpNode_keeps v _ _ _)).trans (pump_multiplying _ _ _)
    · exact .refl s
  · exact .refl s

theorem startTake_multiplying (k p l tag : Nat) (id : DepId) : Keeps multiplying s (s.startTake k p l tag id) :=
  Keeps.trans (.modStation s fun _ => by rfl) (matchHeld_multiplying _ p l)

end

/-! ### `MMA` -/

section
variable (st : Station) (g n : Nat)

theorem enterGroup_keeps {α : Type} {f : Station → α} (hf : ∀ st x, f { st with groups := x } = f st) : f (st.enterGroup g n) = f st :=
  hf st _

theorem enterGroup_other {i : Nat} (hi : i ≠ g) : (st.enterGroup g n).group i = st.group i := by
  rw [Station.enterGroup, group_setGroup, if_neg hi]

/-- The rows that enter a group count in flight there (R129). -/
theorem enterGroup_rows (i : Nat) :
    ((st.enterGroup g n).group i).inFlight = (st.group i).inFlight + if i = g then n else 0 := by
  by_cases hi : i = g
  · rw [hi, if_pos rfl, Station.enterGroup, group_setGroup_self]
  · rw [enterGroup_other st g n hi, if_neg hi, Nat.add_zero]

end

/-- A Station where one departure more waits for the array (R64). -/
def queued (st : Station) (id : DepId) : Station := { st with mulq := st.mulq ++ [id] }

theorem queued_mulq (st : Station) (id : DepId) : (queued st id).mulq = st.mulq ++ [id] := rfl

theorem queued_keeps {α : Type} {f : Station → α} (hm : ∀ st x, f { st with mulq := x } = f st) (st : Station) (id : DepId) :
    f (queued st id) = f st := hm st _

section
variable (w : State) (k : Nat) (h : Head) (pr : Prog)

/-- The state in which a multiply has entered the array's queue, and its rows their group (R194). -/
def mmaEntered : State :=
  w.modStation k fun st => queued (st.enterGroup (mmaOps h.word).group (mmaOps h.word).nrows) pr.id

theorem mmaEntered_keeps {α : Type} {f : Station → α} (hg : ∀ st x, f { st with groups := x } = f st)
    (hm : ∀ st x, f { st with mulq := x } = f st) : Keeps f w (mmaEntered w k h pr) :=
  .modStation w fun st => (queued_keeps hm _ _).trans (enterGroup_keeps st _ _ hg)

theorem mmaEntered_station :
    (mmaEntered w k h pr).station k = queued ((w.station k).enterGroup (mmaOps h.word).group (mmaOps h.word).nrows) pr.id :=
  station_modStation_self _ _ _

theorem mmaEffect_store (hk : (mmaOps h.word).kind = 0) : mmaEffect w k h pr = mmaEntered w k h pr := by
  unfold mmaEffect
  simp only [hk]
  rfl

/-- What an `MMA` from a Siding claims it only looks at (R193). -/
theorem mmaEffect_claimed (hk : (mmaOps h.word).kind = 1) {α : Type} {f : Station → α} :
    Keeps f ((mmaEntered w k h pr).claim k ((mmaOps h.word).src % 16) (ceilDiv (mmaOps h.word).nrows 256) pr.id) (mmaEffect w k h pr) := by
  unfold mmaEffect
  simp only [hk]
  split
  · exact matchMma_keeps _ _ _
  · exact .refl _

/-- Whatever its source, a multiply enters the queue and its group once (R129, R194). -/
theorem mmaEffect_multiplying : Keeps multiplying (mmaEntered w k h pr) (mmaEffect w k h pr) := by
  match hk : (mmaOps h.word).kind with
  | 0 =>
    rw [mmaEffect_store w k h pr hk]
    exact .refl _
  | 1 => exact (claim_keeps _ (fun _ _ => rfl) (fun _ _ => rfl) _ _ _ _).trans (mmaEffect_claimed w k h pr hk)
  | n + 2 =>
    unfold mmaEffect
    simp only [hk]
    exact startTake_multiplying _ _ _ _ _ _

/-- A multiply from a Siding claims a position for each record of its rows (R194, R288). -/
theorem mmaEffect_siding (hk : (mmaOps h.word).kind = 1) :
    let d := (mmaOps h.word).src % 16
    claimedOf d ((mmaEffect w k h pr).station k) = claimedOf d (w.station k) + ceilDiv (mmaOps h.word).nrows 256 := by
  intro d
  rw [(mmaEffect_claimed w k h pr hk (f := claimedOf d)).2, claim_claims,
    (mmaEntered_keeps w k h pr (f := claimedOf d) (fun _ _ => rfl) fun _ _ => rfl).2]

end

section
variable {s : State} {k : Fin 128} {j : Fin 4} {t : IssueTick} {h : Head}

/-- R129, R194: a multiply waits for the array, with its rows in flight in its group alone. -/
theorem mma_enters (hi : s.issues k j t mmaRule h) :
    let o := mmaOps h.word
    ∃ u, exec (.mma k j t) s = .next u ∧ (u.station k).mulq = (s.station k).mulq ++ [s.depId k j h] ∧
      ((u.station k).group o.group).inFlight = ((s.station k).group o.group).inFlight + o.nrows ∧
      (∀ g, g ≠ o.group → (u.station k).group g = (s.station k).group g) ∧
      (o.kind = 0 → s.sameStores u ∧ (u.station k).sidings = (s.station k).sidings) ∧
      (o.kind = 1 → ((u.station k).siding (o.src % 16)).claimed =
        ((s.station k).siding (o.src % 16)).claimed + ceilDiv o.nrows 256) := by
  intro o
  let w := effectStart s k j t h mmaRule
  let pr := startedProg s k j t h
  have began {β : Type} {f : Station → β} (hp) (hb) : f (w.station k) = f (s.station k) :=
    effectStart_sees (f := f) s k j t h mmaRule hp hb k
  have noted {β : Type} {f : Station → β} (hl) : f ((issue mmaRule k j t s).station k) = f ((mmaEffect w k h pr).station k) :=
    (issue_keeps hi (f := f) hl).2 k
  have books : multiplying ((issue mmaRule k j t s).station k) = multiplying (queued ((w.station k).enterGroup o.group o.nrows) pr.id) := by
    rw [noted (f := multiplying) fun _ _ => rfl, (mmaEffect_multiplying w k h pr).2, mmaEntered_station]
  obtain ⟨queue, groups⟩ := Prod.mk.inj books
  have group (g : Nat) : ((issue mmaRule k j t s).station k).group g = ((w.station k).enterGroup o.group o.nrows).group g :=
    congrArg (fun x => tget Group.init x g) groups
  have group₀ (g : Nat) : (w.station k).group g = (s.station k).group g :=
    began (f := fun st => st.group g) (fun _ _ => rfl) fun _ _ _ _ _ _ _ => rfl
  refine ⟨_, rfl, ?_, ?_, fun g hg => ?_, fun hk => ⟨issue_sameStores hi ?_, ?_⟩, fun hk => ?_⟩
  · rw [queue, queued_mulq, enterGroup_keeps (f := Station.mulq) _ _ _ fun _ _ => rfl,
      began (f := Station.mulq) (fun _ _ => rfl) fun _ _ _ _ _ _ _ => rfl, startedProg_id]
  · rw [group, enterGroup_rows, if_pos rfl, group₀]
  · rw [group, enterGroup_other _ _ _ hg, group₀]
  · rw [show mmaRule.effect = mmaEffect from rfl, mmaEffect_store w k h pr hk]
    exact mmaEntered_keeps w k h pr (fun _ _ => rfl) fun _ _ => rfl
  · rw [noted (f := Station.sidings) fun _ _ => rfl, mmaEffect_store w k h pr hk,
      (mmaEntered_keeps w k h pr (f := Station.sidings) (fun _ _ => rfl) fun _ _ => rfl).2,
      began (f := Station.sidings) (fun _ _ => rfl) fun _ _ _ _ _ _ _ => rfl]
  · refine (noted (f := claimedOf (o.src % 16)) fun _ _ => rfl).trans ((mmaEffect_siding w k h pr hk).trans ?_)
    exact congrArg (· + _) (began (f := claimedOf (o.src % 16)) (fun _ _ => rfl) fun _ _ _ _ _ _ _ => rfl)

end

/-! ### `MMA_CPLX` -/

/-- A Station where rows have entered each group of a list, as many as `n` says (R129). -/
def enterEach (st : Station) (gs : List Nat) (n : Nat → Nat) : Station := gs.foldl (fun st g => st.enterGroup g (n g)) st

theorem enterEach_keeps {α : Type} {f : Station → α} (hf : ∀ st x, f { st with groups := x } = f st) (st : Station) (gs : List Nat)
    (n : Nat → Nat) : f (enterEach st gs n) = f st :=
  foldl_keeps (fun x => f x = f st) _ (fun x g hx => (enterGroup_keeps x g _ hf).trans hx) _ _ rfl

/-- Each group of the list is entered once. -/
theorem enterEach_rows (gs : List Nat) (n : Nat → Nat) (distinct : gs.Nodup) (st : Station) (i : Nat) :
    ((enterEach st gs n).group i).inFlight = (st.group i).inFlight + if i ∈ gs then n i else 0 := by
  induction gs generalizing st with
  | nil => rfl
  | cons g gs ih =>
    obtain ⟨fresh, distinct⟩ := List.nodup_cons.1 distinct
    rw [show enterEach st (g :: gs) n = enterEach (st.enterGroup g (n g)) gs n from rfl, ih distinct, enterGroup_rows]
    by_cases hi : i = g
    · subst hi
      rw [if_pos rfl, if_neg fresh, if_pos List.mem_cons_self, Nat.add_zero]
    · rw [if_neg hi, Nat.add_zero]
      simp only [List.mem_cons, hi, false_or]

theorem cplxGroups_nodup (o : CplxOps) : (cplxGroups o).Nodup := by
  unfold cplxGroups
  split <;> simp

section
variable (w : State) (k : Nat) (h : Head) (pr : Prog)

/-- The state in which a complex multiply has entered the array's queue, and its rows their groups (R197). -/
def cplxEntered : State :=
  let o := cplxOps h.word
  w.modStation k fun st => queued (enterEach st (cplxGroups o) fun g => cplxRows o (g - o.group)) pr.id

theorem cplxEntered_keeps {α : Type} {f : Station → α} (hg : ∀ st x, f { st with groups := x } = f st)
    (hm : ∀ st x, f { st with mulq := x } = f st) : Keeps f w (cplxEntered w k h pr) :=
  .modStation w fun st => (queued_keeps hm _ _).trans (enterEach_keeps hg st _ _)

theorem cplxEffect_eq :
    cplxEffect w k h pr = (cplxEntered w k h pr).stageCplx k h.p pr 0 (((cplxEntered w k h pr).station k).mayStage pr.issueSc) := rfl

end

/-- A tile of a complex product goes to the shadow plane, and nothing else (R196, R197). -/
theorem stageCplx_stages (s : State) (k p : Nat) (pr : Prog) (tile sc : Nat) :
    let o := cplxOps pr.word
    ∃ pl, served ((s.stageCplx k p pr tile sc).station k) =
        ((s.station k).store, .staging 0 o.sfmt pr.id (some pl) (sc + stagingSc o.sfmt), multiplying (s.station k)) ∧
      pl.bytes = storeRead (s.station k) (64 * (o.stat + tile * recGran o.sfmt)) (64 * recGran o.sfmt) := by
  intro o
  let pl := storePlane (s.station k) o.sfmt (o.stat + tile * recGran o.sfmt) 0 pr.sect
  let x := s.setStation k
    { s.station k with shadow := .staging 0 o.sfmt pr.id (some pl.withRefs) (sc + stagingSc o.sfmt) }
  have read : Keeps served x (s.stageCplx k p pr tile sc) := (runBad_keeps x _).trans (feedPort_served _ _ _ _ _)
  refine ⟨pl.withRefs, ?_, withRefs_bytes pl⟩
  rw [read.2, station_setStation_self]
  rfl

section
variable {s : State} {k : Fin 128} {j : Fin 4} {t : IssueTick} {h : Head}

/-- R129, R197: a complex multiply waits for the array, with its rows in flight in each of its groups, and stages its first tile. -/
theorem mmaCplx_enters (hi : s.issues k j t cplxRule h) :
    let o := cplxOps h.word
    ∃ u pl, exec (.mmaCplx k j t) s = .next u ∧ (u.station k).mulq = (s.station k).mulq ++ [s.depId k j h] ∧
      (∀ g ∈ cplxGroups o, ((u.station k).group g).inFlight = ((s.station k).group g).inFlight + cplxRows o (g - o.group)) ∧
      (u.station k).shadow =
        .staging 0 o.sfmt (s.depId k j h) (some pl) ((s.station k).mayStage (u.cycle h.p) + stagingSc o.sfmt) ∧
      pl.bytes = storeRead (s.station k) (64 * o.stat) (64 * recGran o.sfmt) ∧ s.sameStores u := by
  intro o
  let w := effectStart s k j t h cplxRule
  let pr := startedProg s k j t h
  let v := cplxEntered w k h pr
  have station : v.station k = queued (enterEach (w.station k) (cplxGroups o) fun g => cplxRows o (g - o.group)) pr.id :=
    station_modStation_self _ _ _
  have began {β : Type} {f : Station → β} (hp) (hb) : f (w.station k) = f (s.station k) :=
    effectStart_sees (f := f) s k j t h cplxRule hp hb k
  have entered {β : Type} {f : Station → β} (hg) (hm) : f (v.station k) = f (w.station k) :=
    (cplxEntered_keeps w k h pr (f := f) hg hm).2 k
  have kept : Keeps Station.store w (cplxEffect w k h pr) :=
    (cplxEntered_keeps w k h pr (fun _ _ => rfl) fun _ _ => rfl).trans (stageCplx_keeps v blind_store _ _ _ _ _)
  obtain ⟨pl, stages, bytes⟩ := stageCplx_stages v k h.p pr 0 ((v.station k).mayStage pr.issueSc)
  rw [← cplxEffect_eq] at stages
  have left := ((issue_keeps hi (f := served) fun _ _ => rfl).2 k).trans stages
  simp only [served, multiplying, Prod.mk.injEq] at left
  obtain ⟨-, shadow, queue, groups⟩ := left
  refine ⟨_, pl, rfl, ?_, fun g hg => ?_, ?_, ?_, issue_sameStores hi kept⟩
  · rw [queue, station, queued_mulq, enterEach_keeps (f := Station.mulq) fun _ _ => rfl,
      began (f := Station.mulq) (fun _ _ => rfl) fun _ _ _ _ _ _ _ => rfl, startedProg_id]
  · have group : ((issue cplxRule k j t s).station k).group g = (v.station k).group g := congrArg (fun x => tget Group.init x g) groups
    rw [group, station, queued_keeps (f := fun st => st.group g) fun _ _ => rfl, enterEach_rows _ _ (cplxGroups_nodup o), if_pos hg,
      began (f := fun st => st.group g) (fun _ _ => rfl) fun _ _ _ _ _ _ _ => rfl]
  · have wait : (v.station k).mayStage pr.issueSc = (s.station k).mayStage pr.issueSc :=
      (entered (f := fun st => st.mayStage pr.issueSc) (fun _ _ => rfl) fun _ _ => rfl).trans
        (began (f := fun st => st.mayStage pr.issueSc) (fun _ _ => rfl) fun _ _ _ _ _ _ _ => rfl)
    rw [shadow, wait, issue_cycle hi kept, startedProg_id]
    rfl
  · refine bytes.trans ?_
    rw [Nat.zero_mul, Nat.add_zero]
    exact (entered (f := fun st => storeRead st _ _) (fun _ _ => rfl) fun _ _ => rfl).trans
      (began (f := fun st => storeRead st _ _) (fun _ _ => rfl) fun _ _ _ _ _ _ _ => rfl)

/-! ### `BALLAST` -/

/-- R206: Ballast waits for the array, and has no group. -/
theorem ballast_enters (hi : s.issues k j t ballastRule h) :
    ∃ u, exec (.ballast k j t) s = .next u ∧ s.departed u ∧ (u.station k).mulq = (s.station k).mulq ++ [s.depId k j h] ∧
      (u.station k).groups = (s.station k).groups ∧ s.sameStores u := by
  let v := queued ((issuing s k j t h).station k) (startedProg s k j t h).id
  have runs : exec (.ballast k j t) s = .next (settled s k j t h v) := congrArg _ (issue_unread hi rfl)
  have began {β : Type} {f : Station → β} (hb) : f ((issuing s k j t h).station k) = f (s.station k) :=
    issuing_keeps (f := f) hb k j t h k
  refine ⟨_, runs, settled_departed s k j t h v, ?_, ?_, settled_sameStores s k j t h v (queued_keeps (fun _ _ => rfl) _ _)⟩
  · rw [settled_sees s k j t h v (f := Station.mulq) fun _ _ => rfl, queued_mulq, startedProg_id,
      began (f := Station.mulq) fun _ _ _ _ _ _ _ => rfl]
  · rw [settled_sees s k j t h v (f := Station.groups) fun _ _ => rfl, queued_keeps (f := Station.groups) fun _ _ => rfl,
      began (f := Station.groups) fun _ _ _ _ _ _ _ => rfl]

end

/-- Settles O35: an issue's common part, and the notes after it, are seen by nothing that the clauses read, so that each is its
departure's own effect. -/
theorem multipliesEnterTheArray : Obligations.MultipliesEnterTheArray := by
  unfold Obligations.MultipliesEnterTheArray
  exact fun k j t s h => ⟨stage_reads, stage_claims, stage_waits, mma_enters, mmaCplx_enters, ballast_enters⟩

end Sys2Proof.Proofs
end

section
/-! The rows of the vector departures (R213 to R215, R227, R230 to R232): each is made from the store alone, and written in it before
the next is read. -/

namespace Sys2Proof.Proofs

open Sys2Proof Sys2Proof.Machine Sys2Proof.Laws

/-! ### The store alone -/

/-- A Station of which there is the store alone, and its poison: all that the operands of a vector departure are read from. -/
def storeAlone (st : Station) : Station := { Station.init with store := st.store, storePoison := st.storePoison }

theorem store_eq_of_storeAlone {st x : Station} (h : storeAlone st = storeAlone x) : st.store = x.store := by
  have stores : (storeAlone st).store = (storeAlone x).store := by rw [h]
  exact stores

/-- A row is written in the store from the store alone. -/
theorem storeAlone_writeRow (st : Station) (f : Fmt) (dst i : Nat) (c : RowCodes) (bad : List Bool) :
    storeAlone (st.writeRow f dst i c bad) = (storeAlone st).writeRow f dst i c bad := by
  unfold Station.writeRow
  split
  · rfl
  · dsimp only
    split <;> rfl

/-- Rows `f` of a departure are made from the store alone. -/
def FromStore (f : Station → Nat → List PVal) : Prop := ∀ st, f st = f (storeAlone st)

/-- A departure's rows `g` are made from the store alone: operands that are read once from the store at its issue, `st0`, and the others
from the store as each row finds it (R213, R218). -/
structure Operands (g : Station → Station → Nat → List PVal) : Prop where
  once : ∀ st0, g st0 = g (storeAlone st0)
  rows : ∀ st0, FromStore (g st0)

theorem convertRow_operands (o : VecOps) : Operands fun _ => o.row := ⟨fun _ => rfl, fun _ _ => rfl⟩

theorem actRow_operands (o : ActOps) : Operands o.row := ⟨fun _ => rfl, fun _ _ => rfl⟩

theorem ewRow_operands (o : EwOps) : Operands fun st0 => o.row (o.fixed st0) := by
  have once (st0 : Station) : o.fixed st0 = o.fixed (storeAlone st0) := rfl
  exact ⟨fun st0 => congrArg o.row (once st0), fun _ _ => rfl⟩

theorem normRow_operands (o : NormOps) : Operands o.row := ⟨fun _ => rfl, fun _ _ => rfl⟩

/-! ### The rows -/

/-- Row i of a departure, converted and written (R213 to R215). -/
def rowOut (sr : Nat × Nat) (k : Nat) (o : OutFmt) (x : Fmt) (mode : Round) (f : Station → Nat → List PVal) (st : Station) (i : Nat) :
    Station :=
  st.writeRow x o.dst i (convRow x mode o.isat (rowRandom sr mode k i) ((f st i).map (fun q => q.1))) ((f st i).map (fun q => q.2))

theorem storeAlone_rowOut (sr : Nat × Nat) (k : Nat) (o : OutFmt) (x : Fmt) (mode : Round) {f : Station → Nat → List PVal}
    (hf : FromStore f) (st : Station) (i : Nat) : storeAlone (rowOut sr k o x mode f st i) = rowOut sr k o x mode f (storeAlone st) i := by
  rw [rowOut, storeAlone_writeRow, hf st]
  rfl

/-- Rows leave stores alike that they find alike. -/
theorem storeAlone_rows (sr : Nat × Nat) (k : Nat) (o : OutFmt) (x : Fmt) (mode : Round) {f : Station → Nat → List PVal}
    (hf : FromStore f) (l : List Nat) (st : Station) :
    storeAlone (l.foldl (rowOut sr k o x mode f) st) = l.foldl (rowOut sr k o x mode f) (storeAlone st) := by
  induction l generalizing st with
  | nil => rfl
  | cons i l ih => rw [List.foldl_cons, List.foldl_cons, ih, storeAlone_rowOut _ _ _ _ _ hf]

/-- An output's format and rounding have their codes, or one of them has none. -/
theorem outFmt_cases (o : OutFmt) : (∃ x mode, Fmt.ofDesc o.desc = some x ∧ Round.ofCode o.round = some mode) ∨
    Fmt.ofDesc o.desc = none ∨ Round.ofCode o.round = none := by
  cases hx : Fmt.ofDesc o.desc with
  | none => exact .inr (.inl rfl)
  | some x =>
    cases hm : Round.ofCode o.round with
    | none => exact .inr (.inr rfl)
    | some mode => exact .inl ⟨x, mode, rfl, rfl⟩

section
variable (st : Station) (sr : Nat × Nat) (k : Nat) {o : OutFmt} (n : Nat) (f : Station → Nat → List PVal)

theorem rowsOut_rows {x : Fmt} {mode : Round} (hx : Fmt.ofDesc o.desc = some x) (hm : Round.ofCode o.round = some mode) :
    st.rowsOut sr k o n f = ((List.range n).foldl (rowOut sr k o x mode f) st).store := by
  simp only [Station.rowsOut, hx, hm]
  rfl

theorem rowsOut_unwritten (h : Fmt.ofDesc o.desc = none ∨ Round.ofCode o.round = none) : st.rowsOut sr k o n f = st.store := by
  unfold Station.rowsOut
  split
  next hx hm => simp [hx, hm] at h
  · rfl

end

theorem rowsOut_congr {st x : Station} (h : storeAlone st = storeAlone x) (sr : Nat × Nat) (k : Nat) (o : OutFmt) (n : Nat)
    {f : Station → Nat → List PVal} (hf : FromStore f) : st.rowsOut sr k o n f = x.rowsOut sr k o n f := by
  rcases outFmt_cases o with ⟨y, mode, hy, hm⟩ | none
  · rw [rowsOut_rows _ _ _ _ _ hy hm, rowsOut_rows _ _ _ _ _ hy hm]
    refine store_eq_of_storeAlone ?_
    rw [storeAlone_rows _ _ _ _ _ hf, storeAlone_rows _ _ _ _ _ hf, h]
  · rw [rowsOut_unwritten _ _ _ _ _ none, rowsOut_unwritten _ _ _ _ _ none]
    exact store_eq_of_storeAlone h

section
variable (s : State) (k : Nat) (o : OutFmt) (n : Nat) (f : Station → Nat → List PVal)

/-- A row of a vector departure is read, and poison that it finds marks the step (R308), converted and written. -/
def vectorRow (s : State) (i : Nat) : State := (s.runBad ((f (s.station k) i).any (fun q => q.2))).outRow k o i i (f (s.station k) i)

theorem runRows_eq : s.runRows k o n f = (List.range n).foldl (vectorRow k o f) s := rfl

theorem outRow_marks (row off : Nat) (xs : List PVal) : Marks s (s.outRow k o row off xs) := by
  unfold State.outRow
  split
  · refine .of_slots ?_ ?_ ?_ ?_ ?_ <;> simp
  · exact .refl s

theorem vectorRow_marks (i : Nat) : Marks s (vectorRow k o f s i) := (runBad_marks s _).trans (outRow_marks _ _ _ _ _ _)

theorem runRows_marks : Marks s (s.runRows k o n f) := .foldl (fun x i => vectorRow_marks x k o f i) _ s

theorem runRows_keeps {α : Type} {g : Station → α} (hg : ∀ st x y, g { st with store := x, storePoison := y } = g st) :
    Keeps g s (s.runRows k o n f) := .foldl s (fun x _ => (runBad_keeps x _).trans (outRow_keeps _ hg _ _ _ _ _)) _

/-- Each row goes in the extent of the rows (R213). -/
theorem runRows_storesIn (hd : o.desc < 256) : s.storesIn (s.runRows k o n f) k o.dst (rowsGran o.desc n) := by
  rw [runRows_eq]
  suffices h : ∀ m, m ≤ n → s.storesIn ((List.range m).foldl (vectorRow k o f) s) k o.dst (rowsGran o.desc n) from h n (Nat.le_refl n)
  intro m
  induction m with
  | zero => exact fun _ => storesIn_of_keeps (.refl s)
  | succ m ih =>
    intro hm
    rw [List.range_succ, List.foldl_append, List.foldl_cons, List.foldl_nil]
    exact storesIn_trans (ih (Nat.le_of_succ_le hm))
      (storesIn_trans (storesIn_of_keeps (runBad_keeps _ _)) (outRow_storesIn _ k o _ _ hd hm))

theorem vectorRow_station {x : Fmt} {mode : Round} (hx : Fmt.ofDesc o.desc = some x) (hm : Round.ofCode o.round = some mode) (i : Nat) :
    (vectorRow k o f s i).station k = rowOut s.srInputs k o x mode f (s.station k) i := by
  have marked : (s.runBad ((f (s.station k) i).any (fun q => q.2))).station k = s.station k := (runBad_keeps (f := id) s _).2 k
  have counted (v : State) (a b : Nat) : ((v.bump .convertSat k a).bump .convertNan k b).station k = v.station k :=
    ((bump_keeps (f := id) v _ _ _).trans (bump_keeps _ _ _ _)).2 k
  simp only [vectorRow, State.outRow, hx, hm, rowOut]
  rw [counted, station_modStation_self, marked, (runBad_marks s _).srInputs]

/-- R213 to R215: the rows leave the store as each leaves it in turn. -/
theorem runRows_store : ((s.runRows k o n f).station k).store = (s.station k).rowsOut s.srInputs k o n f := by
  rcases outFmt_cases o with ⟨x, mode, hx, hm⟩ | none
  · have written (l : List Nat) (s : State) :
        (l.foldl (vectorRow k o f) s).station k = l.foldl (rowOut s.srInputs k o x mode f) (s.station k) := by
      induction l generalizing s with
      | nil => rfl
      | cons i l ih =>
        rw [List.foldl_cons, List.foldl_cons, ih, (vectorRow_marks s k o f i).srInputs, vectorRow_station s k o f hx hm]
    rw [rowsOut_rows _ _ _ _ _ hx hm, ← written, runRows_eq]
  · have unwritten (x : State) (i : Nat) : Keeps Station.store x (vectorRow k o f x i) := by
      unfold vectorRow State.outRow
      split
      next hx hm => simp [hx, hm] at none
      · exact runBad_keeps x _
    rw [rowsOut_unwritten _ _ _ _ _ none]
    exact (Keeps.foldl s unwritten (List.range n)).2 k

end

end Sys2Proof.Proofs
end

section
/-! `CONVERT`, `ACT`, `EW`, `NORM` and `VSTATS` at their issue (O39): rows, a count and a schedule, from the state in which the
departure's own effect begins. -/

namespace Sys2Proof.Proofs

open Sys2Proof Sys2Proof.Machine Sys2Proof.Laws

/-! ### The schedule on an idle drain path -/

section
variable (s : State) (k p : Nat) (pr : Prog) (t : Nat) (b : Station) (q : DrainPace)

/-- With no read of the feeder ahead, a departure's reads keep the pace of R218 (R217). -/
theorem run_readSc (hb : b.feeds = []) (i : Nat) : (q.run pr.id t b).readSc i = t + q.once + i * q.pace := by
  simp [DrainPace.run, hb, DrainRun.yieldTo, DrainRun.yieldIn, DrainRun.readSc]

/-- R218: on an idle drain path, with no read of the feeder ahead, a departure is done once the last of its rows has been written. -/
theorem schedule_doneAt_idle (h : InProgress (s.station k) pr.id) (hd : (s.station k).drainLast ≤ t) (hb : b.feeds = [])
    (hw : q.w ≠ 0) :
    (s.schedule k p pr t b q).doneAt k pr.id (t + q.once + (q.rows - 1) * q.pace + s.pathLatency + (q.w - 1) + q.red) := by
  unfold State.schedule
  extract_lets r last done first st shift busy st' v w
  have early : (s.station k).drainLast < first := by
    have latency := pathLatency_pos s
    have read : r.readSc 0 = t + q.once + 0 * q.pace := run_readSc pr t b q hb 0
    simp only [first, if_neg hw, read]
    omega
  have unshifted : shift = 0 := if_pos early
  have ends : done + shift = t + q.once + (q.rows - 1) * q.pace + s.pathLatency + (q.w - 1) + q.red := by
    simp only [unshifted, done, last, r, run_readSc pr t b q hb, Nat.add_zero]
  rw [← ends]
  have books : Keeps Station.progs s v :=
    ((Keeps.setStation s (booked_keeps (fun _ _ _ _ => rfl) _ _ _ _)).trans (bump_keeps _ _ _ _)).trans (bump_keeps _ _ _ _)
  have finished : doneIn ((v.finish k pr.id (done + shift)).station k) pr.id (done + shift) :=
    finish_doneAt _ (inProgress_of_progs (books.2 k) h)
  exact stall_done _ _ _ (stall_done _ _ _ (stall_done _ _ _ finished))

end

theorem rowSc_ne_zero (d : Nat) : rowSc d ≠ 0 := by
  unfold rowSc
  split
  · decide
  · split
    · decide
    · split <;> decide

/-! ### The state in which the departure's rows begin -/

section
variable (s : State) (k j : Nat) (t : IssueTick) (h : Head) (r : DepRule)

theorem storeErrors_marks (sect index : Nat) (bad : List Nat) : Marks s (s.storeErrors k j sect index bad) := by
  unfold State.storeErrors State.flowingError
  refine .foldl (fun x g => ?_) _ s
  have poisoned : Marks x (x.modStation k (fun st => { st with storePoison := numInsert st.storePoison g })) :=
    .of_slots rfl rfl rfl rfl rfl
  exact poisoned.trans ((report_marks _ _).trans (runBad_marks _ _))

/-- R307: the granules that reads find in error are poisoned in place. -/
theorem storeErrors_station (sect index : Nat) (bad : List Nat) :
    (s.storeErrors k j sect index bad).station k = (s.station k).withErrors bad := by
  unfold State.storeErrors Station.withErrors
  induction bad.filter (fun g => decide (g < 98304)) generalizing s with
  | nil => rfl
  | cons g l ih =>
    have told (x : State) (r : EvtRec) : (x.flowingError r).station k = x.station k :=
      (Keeps.of_stopped (f := id) (flowingError_stopped x r)).2 k
    rw [List.foldl_cons, List.foldl_cons, ih, told, station_modStation_self]

/-- A departure that reads the store finds it with those granules poisoned. -/
theorem effectStart_storeAlone (hr : readsStore r.op = true) :
    storeAlone ((effectStart s k j t h r).station k) = storeAlone ((s.station k).withErrors t.bad) := by
  rw [effectStart, if_pos hr, storeErrors_station]
  exact issuing_keeps (f := fun st => storeAlone (st.withErrors t.bad)) (fun _ _ _ _ _ _ _ => rfl) k j t h k

theorem effectStart_inProgress : InProgress ((effectStart s k j t h r).station k) (startedProg s k j t h).id :=
  inProgress_of_progs ((storeErrors_keeps _ (fun _ _ => rfl) _ _ _ _ _).2 k) (issuing_inProgress s k j t h)

theorem departed_srInputs {s t : State} (h : s.departed t) : t.srInputs = s.srInputs := by
  unfold State.departed at h
  rw [h]
  rfl

theorem departed_pathLatency {s t : State} (h : s.departed t) : t.pathLatency = s.pathLatency := by
  unfold State.departed at h
  rw [h]
  rfl

theorem Marks.pathLatency {s t : State} (h : Marks s t) : t.pathLatency = s.pathLatency := by
  unfold State.pathLatency State.drainLatency State.slowUnits
  simp only [h.workSlot, h.image, h.isA1, h.policies]

theorem effectStart_srInputs : (effectStart s k j t h r).srInputs = s.srInputs :=
  (storeErrors_marks _ _ _ _ _ _).srInputs.trans (departed_srInputs (issuing_departed k j t h))

theorem effectStart_pathLatency : (effectStart s k j t h r).pathLatency = s.pathLatency :=
  (storeErrors_marks _ _ _ _ _ _).pathLatency.trans (departed_pathLatency (issuing_departed k j t h))

end

/-! ### A departure over its rows -/

/-- From `w` on, the rows `f` of `v` have been written in Station k, and `m` rows counted. -/
def rowed (w : State) (k p : Nat) (v : VecOps) (m : Nat) (f : Station → Nat → List PVal) : State :=
  (w.runRows k v.out v.nrows f).bump .vecRows p m

theorem rowed_keeps {α : Type} {f : Station → α} (hf : ∀ st x y, f { st with store := x, storePoison := y } = f st) (w : State)
    (k p : Nat) (v : VecOps) (m : Nat) (rows : Station → Nat → List PVal) : Keeps f w (rowed w k p v m rows) :=
  (runRows_keeps w k v.out v.nrows rows hf).trans (bump_keeps _ _ _ _)

theorem rowed_pathLatency (w : State) (k p : Nat) (v : VecOps) (m : Nat) (f : Station → Nat → List PVal) :
    (rowed w k p v m f).pathLatency = w.pathLatency := by
  have counted (x : State) : Marks x (x.bump .vecRows p m) := by
    refine .of_slots ?_ ?_ ?_ ?_ ?_ <;> simp
  exact ((runRows_marks w k v.out v.nrows f).trans (counted _)).pathLatency

/-- Under rule r departure h makes the rows `g` of `v`, counts m rows and is scheduled. -/
def RunsRows (h : Head) (r : DepRule) (v : VecOps) (m extra more : Nat) (g : Station → Station → Nat → List PVal) : Prop :=
  ∀ w k pr, r.effect w k h pr = (rowed w k h.p v m (g (w.station k))).vecSchedule k h.p pr (w.station k) v extra more

section
variable {s : State} {k j : Nat} {t : IssueTick} {h : Head} {r : DepRule} {v : VecOps} {m extra more : Nat}
  {g : Station → Station → Nat → List PVal}

/-- Once its rows have been written, an issue writes in the books of the departures, of the drain path and of the lines alone. -/
theorem rowed_issue_keeps {α : Type} {f : Station → α} (hi : s.issues k j t r h) (he : RunsRows h r v m extra more g)
    (hl : ∀ st x, f { st with lines := x } = f st) (hp : ∀ st x, f { st with progs := x } = f st)
    (hd : ∀ st x a b, f { st with runs := x, drainFree := a, drainLast := b } = f st) :
    Keeps f (rowed (effectStart s k j t h r) k h.p v m (g ((effectStart s k j t h r).station k))) (issue r k j t s) := by
  have noted := issue_keeps hi hl
  rw [he] at noted
  exact (schedule_keeps _ k h.p _ _ _ _ hp hd).trans noted

theorem vector_cycle (hi : s.issues k j t r h) (he : RunsRows h r v m extra more g) :
    (issue r k j t s).cycle h.p = (startedProg s k j t h).issueSc := by
  have kept : Keeps (fun _ => ()) (effectStart s k j t h r) (issue r k j t s) :=
    (rowed_keeps (fun _ _ _ => rfl) _ _ _ _ _ _).trans
      (rowed_issue_keeps hi he (fun _ _ => rfl) (fun _ _ => rfl) fun _ _ _ _ => rfl)
  exact (kept.cycle h.p).trans (effectStart_cycle s k j t h r)

/-- R213: a vector departure writes its destination alone. -/
theorem vector_storesIn (hi : s.issues k j t r h) (he : RunsRows h r v m extra more g) (hd : v.ofmt < 256) :
    s.storesIn (issue r k j t s) k v.dst (rowsGran v.ofmt v.nrows) := by
  let w := effectStart s k j t h r
  have began : s.storesIn w k v.dst (rowsGran v.ofmt v.nrows) :=
    storesIn_of_sameStores (effectStart_sees s k j t h r (fun _ _ => rfl) fun _ _ _ _ _ _ _ => rfl)
  have written : w.storesIn (rowed w k h.p v m (g (w.station k))) k v.dst (rowsGran v.ofmt v.nrows) :=
    storesIn_trans (runRows_storesIn w k v.out v.nrows _ hd) (storesIn_of_keeps (bump_keeps _ _ _ _))
  refine storesIn_trans began (storesIn_trans written (storesIn_of_keeps ?_))
  exact rowed_issue_keeps hi he (fun _ _ => rfl) (fun _ _ => rfl) fun _ _ _ _ => rfl

/-- R213 to R215: a vector departure leaves its store as its rows leave it. -/
theorem vector_store (hi : s.issues k j t r h) (he : RunsRows h r v m extra more g) (hr : readsStore r.op = true)
    (hg : Operands g) :
    ((issue r k j t s).station k).store =
      ((s.station k).withErrors t.bad).rowsOut s.srInputs k v.out v.nrows (g ((s.station k).withErrors t.bad)) := by
  let w := effectStart s k j t h r
  have found : storeAlone (w.station k) = storeAlone ((s.station k).withErrors t.bad) := effectStart_storeAlone s k j t h r hr
  have operands : g (w.station k) = g ((s.station k).withErrors t.bad) := by rw [hg.once, found, ← hg.once]
  calc ((issue r k j t s).station k).store
      = ((rowed w k h.p v m (g (w.station k))).station k).store :=
        (rowed_issue_keeps (f := Station.store) hi he (fun _ _ => rfl) (fun _ _ => rfl) fun _ _ _ _ => rfl).2 k
    _ = ((w.runRows k v.out v.nrows (g (w.station k))).station k).store := (bump_keeps (f := Station.store) _ _ _ _).2 k
    _ = (w.station k).rowsOut w.srInputs k v.out v.nrows (g (w.station k)) := runRows_store _ _ _ _ _
    _ = ((s.station k).withErrors t.bad).rowsOut s.srInputs k v.out v.nrows (g ((s.station k).withErrors t.bad)) := by
        rw [operands, effectStart_srInputs]
        exact rowsOut_congr found _ _ _ _ (hg.rows _)

theorem rowed_inProgress (f : Station → Nat → List PVal) :
    InProgress ((rowed (effectStart s k j t h r) k h.p v m f).station k) (startedProg s k j t h).id :=
  inProgress_of_progs ((rowed_keeps (fun _ _ _ => rfl) _ _ _ _ _ _).2 k) (effectStart_inProgress s k j t h r)

/-- The completion that the schedule gives a departure is the one that it has after its issue. -/
theorem vector_doneAt {sc : Nat} (hi : s.issues k j t r h)
    (hs : (r.effect (effectStart s k j t h r) k h (startedProg s k j t h)).doneAt k (startedProg s k j t h).id sc) :
    (issue r k j t s).doneAt k (s.depId k j h) sc := by
  rw [← startedProg_id k j t h]
  exact doneAt_keeps hs (issue_keeps hi fun _ _ => rfl)

/-- R218: the completion of a vector departure is fixed at its issue. -/
theorem vector_done (hi : s.issues k j t r h) (he : RunsRows h r v m extra more g) :
    ∃ sc, (issue r k j t s).doneAt k (s.depId k j h) sc := by
  obtain ⟨sc, -, done⟩ := schedule_doneAt _ k h.p (startedProg s k j t h) _ _ _ (rowed_inProgress (v := v) (m := m) _)
  refine ⟨sc, vector_doneAt hi ?_⟩
  rw [he]
  exact done

/-- R218: that of one that finds the drain path idle, with no read of the feeder ahead. -/
theorem vector_done_idle (hi : s.issues k j t r h) (he : RunsRows h r v m extra more g)
    (hd : (s.station k).drainLast ≤ (issue r k j t s).cycle h.p) (hf : (s.station k).feeds = []) :
    (issue r k j t s).doneAt k (s.depId k j h) ((issue r k j t s).cycle h.p + extra +
      (v.nrows - 1) * pace (rowSc v.ifmt + more) (rowSc v.ofmt) + s.pathLatency + (rowSc v.ofmt - 1)) := by
  let w := effectStart s k j t h r
  have began {β : Type} {f : Station → β} (hp) (hb) : f (w.station k) = f (s.station k) :=
    effectStart_sees (f := f) s k j t h r hp hb k
  have idle : ((rowed w k h.p v m (g (w.station k))).station k).drainLast ≤ (startedProg s k j t h).issueSc := by
    rw [(rowed_keeps (f := Station.drainLast) (fun _ _ _ => rfl) _ _ _ _ _ _).2 k,
      began (f := Station.drainLast) (fun _ _ => rfl) fun _ _ _ _ _ _ _ => rfl, ← vector_cycle hi he]
    exact hd
  have ahead : (w.station k).feeds = [] := (began (f := Station.feeds) (fun _ _ => rfl) fun _ _ _ _ _ _ _ => rfl).trans hf
  have done := schedule_doneAt_idle _ k h.p (startedProg s k j t h) _ (w.station k)
    { groups := [], once := extra, reads := rowSc v.ifmt + more, pace := pace (rowSc v.ifmt + more) (rowSc v.ofmt), rows := v.nrows,
      w := rowSc v.ofmt, red := 0 }
    (rowed_inProgress (v := v) (m := m) _) idle ahead (rowSc_ne_zero _)
  rw [rowed_pathLatency, effectStart_pathLatency, ← vector_cycle hi he] at done
  refine vector_doneAt hi ?_
  rw [he, State.vecSchedule, ← vector_cycle hi he]
  exact done

end

/-! ### The departures -/

/-- A descriptor field has eight bits. -/
theorem convertOps_ofmt (d : BitVec 256) : (convertOps d).ofmt < 256 := Nat.mod_lt _ (by decide)

theorem actOps_ofmt (d : BitVec 256) : (actOps d).v.ofmt < 256 := Nat.mod_lt _ (by decide)

theorem ewOps_ofmt (d : BitVec 256) : (ewOps d).v.ofmt < 256 := Nat.mod_lt _ (by decide)

theorem normOps_ofmt (d : BitVec 256) : (normOps d).v.ofmt < 256 := Nat.mod_lt _ (by decide)

section
variable (h : Head)

theorem convert_runsRows : RunsRows h convertRule (convertOps h.word) (convertOps h.word).nrows 0 0 fun _ => (convertOps h.word).row := by
  intro w k pr
  simp only [convertRule, convertEffect, rowed]

theorem act_runsRows : ∃ m extra more, RunsRows h actRule (actOps h.word).v m extra more (actOps h.word).row := by
  refine ⟨?m, ?extra, ?more, fun w k pr => ?rows⟩
  case rows =>
    simp only [actRule, actEffect, rowed]
    rfl

theorem ew_runsRows : ∃ m extra more,
    RunsRows h ewRule (ewOps h.word).v m extra more fun st0 => (ewOps h.word).row ((ewOps h.word).fixed st0) := by
  refine ⟨?m, ?extra, ?more, fun w k pr => ?rows⟩
  case rows =>
    simp only [ewRule, ewEffect, rowed]
    rfl

theorem norm_runsRows : ∃ m extra more, RunsRows h normRule (normOps h.word).v m extra more (normOps h.word).row := by
  refine ⟨?m, ?extra, ?more, fun w k pr => ?rows⟩
  case rows =>
    simp only [normRule, normEffect, rowed]
    rfl

end

/-- From `x` on, the result vectors of a `VSTATS` over `rows` have been written in Station k, and its rows counted. -/
def reduced (x : State) (k p : Nat) (o : VstatsOps) (rows : List (List PVal)) : State :=
  (x.modStation k fun st => st.writeReduction o.dst o.red o.cols o.sample o.r64 rows).bump .vecRows p o.nrows

theorem reduced_keeps {α : Type} {f : Station → α} (hf : ∀ st x y, f { st with store := x, storePoison := y } = f st) (x : State)
    (k p : Nat) (o : VstatsOps) (rows : List (List PVal)) : Keeps f x (reduced x k p o rows) :=
  (Keeps.modStation x fun st => writeReduction_keeps hf st _ _ _ _ _ _).trans (bump_keeps _ _ _ _)

/-- R224: the result vectors lie in their extent. -/
theorem reduced_storesIn (x : State) (k p : Nat) (o : VstatsOps) (rows : List (List PVal)) :
    x.storesIn (reduced x k p o rows) k o.dst (redVectors o.red * redVecGran o.cols o.r64 rows.length) :=
  storesIn_trans (storesIn_modStation x (fun st => writeReduction_writesIn st _ _ _ _ _ _) (Nat.le_refl _) (Nat.le_refl _))
    (storesIn_of_keeps (bump_keeps _ _ _ _))

theorem vstatsRule_effect (w : State) (k : Nat) (h : Head) (pr : Prog) :
    ∃ rows, rows.length = (vstatsOps h.word).nrows ∧ ∃ bad q, vstatsRule.effect w k h pr =
      (reduced (w.runBad bad) k h.p (vstatsOps h.word) rows).schedule k h.p pr pr.issueSc (w.station k) q := by
  simp only [vstatsRule]
  unfold vstatsEffect
  extract_lets o st rows v x
  exact ⟨rows, by simp [rows, o], _, _, rfl⟩

section
variable {s : State} {k : Fin 128} {j : Fin 4} {t : IssueTick} {h : Head}

/-- R227: `CONVERT`. -/
theorem convert_writes (hi : s.issues k j t convertRule h) :
    let o := convertOps h.word
    ∃ u, exec (.convert k j t) s = .next u ∧ s.storesIn u k o.dst (rowsGran o.ofmt o.nrows) ∧
      (u.station k).store = ((s.station k).withErrors t.bad).rowsOut s.srInputs k o.out o.nrows o.row ∧
      ((s.station k).drainLast ≤ u.cycle h.p → (s.station k).feeds = [] → u.doneAt k (s.depId k j h)
        (u.cycle h.p + (o.nrows - 1) * pace (rowSc o.ifmt) (rowSc o.ofmt) + s.pathLatency + (rowSc o.ofmt - 1))) := by
  intro o
  have runs := convert_runsRows h
  have store := vector_store hi runs rfl (convertRow_operands o)
  refine ⟨_, rfl, vector_storesIn hi runs (convertOps_ofmt _), store, fun hd hf => ?_⟩
  have done := vector_done_idle hi runs hd hf
  rwa [Nat.add_zero, Nat.add_zero] at done

/-- R228 to R230: `ACT`. -/
theorem act_writes (hi : s.issues k j t actRule h) :
    let o := actOps h.word
    ∃ u, exec (.act k j t) s = .next u ∧ s.storesIn u k o.v.dst (rowsGran o.v.ofmt o.v.nrows) ∧
      (u.station k).store =
        ((s.station k).withErrors t.bad).rowsOut s.srInputs k o.v.out o.v.nrows (o.row ((s.station k).withErrors t.bad)) ∧
      ∃ sc, u.doneAt k (s.depId k j h) sc := by
  intro o
  obtain ⟨m, extra, more, runs⟩ := act_runsRows h
  exact ⟨_, rfl, vector_storesIn hi runs (actOps_ofmt _), vector_store hi runs rfl (actRow_operands o), vector_done hi runs⟩

/-- R231: `EW`. -/
theorem ew_writes (hi : s.issues k j t ewRule h) :
    let o := ewOps h.word
    ∃ u, exec (.ew k j t) s = .next u ∧ s.storesIn u k o.v.dst (rowsGran o.v.ofmt o.v.nrows) ∧
      (u.station k).store =
        ((s.station k).withErrors t.bad).rowsOut s.srInputs k o.v.out o.v.nrows (o.row (o.fixed ((s.station k).withErrors t.bad))) ∧
      ∃ sc, u.doneAt k (s.depId k j h) sc := by
  intro o
  obtain ⟨m, extra, more, runs⟩ := ew_runsRows h
  have store := vector_store hi runs rfl (ewRow_operands o)
  exact ⟨_, rfl, vector_storesIn hi runs (ewOps_ofmt _), store, vector_done hi runs⟩

/-- R232: `NORM`. -/
theorem norm_writes (hi : s.issues k j t normRule h) :
    let o := normOps h.word
    ∃ u, exec (.norm k j t) s = .next u ∧ s.storesIn u k o.v.dst (rowsGran o.v.ofmt o.v.nrows) ∧
      (u.station k).store =
        ((s.station k).withErrors t.bad).rowsOut s.srInputs k o.v.out o.v.nrows (o.row ((s.station k).withErrors t.bad)) ∧
      ∃ sc, u.doneAt k (s.depId k j h) sc := by
  intro o
  obtain ⟨m, extra, more, runs⟩ := norm_runsRows h
  exact ⟨_, rfl, vector_storesIn hi runs (normOps_ofmt _), vector_store hi runs rfl (normRow_operands o), vector_done hi runs⟩

/-- R233: `VSTATS`, which writes its result vectors alone. -/
theorem vstats_writes (hi : s.issues k j t vstatsRule h) :
    let o := vstatsOps h.word
    ∃ u, exec (.vstats k j t) s = .next u ∧ s.storesIn u k o.dst (redVectors o.red * redVecGran o.cols o.r64 o.nrows) ∧
      ∃ sc, u.doneAt k (s.depId k j h) sc := by
  intro o
  let w := effectStart s k j t h vstatsRule
  let pr := startedProg s k j t h
  obtain ⟨rows, size, bad, q, effect⟩ := vstatsRule_effect w k h pr
  let x := w.runBad bad
  have marked : Keeps Station.store w x := runBad_keeps w bad
  have began : s.sameStores x :=
    sameStores_trans_keeps (effectStart_sees s k j t h vstatsRule (fun _ _ => rfl) fun _ _ _ _ _ _ _ => rfl) marked
  have written : x.storesIn (reduced x k h.p o rows) k o.dst (redVectors o.red * redVecGran o.cols o.r64 o.nrows) :=
    size ▸ reduced_storesIn x k h.p o rows
  have ended : Keeps Station.store (reduced x k h.p o rows) (issue vstatsRule k j t s) := by
    have noted := issue_keeps (f := Station.store) hi fun _ _ => rfl
    rw [effect] at noted
    exact (schedule_keeps _ _ _ _ _ _ _ (fun _ _ => rfl) fun _ _ _ _ => rfl).trans noted
  have running : InProgress ((reduced x k h.p o rows).station k) pr.id := by
    refine inProgress_of_progs (((runBad_keeps w bad).trans ?_).2 k) (effectStart_inProgress s k j t h vstatsRule)
    exact reduced_keeps (fun _ _ _ => rfl) _ _ _ _ _
  obtain ⟨sc, -, done⟩ := schedule_doneAt _ k h.p pr pr.issueSc (w.station k) q running
  rw [← effect] at done
  refine ⟨_, rfl, ?_, sc, vector_doneAt hi done⟩
  exact storesIn_trans (storesIn_of_sameStores began) (storesIn_trans written (storesIn_of_keeps ended))

end

/-- Settles O39: at its issue, where the model has it read, convert and write all its rows (notes/assumptions/15.md), a vector departure
makes them one by one from the store alone, and is scheduled; the rest of the issue writes in no store. -/
theorem vectorDepartures : Obligations.VectorDepartures := by
  unfold Obligations.VectorDepartures
  exact fun k j t s h => ⟨convert_writes, act_writes, ew_writes, norm_writes, vstats_writes⟩

end Sys2Proof.Proofs
end

section
/-! What of the contexts' slots the pages, the messages and the collective engine leave as it was: all but what stops a context, marks
its step, or remembers the pages that the step has written. -/

namespace Sys2Proof.Proofs

open Sys2Proof Sys2Proof.Machine Sys2Proof.Laws

/-- What `f` sees of every slot is the same in `s` and `t`. -/
def Shows {α : Type} (f : Slot → α) (s t : State) : Prop := ∀ c, f (t.slot c) = f (s.slot c)

/-- `f` does not see a stop, the mark of a bad step, or the list of live objects. -/
def HaltBlind {α : Type} (f : Slot → α) : Prop := ∀ x y, Halts x y → f y = f x

section
variable {α : Type} {f : Slot → α} {s t u : State}

theorem Shows.refl (s : State) : Shows f s s := fun _ => rfl

theorem Shows.trans (h : Shows f s t) (k : Shows f t u) : Shows f s u := fun c => (k c).trans (h c)

theorem Shows.foldl {β : Type} {g : State → β → State} (h : ∀ x b, Shows f x (g x b)) (l : List β) (s : State) :
    Shows f s (l.foldl g s) := foldl_keeps (Shows f s) g (fun x b hx => hx.trans (h x b)) l s (.refl s)

theorem Shows.of_slots (h : t.slots = s.slots) : Shows f s t := fun c => by rw [State.slot, h]; rfl

theorem Shows.of_halts (hf : HaltBlind f) (h : ∀ c, Halts (s.slot c) (t.slot c)) : Shows f s t := fun c => hf _ _ (h c)

theorem Shows.of_paged (hf : HaltBlind f) (h : Paged s t) : Shows f s t := .of_halts hf h.slots

variable (s)

theorem Shows.modSlot (c : Nat) {g : Slot → Slot} (h : ∀ x, f (g x) = f x) : Shows f s (s.modSlot c g) := by
  intro d
  rw [slot_modSlot]
  split
  next e => rw [h, e]
  · rfl

theorem setColl_shows (v : Collective) : Shows f s (s.setColl v) := .of_slots rfl

theorem bump_shows (c : Ctr) (i n : Nat) : Shows f s (s.bump c i n) := .of_slots (by simp)

theorem runBad_shows (hf : HaltBlind f) (b : Bool) : Shows f s (s.runBad b) := .of_halts hf (runBad_cuts s b).slots

theorem collComplete_shows (img : Image) (b : Binding) (r : CollRun) : Shows f s (s.collComplete img b r) := by
  refine .of_slots ?_
  unfold State.collComplete
  extract_lets +onlyGivenNames d z v sc w
  have signalled : w.slots = v.slots := by
    unfold w
    split
    · rw [(fireSignals_atStations _ _ _).eq]
      rfl
    · rfl
  exact signalled

/-! ## Messages -/

variable (hf : HaltBlind f)
include hf

theorem sendMessage_shows (n : Nat) (data : List Byte) (poison : List Nat) (sect : Nat) :
    Shows f s (s.sendMessage n data poison sect).1 := by
  have handed : Shows f s (s.setFlow n { s.flow n with
      out := (s.flow n).out ++ [{ num := (s.flow n).nextMsg, data := data, poison := poison, sect := sect, off := 0 }],
      nextMsg := ((s.flow n).nextMsg + 1) % 2 ^ 32 }) := .of_slots rfl
  exact handed.trans (runBad_shows _ hf _)

theorem sendColl_shows (b : Binding) (rank : Nat) (h : CollHdr) (body : List Byte) (poison : List Nat) (sect : Nat) :
    Shows f s (s.sendColl b rank h body poison sect).1 := by
  unfold State.sendColl
  split
  · exact .refl s
  · exact (sendMessage_shows s hf _ _ _ _).trans (bump_shows _ _ _ _)

theorem sendSpan_shows (b : Binding) (rank : Nat) (h : CollHdr) (body : List Byte) (poison : List Nat) (sect : Nat) :
    Shows f s (s.sendSpan b rank h body poison sect) := by
  have sent := sendColl_shows s hf b rank h body poison sect
  unfold State.sendSpan
  dsimp only
  split
  · exact .refl s
  · split
    · exact sent.trans (setColl_shows _ _)
    · exact sent

theorem sendUnit_shows (b : Binding) (rank : Nat) (h : CollHdr) (x : UnitDesc) (k sect : Nat) (vals : Nat → PVal) :
    Shows f s (s.sendUnit b rank h x k sect vals) := .foldl (fun y _ => sendSpan_shows y hf _ _ _ _ _ _) _ s

theorem sendVote_shows (b : Binding) (rank stage epoch : Nat) (v : VoteRec) : Shows f s (s.sendVote b rank stage epoch v) :=
  sendColl_shows s hf _ _ _ _ _ _

/-! ## Votes, and what the engine can finish -/

theorem takeResult_shows (c : Nat) (b : Binding) (v : VoteRec) : Shows f s (s.takeResult c b v) := by
  unfold State.takeResult
  exact (setColl_shows s _).trans (.foldl (fun x r => sendVote_shows x hf _ _ _ _ _) _ _)

theorem takeVote_shows (c : Nat) (b : Binding) (v : VoteRec) : Shows f s (s.takeVote c b v) := by
  unfold State.takeVote
  split
  · exact .refl s
  · extract_lets +onlyGivenNames z x need
    have counted : Shows f s x := setColl_shows s _
    split
    · exact counted
    · split
      · exact counted
      · dsimp only
        split
        · exact counted.trans (takeResult_shows x hf _ _ _)
        · exact counted.trans (sendVote_shows x hf _ _ _ _ _)

/-- A vote is remembered in the slot, and nothing else. -/
theorem castVote_shows (hv : ∀ x, f { x with step := { x.step with voted := true } } = f x) (c : Nat) (b : Binding) :
    Shows f s (s.castVote c b) := by
  unfold State.castVote
  extract_lets +onlyGivenNames v w
  have voted : Shows f s w := .modSlot s c hv
  split
  · exact voted.trans (takeVote_shows w hf _ _ _)
  · exact voted.trans (sendVote_shows w hf _ _ _ _ _)

/-- What the engine finishes of a step is its vote alone. -/
theorem collProgress_shows (hv : ∀ x, f { x with step := { x.step with voted := true } } = f x) : Shows f s s.collProgress := by
  unfold State.collProgress
  split
  · exact .refl s
  next c img b _ =>
    extract_lets +onlyGivenNames v st z w
    have done : Shows f s v := by
      refine .foldl (fun x r => ?_) _ s
      split
      · exact collComplete_shows x _ _ _
      · exact .refl x
    split
    · exact done.trans (castVote_shows v hf hv _ _)
    · split
      · have asked : Shows f v w := setColl_shows v _
        split
        · exact (done.trans asked).trans (castVote_shows w hf hv _ _)
        · exact done.trans asked
      · exact done

end

/-! ## Pages and objects -/

section
variable (s : State)

theorem zeroFill_paged (e : Nat) : Paged s (s.zeroFill e) := by
  unfold State.zeroFill
  extract_lets +onlyGivenNames m
  split
  · have cleaned : Paged s (s.cleanFrame m.tier m.frame) := .of_eq rfl rfl rfl
    have cleared : Paged (s.cleanFrame m.tier m.frame) ((s.cleanFrame m.tier m.frame).frameClear m.tier m.frame) :=
      (setMem_quits _ _ _).toPaged
    have filled (x : State) (v : MapEntry) : Paged x (x.setEntry e v) := .of_eq rfl rfl rfl
    exact ((cleaned.trans cleared).trans (filled _ _)).trans (bump_paged _ _ _ _)
  · exact .refl s

theorem pageWrite_paged (c e object off : Nat) (bs : List Byte) (bad : Nat → Bool) : Paged s (s.pageWrite c e object off bs bad) := by
  unfold State.pageWrite
  extract_lets +onlyGivenNames z more w m k x
  have spared : Paged z w := by
    unfold w
    split
    · exact .refl z
    · exact spareList_paged z _ _ _ _
  have written : Paged w x := (setMem_quits w _ _).toPaged
  refine (((zeroFill_paged s e).trans spared).trans written).trans ?_
  exact .of_eq rfl rfl rfl

end

/-! ## Errors that reads of objects find -/

section
variable {α : Type} {f : Slot → α} (s : State) (hf : HaltBlind f)
include hf

theorem tierFault_shows (e k gran : Nat) : Shows f s (s.tierFault e k gran) := by
  unfold State.tierFault
  extract_lets +onlyGivenNames m
  have told (r : EvtRec) : Shows f s (s.report r) := .of_paged hf (report_paged s r)
  split
  · exact .refl s
  · dsimp only
    split
    · split
      · exact told _
      · exact .of_paged hf (abortingError_paged s _ _)
    · split
      · exact (told _).trans (.of_halts hf (markStepBad_cuts _ _).slots)
      · exact told _

theorem tierError_shows (e k gran : Nat) : Shows f s (s.tierError e k gran) := by
  unfold State.tierError
  extract_lets +onlyGivenNames v w
  have evacuated : Shows f s v := .of_paged hf (evacFrame_paged s e k)
  split
  · exact evacuated.trans (.of_paged hf (report_paged v _))
  · refine Shows.trans (evacuated.trans ?_) (tierFault_shows w hf e k gran)
    unfold w
    split
    · exact .of_paged hf (poisonGran_paged v _ _ _ _)
    · exact .refl v

theorem objErrors_shows (c : Nat) (errs : List ObjError) : Shows f s (s.objErrors c errs) := by
  refine .foldl (fun x q => ?_) _ s
  dsimp only
  split
  · exact .refl x
  · split
    · exact .refl x
    · split
      · exact .of_paged hf (corrected_paged x _ _)
      · exact tierError_shows x hf _ _ _

end

end Sys2Proof.Proofs
end

section
/-! The units of a collective leave of a context's slot its image, its binding, its run and the collectives issued in the step (R343). -/

namespace Sys2Proof.Proofs

open Sys2Proof Sys2Proof.Machine Sys2Proof.Laws

/-- What a `COLL` goes by in its context's slot. -/
def roster (x : Slot) : Option Image × Option Binding × Option Run × List Nat := (x.image, x.binding, x.run, x.step.collIssued)

theorem roster_halts : HaltBlind roster := by
  rintro x _ ⟨_, _, _, rfl, _⟩
  rfl

variable (s : State)

/-! ## Objects -/

/-- A page written is remembered in the step, and nothing else of the slot. -/
theorem dirtyPage_shows (c object page : Nat) : Shows roster s (s.dirtyPage c object page) := by
  unfold State.dirtyPage
  split
  · split
    · exact .modSlot s c fun _ => rfl
    · exact .refl s
  · exact .refl s

theorem objWrite_shows (c object b : Nat) (bs : List Byte) (bad : Nat → Bool) : Shows roster s (s.objWrite c object b bs bad) := by
  unfold State.objWrite
  split
  · exact .refl s
  · exact .foldl (fun x q => (Shows.of_paged roster_halts (pageWrite_paged x _ _ _ _ _ _)).trans (dirtyPage_shows _ _ _ _)) _ s

theorem tilePut_shows (c : Nat) (d : ObjDesc) (f : Fmt) (r col code scale : Nat) (bad : Bool) :
    Shows roster s (s.tilePut c d f r col code scale bad) := by
  unfold State.tilePut
  split
  dsimp only
  split
  · exact (objWrite_shows s _ _ _ _ _).trans (objWrite_shows _ _ _ _ _ _)
  · exact objWrite_shows s _ _ _ _ _

theorem wholeGranules_shows (c object : Nat) (spans : List (Nat × Nat × Bool)) : Shows roster s (s.wholeGranules c object spans) := by
  unfold State.wholeGranules
  refine .foldl (fun x g => ?_) _ s
  dsimp only
  split
  · exact objWrite_shows x _ _ _ _ _
  · exact .refl x

theorem tilePutAll_shows (c : Nat) (d : ObjDesc) (f : Fmt) (cols : Nat) (es : List OutElem) :
    Shows roster s (s.tilePutAll c d f cols es) :=
  (Shows.foldl (fun x _ => tilePut_shows x c d f _ _ _ _ _) es s).trans (wholeGranules_shows _ _ _ _)

theorem stampPages_shows (c object a n epoch : Nat) : Shows roster s (s.stampPages c object a n epoch) := by
  unfold State.stampPages
  split
  · exact .refl s
  · refine .foldl (fun x q => ?_) _ s
    exact .of_slots rfl

theorem writeResid_shows (c : Nat) (d : CollDesc) (u : UnitDesc) (es : Nat → PVal) : Shows roster s (s.writeResid c d u es) :=
  .foldl (fun x _ => objWrite_shows x _ _ _ _ _) _ s

/-! ## Late contributions -/

theorem stragWrite_shows (die rec' : Nat) : Shows roster s (s.stragWrite die rec') := by
  unfold State.stragWrite
  dsimp only
  split
  · exact setColl_shows s _
  · exact (setColl_shows s _).trans (bump_shows _ _ _ _)

theorem dropLate_shows (die : Nat) (x : Contrib) (outcome late : Nat) : Shows roster s (s.dropLate die x outcome late) :=
  ((setColl_shows s _).trans (bump_shows _ _ _ _)).trans (stragWrite_shows _ _ _)

theorem lateArrived_shows (die : Nat) (x : Contrib) : Shows roster s (s.lateArrived die x) := by
  unfold State.lateArrived
  dsimp only
  split
  · exact .refl s
  · split
    · exact (setColl_shows s _).trans (dropLate_shows _ _ _ _ _)
    · exact ((setColl_shows s _).trans (setColl_shows _ _)).trans (stragWrite_shows _ _ _)

theorem takeFolds_shows (die unit stage : Nat) : Shows roster s (s.takeFolds die unit stage).1 := by
  unfold State.takeFolds
  extract_lets +onlyGivenNames mine held z v
  have taken : Shows roster s v := setColl_shows s _
  split
  · exact taken.trans (.foldl (fun x y => dropLate_shows x _ _ _ _) _ v)
  · exact (taken.trans (setColl_shows v _)).trans (bump_shows _ _ _ _)

theorem markLate_shows (e id unit stage : Nat) (u : UnitDesc) (senders : List Nat) :
    Shows roster s (s.markLate e id unit stage u senders) := by
  unfold State.markLate
  refine .foldl (fun x r => ?_) _ s
  split
  · split
    · exact .refl x
    · exact setColl_shows x _
  · exact setColl_shows x _

theorem writeFoldSum_shows (c : Nat) (u : UnitDesc) (folds : List Contrib) : Shows roster s (s.writeFoldSum c u folds) := by
  unfold State.writeFoldSum
  split
  · exact .refl s
  · exact objWrite_shows s _ _ _ _ _

/-! ## Closes -/

theorem completeLog_shows (c : Nat) (img : Image) (b : Binding) (id unit : Nat) (sum : Nat → PVal) :
    Shows roster s (s.completeLog c img b id unit sum) := by
  unfold State.completeLog
  extract_lets +onlyGivenNames d u n vals codes bad v w z x
  have logged : Shows roster s x := ((objWrite_shows s _ _ _ _ _).trans (objWrite_shows v _ _ _ _ _)).trans (setColl_shows w _)
  split
  · split
    · exact logged
    · split
      · exact logged
      · exact ((logged.trans (tilePutAll_shows x _ _ _ _ _)).trans (bump_shows _ _ _ _)).trans (bump_shows _ _ _ _)
  · refine Shows.trans (Shows.trans logged (.foldl (fun y i => ?_) _ x)) (setColl_shows _ _)
    exact sendUnit_shows y roster_halts b (b.holder i) _ u 0 noSect _

theorem sendGroupSum_shows (c : Nat) (img : Image) (b : Binding) (id unit : Nat) :
    Shows roster s (s.sendGroupSum c img b id unit) := by
  unfold State.sendGroupSum
  dsimp only
  split
  · split
    · exact sendUnit_shows s roster_halts _ _ _ _ _ _ _
    · exact .refl s
  · exact .refl s

theorem closeStage1_shows (c : Nat) (img : Image) (b : Binding) (id unit : Nat) : Shows roster s (s.closeStage1 c img b id unit) := by
  unfold State.closeStage1
  extract_lets +onlyGivenNames d u e senders cs r v vals bad g z w
  have closed : Shows roster s w :=
    (((takeFolds_shows s _ _ _).trans (markLate_shows _ _ _ _ _ _ _)).trans (writeFoldSum_shows _ _ _ _)).trans (setColl_shows v _)
  split
  · exact closed.trans (sendGroupSum_shows w _ _ _ _ _)
  · exact closed.trans (completeLog_shows w _ _ _ _ _ _)

/-- Before a contribution of its own, a group owner closes stage 1 alone (R351). -/
theorem closeDue_shows (c : Nat) (img : Image) (b : Binding) (id unit : Nat) : Shows roster s (s.closeDue c img b id unit false) := by
  unfold State.closeDue
  dsimp only
  rw [Bool.false_and, if_neg Bool.false_ne_true]
  split
  · exact closeStage1_shows s _ _ _ _ _
  · exact .refl s

/-! ## A unit -/

theorem ownContrib_shows (c : Nat) (b : Binding) (id unit : Nat) (u : UnitDesc) (vals : Nat → PVal) (w : Nat) :
    Shows roster s (s.ownContrib c b id unit u vals w) := by
  unfold State.ownContrib
  dsimp only
  split
  · exact (setColl_shows s _).trans (lateArrived_shows _ _ _)
  · split
    · exact .refl s
    · exact setColl_shows s _

theorem reduceUnit_shows (c : Nat) (img : Image) (b : Binding) (id unit w : Nat) : Shows roster s (s.reduceUnit c img b id unit w) := by
  unfold State.reduceUnit
  extract_lets +onlyGivenNames d u vals owner h es
  split
  · exact .refl s
  · split
    · exact (((closeDue_shows s _ _ _ _ _).trans (ownContrib_shows _ _ _ _ _ _ _ _)).trans (sendGroupSum_shows _ _ _ _ _ _)).trans
        (runBad_shows _ roster_halts _)
    · split
      · exact .refl s
      · split
        · exact sendUnit_shows s roster_halts _ _ _ _ _ _ _
        · exact (sendUnit_shows s roster_halts _ _ _ _ _ _ _).trans (writeResid_shows _ _ _ _ _)

theorem gatherWrite_shows (c : Nat) (img : Image) (u : UnitDesc) (epoch : Nat) (es : List OutElem) :
    Shows roster s (s.gatherWrite c img u epoch es) := by
  unfold State.gatherWrite
  split
  · exact (tilePutAll_shows s _ _ _ _ _).trans (.foldl (fun x e => stampPages_shows x _ _ _ _ _) es _)
  · exact .refl s

theorem gatherSend_shows (b : Binding) (h : CollHdr) (u : UnitDesc) (f : Fmt) (sect : Nat) (es : List OutElem)
    (has : Nat × Nat → Bool) : Shows roster s (s.gatherSend b h u f sect es has) := by
  unfold State.gatherSend
  exact .foldl (fun x rank => .foldl (fun y sp => sendSpan_shows y roster_halts _ _ _ _ _ _) _ x) _ s

theorem regather_shows (c : Nat) (img : Image) (b : Binding) (id unit w : Nat) : Shows roster s (s.regather c img b id unit w) := by
  unfold State.regather
  dsimp only
  split
  · split
    · exact .refl s
    · exact gatherSend_shows s _ _ _ _ _ _ _
  · exact .refl s

theorem gatherUnit_shows (c : Nat) (img : Image) (b : Binding) (id unit w : Nat) : Shows roster s (s.gatherUnit c img b id unit w) := by
  unfold State.gatherUnit
  extract_lets +onlyGivenNames d u
  split
  · exact regather_shows s _ _ _ _ _ _
  · split
    · extract_lets +onlyGivenNames cc master r es v
      have written : Shows roster s v := by
        unfold v
        split
        · exact .refl s
        · exact (((bump_shows s _ _ _).trans (bump_shows _ _ _ _)).trans (gatherWrite_shows _ _ _ _ _ _)).trans (setColl_shows _ _)
      exact written.trans (gatherSend_shows v _ _ _ _ _ _ _)
    · exact .refl s

end Sys2Proof.Proofs
end

section
/-! `MANIFEST` and `TURN` at their issue (O40): each joins its queue, and its own effect writes in no store. -/

namespace Sys2Proof.Proofs

open Sys2Proof Sys2Proof.Machine Sys2Proof.Laws

/-! ### `MANIFEST` -/

/-- The Manifest of a departure as it enters the Pilot queue (R293). -/
def manifestOf (h : Head) (pr : Prog) : Manifest :=
  let o := manifestOps h.word
  { dep := pr.id, issueLt := pr.issueLt, sect := h.sect, object := o.object, first := o.first, count := o.count,
    writeBack := o.back, siding := o.siding, forSect := o.forSect, token := o.token, fetched := 0, arrived := 0, bursts := [], wbs := [],
    failed := false, cancelled := false }

/-- A Siding with a position reserved for each Waybill of a fill (R288). -/
def waybillsReserved (o : ManifestOps) (sect : Nat) (id : DepId) (d : Siding) : Siding :=
  (List.range o.count).foldl (fun d i => d.reserve (.waybill id i) 0 0 0 0 o.forSect 0 (o.forSect != sect)) d

/-- The Station of a `MANIFEST` after its effect (R288, R293). -/
def manifested (st : Station) (h : Head) (pr : Prog) : Station :=
  let o := manifestOps h.word
  let st := { st with pilot := st.pilot ++ [manifestOf h pr], named := st.named ++ [(o.forSect, o.token)] }
  if o.back then st else st.setSiding o.siding (waybillsReserved o h.sect pr.id (st.siding o.siding))

theorem manifestEffect_eq (w : State) (k : Nat) (h : Head) (pr : Prog) :
    manifestEffect w k h pr = w.setStation k (manifested (w.station k) h pr) := rfl

/-- Every Waybill takes the next number and one position (R288). -/
theorem waybillsReserved_counts (o : ManifestOps) (sect : Nat) (id : DepId) (d : Siding) :
    (waybillsReserved o sect id d).next = d.next + o.count ∧
    (waybillsReserved o sect id d).slots.length = d.slots.length + o.count := by
  unfold waybillsReserved
  induction o.count with
  | zero => exact ⟨rfl, rfl⟩
  | succ n ih =>
    obtain ⟨next, slots⟩ := ih
    rw [List.range_succ, List.foldl_append, List.foldl_cons, List.foldl_nil]
    refine ⟨congrArg (· + 1) next, ?_⟩
    rw [Siding.reserve, List.length_append, slots]
    rfl

section
variable (st : Station) (h : Head) (pr : Prog)

theorem manifested_pilot : (manifested st h pr).pilot = st.pilot ++ [manifestOf h pr] := by
  unfold manifested
  dsimp only
  split <;> rfl

theorem manifested_store : (manifested st h pr).store = st.store := by
  unfold manifested
  dsimp only
  split <;> rfl

/-- A write-back reserves nothing. -/
theorem manifested_back (hb : (manifestOps h.word).back = true) : (manifested st h pr).sidings = st.sidings := by
  unfold manifested
  dsimp only
  rw [if_pos hb]

theorem manifested_fill (hb : (manifestOps h.word).back = false) :
    (manifested st h pr).siding (manifestOps h.word).siding =
      waybillsReserved (manifestOps h.word) h.sect pr.id (st.siding (manifestOps h.word).siding) := by
  unfold manifested
  dsimp only
  rw [if_neg (Bool.eq_false_iff.1 hb), Station.setSiding, Station.siding, tget_tset_self]
  rfl

end

section
variable {s : State} {k : Fin 128} {j : Fin 4} {t : IssueTick} {h : Head}

/-- R288, R293: a `MANIFEST` enters the Pilot queue, and a fill reserves its positions. -/
theorem manifest_enters (hi : s.issues k j t manifestRule h) :
    let o := manifestOps h.word
    ∃ u m, exec (.manifest k j t) s = .next u ∧ s.departed u ∧ s.sameStores u ∧
      (u.station k).pilot = (s.station k).pilot ++ [m] ∧ m.dep = s.depId k j h ∧ m.object = o.object ∧ m.first = o.first ∧
      m.count = o.count ∧ m.writeBack = o.back ∧ m.forSect = o.forSect ∧ m.token = o.token ∧ m.fetched = 0 ∧ m.wbs = [] ∧
      (o.back = true → (u.station k).sidings = (s.station k).sidings) ∧
      (o.back = false → ((u.station k).siding o.siding).next = ((s.station k).siding o.siding).next + o.count ∧
        ((u.station k).siding o.siding).slots.length = ((s.station k).siding o.siding).slots.length + o.count) := by
  intro o
  let pr := startedProg s k j t h
  let v := manifested ((issuing s k j t h).station k) h pr
  have runs : exec (.manifest k j t) s = .next (settled s k j t h v) := congrArg _ (issue_unread hi rfl)
  have sees {β : Type} {f : Station → β} (hl) : f ((settled s k j t h v).station k) = f v := settled_sees s k j t h v hl
  have began {β : Type} {f : Station → β} (hf) : f ((issuing s k j t h).station k) = f (s.station k) :=
    issuing_keeps (f := f) hf k j t h k
  have stores : s.sameStores (settled s k j t h v) := settled_sameStores s k j t h v (manifested_store _ h pr)
  refine ⟨_, manifestOf h pr, runs, settled_departed s k j t h v, stores, ?_, startedProg_id k j t h, rfl, rfl, rfl, rfl, rfl, rfl, rfl,
    rfl, fun hb => ?_, fun hb => ?_⟩
  · rw [sees (f := Station.pilot) fun _ _ => rfl, manifested_pilot, began (f := Station.pilot) fun _ _ _ _ _ _ _ => rfl]
  · rw [sees (f := Station.sidings) fun _ _ => rfl, manifested_back _ h pr hb, began (f := Station.sidings) fun _ _ _ _ _ _ _ => rfl]
  · rw [sees (f := fun st => st.siding o.siding) fun _ _ => rfl, manifested_fill _ h pr hb,
      began (f := fun st => st.siding o.siding) fun _ _ _ _ _ _ _ => rfl]
    exact waybillsReserved_counts o h.sect pr.id _

end

/-! ### `TURN` -/

/-- Behind requests of other cycles, a request joins at the end (R245). -/
theorem queueTurn_append (r : TurnReq) (l : List TurnReq) (h : ∀ x ∈ l, x.sc ≠ r.sc) : queueTurn r l = l ++ [r] := by
  induction l with
  | nil => rfl
  | cons q l ih =>
    have other : ¬((q :: l).all (fun x => x.sc == r.sc && decide (r.station < x.station)) = true) := by
      simp [h q List.mem_cons_self]
    rw [queueTurn, if_neg other, ih fun x hx => h x (List.mem_cons_of_mem _ hx)]
    rfl

section
variable (w : State) (k : Nat) (h : Head) (pr : Prog)

/-- What a `TURN` asks of its Turntable (R240, R245). -/
def turnReqOf : TurnReq :=
  let rc := (turnCoords (w.station k) (turnOps h.word)).1
  { station := k, dep := pr.id, sect := h.sect, word := h.word, row := rc.1, col := rc.2, sc := pr.issueSc }

/-- The state in which the queue of its Turntable has taken a `TURN`. -/
def turnQueued : State :=
  { w with turns := tset w.turns (turnOf k) (queueTurn (turnReqOf w k h pr) (tget [] w.turns (turnOf k))) }

/-- Coordinates that are not indirect stand in the word (R240). -/
theorem turnReqOf_direct (hc : (turnOps h.word).cind = false) :
    (turnReqOf w k h pr).row = (turnOps h.word).trow ∧ (turnReqOf w k h pr).col = (turnOps h.word).tcol := by
  simp [turnReqOf, turnCoords, hc]

/-- Once it has joined the queue, a `TURN` only claims its Siding position (R300): books, Turntables and stores stay. -/
theorem turnEffect_claims :
    Works (turnQueued w k h pr) (turnEffect w k h pr) ∧ Keeps Station.store (turnQueued w k h pr) (turnEffect w k h pr) := by
  unfold turnEffect
  extract_lets +onlyGivenNames o
  split
  next rc bad hrc =>
    extract_lets +onlyGivenNames n req v x d
    have joined : turnQueued w k h pr = v := by
      simp only [turnQueued, turnReqOf, v, req, n, o, hrc]
    have marked : Works v x := runBad_works v bad
    have unmoved : Keeps Station.store v x := runBad_keeps v bad
    rw [joined]
    split
    · split
      next p _ =>
        have claimed : Works x (x.modProg k pr.id (fun q => { q with claim := p.num })) := modProg_works x k pr.id _ fun _ => ⟨rfl, rfl⟩
        have kept : Keeps Station.store x (x.modProg k pr.id (fun q => { q with claim := p.num })) :=
          modProg_keeps x (fun _ _ => rfl) k pr.id _
        exact ⟨(marked.trans claimed).trans (modStation_works _ _ fun _ => by rfl),
          (unmoved.trans kept).trans (.modStation _ fun _ => by rfl)⟩
      · exact ⟨marked, unmoved⟩
    · exact ⟨marked, unmoved⟩

end

theorem departed_turns {s t : State} (h : s.departed t) : t.turns = s.turns := by
  unfold State.departed at h
  rw [h]

theorem sectorLooked_stores (s : State) (k : Nat) : Keeps Station.store s (sectorLooked s k) := by
  unfold sectorLooked
  exact .foldl s (fun x i => noteFills_keeps x (fun _ _ => rfl) _) _

section
variable {s : State} {k : Fin 128} {j : Fin 4} {t : IssueTick} {h : Head}

/-- From the effect of a `TURN` to the end of its command, neither the queues of the Turntables nor a store changes. -/
theorem turn_runs (hi : s.issues k j t turnRule h) :
    let w := effectStart s k j t h turnRule
    ∃ u, exec (.turn k j t) s = .next u ∧ u.turns = (turnQueued w k h (startedProg s k j t h)).turns ∧ s.sameStores u ∧
      u.cycle h.p = (startedProg s k j t h).issueSc := by
  intro w
  let pr := startedProg s k j t h
  let v := issue turnRule k j t s
  have looked := (issue_issued (i := .turn k j t) rfl hi).spares (sectorLooked_works v k).spares
  have moved : (((sectorLooked v k).station k).line j).next ≠ ((s.station k).line j).next := by
    rw [looked.next]
    exact Nat.succ_ne_self _
  have waited : Logged (sectorLooked v k) ((sectorLooked v k).turnQueueWait k j t.sc ((s.station k).line j)) :=
    turnQueueWait_logged t.sc moved
  obtain ⟨works, kept⟩ := turnEffect_claims w k h pr
  have noted : v.turns = (turnEffect w k h pr).turns := by
    rw [show v = (turnEffect w k h pr).note ((s.atIssue h t).station k) k from issue_of_issues hi, (note_atStations _ _ _).eq]
  have began : Keeps Station.store w (turnEffect w k h pr) := Keeps.trans (.of_eq rfl rfl) kept
  have rest : Keeps Station.store v ((sectorLooked v k).turnQueueWait k j t.sc ((s.station k).line j)) :=
    (sectorLooked_stores v k).trans (.of_logged waited)
  refine ⟨_, turn_exec k j t s, ?_, sameStores_trans_keeps (issue_sameStores hi began) rest, ?_⟩
  · rw [(Works.of_logged waited).turns, (sectorLooked_works v k).turns, noted, works.turns]
  · exact (rest.cycle h.p).trans (issue_cycle hi began)

/-- R245: a `TURN` joins the queue of its Sector's Turntable, and no other queue changes. -/
theorem turn_joins (hi : s.issues k j t turnRule h) :
    ∃ u q, exec (.turn k j t) s = .next u ∧ s.sameStores u ∧
      tget [] u.turns (turnOf k) = queueTurn q (tget [] s.turns (turnOf k)) ∧ q.station = k.val ∧ q.dep = s.depId k j h ∧
      q.word = h.word ∧ q.sc = u.cycle h.p ∧
      ((∀ x ∈ tget [] s.turns (turnOf k), x.sc ≠ q.sc) →
        tget [] u.turns (turnOf k) = tget [] s.turns (turnOf k) ++ [q]) ∧
      ((turnOps h.word).cind = false → q.row = (turnOps h.word).trow ∧ q.col = (turnOps h.word).tcol) ∧
      ∀ n, n ≠ turnOf k → tget [] u.turns n = tget [] s.turns n := by
  obtain ⟨u, runs, turns, stores, cycle⟩ := turn_runs hi
  let w := effectStart s k j t h turnRule
  let q := turnReqOf w k h (startedProg s k j t h)
  have before : w.turns = s.turns := (storeErrors_works _ _ _ _ _ _).turns.trans (departed_turns (issuing_departed k j t h))
  have queues : u.turns = tset s.turns (turnOf k) (queueTurn q (tget [] s.turns (turnOf k))) := by
    rw [turns, turnQueued, before]
  have joined : tget [] u.turns (turnOf k) = queueTurn q (tget [] s.turns (turnOf k)) := by rw [queues, tget_tset_self]
  refine ⟨u, q, runs, stores, joined, rfl, startedProg_id k j t h, rfl, cycle.symm, fun hx => ?_, turnReqOf_direct w k h _,
    fun n hn => ?_⟩
  · rw [joined, queueTurn_append q _ hx]
  · rw [queues, tget_tset_ne _ _ _ _ _ hn]

end

end Sys2Proof.Proofs
end

section
/-! `COLL` and `RIGHT_AWAY` at their issue (O40): what they write in the step of their context, and the stores of the Stations. -/

namespace Sys2Proof.Proofs

open Sys2Proof Sys2Proof.Machine Sys2Proof.Laws

/-! ### The Stations -/

theorem Keeps.of_apart {α : Type} {f : Station → α} {s t : State} (h : Apart s t) : Keeps f s t := by
  obtain ⟨stations, cycles, -⟩ := h
  exact .of_eq cycles stations

section
variable {α : Type} {f : Station → α} (s : State) (hp : ∀ st x, f { st with progs := x } = f st)
  (ht : ∀ st x, f { st with transit := x } = f st)
include hp ht

theorem collComplete_keeps (img : Image) (b : Binding) (r : CollRun) : Keeps f s (s.collComplete img b r) := by
  unfold State.collComplete
  extract_lets +onlyGivenNames d z v sc w
  have ended : Keeps f s v := .of_eq rfl rfl
  have signalled : Keeps f v w := by
    unfold w
    split
    · exact (modProg_keeps v hp 0 r.dep _).trans (fireSignals_keeps _ 0 _ ht)
    · exact .refl v
  exact (ended.trans signalled).trans (.modStation w fun st => ht st _)

/-- What the collective engine finishes changes of a Station its departures and what is on its way to it. -/
theorem collProgress_keeps : Keeps f s s.collProgress := by
  unfold State.collProgress
  split
  · exact .refl s
  next c img b _ =>
    extract_lets +onlyGivenNames v st z w
    have done : Keeps f s v := by
      refine .foldl s (fun x r => ?_) _
      split
      · exact collComplete_keeps x hp ht _ _ _
      · exact .refl x
    have cast (x : State) : Keeps f x (x.castVote c b) := .of_apart (castVote_apart x _ _)
    split
    · exact done.trans (cast v)
    · split
      · have asked : Keeps f v w := .of_eq rfl rfl
        split
        · exact (done.trans asked).trans (cast w)
        · exact done.trans asked
      · exact done

end

/-! ### The issue -/

/-- An effect finds the slots as they were, but for a step that errors in the store have marked. -/
theorem effectStart_shows {α : Type} {f : Slot → α} (hf : HaltBlind f) (s : State) (k j : Nat) (t : IssueTick) (h : Head) (r : DepRule) :
    Shows f s (effectStart s k j t h r) := by
  have began : Shows f s (issuing s k j t h) := .of_slots (departed_fields (issuing_departed k j t h)).2.1
  exact began.trans (.of_halts hf (storeErrors_cuts _ _ _ _ _ _).slots)

/-- After its effect, an issue leaves the slots. -/
theorem issue_slot {s : State} {k j : Nat} {t : IssueTick} {h : Head} {r : DepRule} (hi : s.issues k j t r h) (c : Nat) :
    (issue r k j t s).slot c = (r.effect (effectStart s k j t h r) k h (startedProg s k j t h)).slot c := by
  rw [issue_of_issues hi]
  exact atStations_slot (note_atStations _ _ _) c

/-! ### `COLL` -/

section
variable (errs : List ObjError) (w : State) (k : Nat) (h : Head) (pr : Prog)

theorem collEffect_stores : Keeps Station.store w (collEffect errs w k h pr) := by
  unfold collEffect
  extract_lets +onlyGivenNames v id
  have read : Keeps Station.store w v := .of_apart (objErrors_apart w _ _)
  split
  · extract_lets +onlyGivenNames d lag x y z a
    have units : Apart z a := by
      refine .foldl _ (fun u n => ?_) _ z
      split
      · exact gatherUnit_apart u _ _ _ _ _ _
      · exact reduceUnit_apart u _ _ _ _ _ _
    have begun : Keeps Station.store v z := .of_eq rfl rfl
    exact ((read.trans begun).trans (.of_apart units)).trans (collProgress_keeps a (fun _ _ => rfl) fun _ _ => rfl)
  · exact read

/-- R343: in a context that runs and is bound, a `COLL` is listed as issued in the step; its units, and what the engine can then finish,
leave that list. -/
theorem collEffect_issued {img : Image} {b : Binding} {run : Run} (hm : (w.slot h.c).image = some img)
    (hb : (w.slot h.c).binding = some b) (hr : (w.slot h.c).run = some run) :
    ((collEffect errs w k h pr).slot h.c).step.collIssued = (w.slot h.c).step.collIssued ++ [collId h.word] := by
  unfold collEffect
  extract_lets +onlyGivenNames v id
  have read : roster (v.slot h.c) = roster (w.slot h.c) := objErrors_shows w roster_halts h.c errs h.c
  simp only [roster, Prod.mk.injEq] at read
  obtain ⟨image, binding, running, issued⟩ := read
  split
  · extract_lets +onlyGivenNames d lag x y z a
    have units : Shows roster z a := by
      refine .foldl (fun u n => ?_) _ z
      split
      · exact gatherUnit_shows u _ _ _ _ _ _
      · exact reduceUnit_shows u _ _ _ _ _ _
    have rest : Shows roster x a.collProgress :=
      (Shows.trans (setColl_shows x _) units).trans (collProgress_shows a roster_halts fun _ => rfl)
    have listed : (x.slot h.c).step.collIssued = (w.slot h.c).step.collIssued ++ [id] := by
      rw [← issued, slot_modSlot_self]
    rw [← listed]
    exact congrArg (fun q => q.2.2.2) (rest h.c)
  next unbound => exact (unbound _ _ _ (image.trans hm) (binding.trans hb) (running.trans hr)).elim

end

section
variable {s : State} {k : Fin 128} {j : Fin 4} {t : IssueTick} {h : Head}

/-- R343, R344: `COLL`. -/
theorem coll_issues {errs : List ObjError} (hi : s.issues k j t (collRule errs) h) (hb : (s.slot h.c).binding ≠ none) :
    ∃ u, exec (.coll k j ⟨t, errs⟩) s = .next u ∧
      (u.slot h.c).step.collIssued = (s.slot h.c).step.collIssued ++ [collId h.word] ∧ s.sameStores u := by
  let w := effectStart s k j t h (collRule errs)
  have image := headOf_image hi.1
  obtain ⟨run, running⟩ := headOf_run hi.1
  obtain ⟨b, binding⟩ := Option.ne_none_iff_exists'.1 hb
  have timed : (s.advance t.lt).slot h.c = s.slot h.c := by simp [State.slot]
  rw [timed] at image running
  have began : roster (w.slot h.c) = roster (s.slot h.c) := effectStart_shows roster_halts s k j t h _ h.c
  simp only [roster, Prod.mk.injEq] at began
  obtain ⟨image', binding', running', issued⟩ := began
  refine ⟨_, rfl, ?_, issue_sameStores hi (collEffect_stores errs w k h _)⟩
  rw [issue_slot hi, ← issued]
  exact collEffect_issued errs w k h _ (image'.trans image) (binding'.trans binding) (running'.trans running)

end

/-! ### `RIGHT_AWAY` -/

/-- What a Right-away goes by in its context's slot. -/
def rightAwayOf (x : Slot) : Option Binding × Option (Nat × Nat × Nat) × List (Nat × Nat) × List (Nat × Nat) :=
  (x.binding, x.step.raIssued, x.step.dirty, x.step.pushed)

theorem rightAwayOf_halts : HaltBlind rightAwayOf := by
  rintro x _ ⟨_, _, _, rfl, _⟩
  rfl

/-- R414: the pages go to the holders, and are remembered as gone. -/
theorem pushPages_hands (s : State) (c : Nat) (b : Binding) :
    rightAwayOf ((s.pushPages c b).slot c) =
      ((s.slot c).binding, (s.slot c).step.raIssued, [], (s.slot c).step.pushed ++ (s.slot c).step.dirty) := by
  unfold State.pushPages
  extract_lets +onlyGivenNames pages v
  have sent : Shows rightAwayOf s v := by
    refine .foldl (fun x i => ?_) _ s
    dsimp only
    split
    · split
      · exact .refl x
      · refine .foldl (fun y q => ?_) _ x
        exact ((sendMessage_shows y rightAwayOf_halts _ _ _ _).trans (bump_shows _ _ _ _)).trans (setColl_shows _ _)
    · exact .refl x
  have same := sent c
  simp only [rightAwayOf, Prod.mk.injEq] at same
  obtain ⟨binding, issued, -, pushed⟩ := same
  rw [slot_modSlot_self]
  simp only [rightAwayOf, binding, issued, pushed, pages]

section
variable (w : State) (k : Nat) (h : Head) (pr : Prog)

theorem rightAwayEffect_stores : Keeps Station.store w (rightAwayEffect w k h pr) := by
  unfold rightAwayEffect
  split
  · exact .refl w
  · extract_lets +onlyGivenNames v
    have asked : Keeps Station.store w v := .of_eq rfl rfl
    exact (asked.trans (.of_apart (pushPages_apart v _ _))).trans (collProgress_keeps _ (fun _ _ => rfl) fun _ _ => rfl)

/-- R362, R414: a bound context's Right-away is under way, and its pages have been handed on. -/
theorem rightAwayEffect_hands {b : Binding} (hb : (w.slot h.c).binding = some b) :
    rightAwayOf ((rightAwayEffect w k h pr).slot h.c) =
      (some b, some (pr.id.line, pr.id.index, pr.id.uid), [], (w.slot h.c).step.pushed ++ (w.slot h.c).step.dirty) := by
  unfold rightAwayEffect
  rw [hb]
  extract_lets +onlyGivenNames v
  rw [collProgress_shows (v.pushPages h.c b) rightAwayOf_halts (fun _ => rfl) h.c, pushPages_hands, slot_modSlot_self, hb]

end

section
variable {s : State} {k : Fin 128} {j : Fin 4} {t : IssueTick} {h : Head}

/-- R362, R414: `RIGHT_AWAY`. -/
theorem rightAway_hands (hi : s.issues k j t rightAwayRule h) (hb : (s.slot h.c).binding ≠ none) :
    ∃ u, exec (.rightAway k j t) s = .next u ∧
      (u.slot h.c).step.raIssued = some (j.val, h.index, (s.station k).issued) ∧ (u.slot h.c).step.dirty = [] ∧
      (u.slot h.c).step.pushed = (s.slot h.c).step.pushed ++ (s.slot h.c).step.dirty ∧ s.sameStores u := by
  let w := effectStart s k j t h rightAwayRule
  obtain ⟨b, binding⟩ := Option.ne_none_iff_exists'.1 hb
  have began : rightAwayOf (w.slot h.c) = rightAwayOf (s.slot h.c) := effectStart_shows rightAwayOf_halts s k j t h _ h.c
  simp only [rightAwayOf, Prod.mk.injEq] at began
  obtain ⟨binding', -, dirty, pushed⟩ := began
  have hands := rightAwayEffect_hands w k h (startedProg s k j t h) (binding'.trans binding)
  rw [show rightAwayEffect w k h (startedProg s k j t h) = rightAwayRule.effect w k h (startedProg s k j t h) from rfl, ← issue_slot hi,
    startedProg_id, dirty, pushed] at hands
  simp only [rightAwayOf, Prod.mk.injEq] at hands
  obtain ⟨-, issued, clean, gone⟩ := hands
  exact ⟨_, rfl, issued, clean, gone, issue_sameStores hi (rightAwayEffect_stores w k h _)⟩

end

/-- Settles O40: a `MANIFEST` and a `TURN` join their queues; a `COLL` and a `RIGHT_AWAY` write in the step of their context, of which
their own work leaves those marks. -/
theorem jobDepartures : Obligations.JobDepartures := by
  unfold Obligations.JobDepartures
  exact fun k j t s h => ⟨manifest_enters, turn_joins, fun _ => coll_issues, rightAway_hands⟩

end Sys2Proof.Proofs
end

section
/-! Every command answers a next state, but where it names a frame outside its tier (O3): the meaning of a command is a tree of tests, and
but for the two that name a frame every leaf of it is a next state. -/

namespace Sys2Proof.Proofs

open Sys2Proof Sys2Proof.Machine Sys2Proof.Laws

/-! ## Outcomes that are a next state -/

/-- The outcome is a next state. -/
def Answers (o : Out) : Prop := ∃ t, o = .next t

theorem answers_next (t : State) : Answers (.next t) := ⟨t, rfl⟩

theorem answers_ite {p : Prop} [Decidable p] {a b : Out} (ha : Answers a) (hb : Answers b) : Answers (if p then a else b) := by
  split
  · exact ha
  · exact hb

variable (s : State)

theorem clocked_answers {f : State → Out} (h : ∀ u, Answers (f u)) : Answers (s.clocked f) := by
  unfold State.clocked
  split
  · exact answers_next s
  · exact h s

theorem inSlotOut_answers {f : State → Out} (c : Nat) (h : ∀ u, Answers (f u)) : Answers (s.inSlotOut c f) := by
  obtain ⟨t, ht⟩ := h (s.withSlot c)
  unfold State.inSlotOut
  rw [ht]
  exact answers_next _

/-- A tree of tests answers a next state where every leaf does. The proof that the tree gives by itself follows its tests, with the values
that it names on the way left open. -/
theorem answers_tree {o : Out} (h : Answers o := by
    repeat' first
      | with_reducible exact answers_next _
      | with_reducible refine answers_ite ?_ ?_
      | (extract_lets; clear_value *)
      | split
      | refine clocked_answers _ fun _ => ?_
      | refine inSlotOut_answers _ _ fun _ => ?_) : Answers o := h

theorem runCommand_answers (q op now : Nat) (mine : FetchedCmd → Bool) (fresh again : State → FetchedCmd → State) :
    Answers (s.runCommand q op now mine fresh again) := by
  unfold State.runCommand
  exact answers_tree

/-! ## The commands by the part of the module to which they belong -/

/-- Parts of the module; `frames` stands for the commands that name a frame of a tier. -/
inductive Area where
  | signalBox | departures | frames | stations | memory | network | engines | power | controls

/-- The part of the module to which a command belongs. -/
def area : Instr → Area
  | .identify .. | .resetContext .. | .resetWarm .. | .resetCold .. | .fence .. | .setPolicy .. | .setCap ..
  | .setTime .. | .netConfig .. | .keyInstall .. | .ownerEnrol .. | .loadImage .. | .bind .. | .release .. | .start ..
  | .halt .. | .preempt .. | .resume .. | .cancelSection .. | .depotSnapshot .. | .adopt .. | .census ..
  | .readCensus .. | .readCounters .. | .readLog .. => .signalBox
  | .token .. | .sectionEnd .. | .points .. | .warningBoard .. | .stage .. | .mma .. | .mmaCplx .. | .loopSend ..
  | .loopTake .. | .ballast .. | .groupOpen .. | .groupClose .. | .turn .. | .drain .. | .drainCplx .. | .convert ..
  | .act .. | .ew .. | .norm .. | .vstats .. | .manifest .. | .sidingSet .. | .sidingExpect .. | .coll ..
  | .rightAway .. => .departures
  | .scrubRead .. | .tierTrainingComplete .. => .frames
  | .pointsSelect .. | .departureComplete .. | .tokenSignalLand .. | .waitTimeout .. | .watchdogExpiry ..
  | .sectionBoundary .. | .rowEntry .. | .invalidRowEntry .. | .stagingComplete .. | .checkVerdict .. | .rowRelease ..
  | .accTermWrite .. | .cascadeSpill .. | .drainInterlockEnd .. | .accSave .. | .consistInsert .. | .consistArrive ..
  | .loopFlitParityError .. | .loopReplayRequest .. | .loopHopDown .. | .stationRetire .. | .stepReplay ..
  | .runEpoch .. => .stations
  | .turnRecordServe .. | .waybillBurstFetch .. | .waybillBurstArrive .. | .sidingFillStart .. | .sidingFillLand ..
  | .writebackStart .. | .writebackDone .. | .sidingOverflow .. | .pageMoveStart .. | .pageMoveComplete ..
  | .shuntReadySignal .. => .memory
  | .ethFrameReceive .. | .arpNdpRequest .. | .icmpEchoRequest .. | .gatewayRefresh .. | .bililjoDataReceive ..
  | .bililjoAckReceive .. | .bililjoProbeReceive .. | .bililjoDataSend .. | .ackDelayExpiry .. | .rtoExpiry ..
  | .pathSuspendExpiry .. | .portLockLoss .. | .portRejoin .. | .slotWindowOpen .. | .slotWindowClose ..
  | .keyActivate .. | .keyWithdraw .. | .flowDrainTimeout .. | .cageTrainComplete .. | .osfpInsert .. | .osfpRemove ..
  | .ptpMessageReceive .. | .ptpDelayReqSend .. | .ptpSyncLoss .. | .ppsEdge .. | .holdoverExpire ..
  | .lineTimeCorrect .. | .referenceLoss .. | .pathProbeTimeout .. => .network
  | .collMessageDeliver .. | .stageClose .. | .ueUnitRun .. | .rightAwayCommit .. | .rightAwayReject ..
  | .depotMessageReceive .. | .depotSeed .. | .peerProbe .. | .peerLost .. | .holderAnswerTimeout .. => .engines
  | .clockStretchRequest .. | .marginWarn .. | .trimLapse .. | .ageingMeasure .. | .fastLimitWindow ..
  | .fastCeilingRise .. | .capWindow .. | .thermalWindow .. | .rampMeterGrant .. | .stationFallRequest ..
  | .stationRiseRequest .. | .powerStateRelax .. | .preRampHoldEnd .. | .tempConversion .. | .thermalTrip ..
  | .powerFault .. => .power
  | .sqTailWrite .. | .cqHeadWrite .. | .queueEnable .. | .queueDisable .. | .evtHeadWrite .. | .eventRingEnable ..
  | .registerWrite .. | .commandFetch .. | .mctpRequest .. | .msixMessage .. | .eventRecordFlush .. | .censusLatch ..
  | .inputShutdown .. | .powerUpBegin .. | .inrushComplete .. | .standbyComplete .. | .mainRailsComplete ..
  | .selftestComplete .. | .modReset .. | .perstDeassert .. | .pcieResetPrimary .. | .pcieResetSecondary ..
  | .pcieConfigRequest .. | .pcieLinkDown .. | .pcieLinkUp .. | .i3cDynamicAddress .. => .controls

variable {i : Instr}

theorem signalBox_answers (h : area i = .signalBox) : Answers (exec i s) := by
  cases i <;> cases h
  all_goals
    unfold exec
    exact runCommand_answers _ _ _ _ _ _ _

theorem departures_answer (h : area i = .departures) : Answers (exec i s) := by
  cases i <;> cases h
  all_goals
    unfold exec
    exact answers_next _

theorem stations_answer (h : area i = .stations) : Answers (exec i s) := by
  cases i <;> cases h
  all_goals
    unfold exec
    dsimp only
    delta execPointsSelect execDepartureComplete execTokenSignalLand execWaitTimeout execWatchdogExpiry execSectionBoundary
      execRowEntry execInvalidRowEntry execStagingComplete execCheckVerdict execRowRelease execAccTermWrite execCascadeSpill
      execDrainInterlockEnd execAccSave execConsistInsert execConsistArrive execLoopFlitParityError execLoopReplayRequest
      execLoopHopDown execStationRetire execStepReplay execRunEpoch
    exact answers_tree

theorem memory_answers (h : area i = .memory) : Answers (exec i s) := by
  cases i <;> cases h
  all_goals
    unfold exec
    dsimp only
    delta execTurnRecordServe execWaybillBurstFetch execWaybillBurstArrive execSidingFillStart execSidingFillLand execWritebackStart
      execWritebackDone execSidingOverflow execPageMoveStart execPageMoveComplete execShuntReadySignal
    exact answers_tree

theorem network_answers (h : area i = .network) : Answers (exec i s) := by
  cases i <;> cases h
  all_goals
    unfold exec
    dsimp only
    delta execEthFrameReceive execArpNdpRequest execIcmpEchoRequest execGatewayRefresh execBililjoDataReceive execBililjoAckReceive
      execBililjoProbeReceive execBililjoDataSend execAckDelayExpiry execRtoExpiry execPathSuspendExpiry execPortLockLoss
      execPortRejoin execSlotWindowOpen execSlotWindowClose execKeyActivate execKeyWithdraw execFlowDrainTimeout
      execCageTrainComplete execOsfpInsert execOsfpRemove execPtpMessageReceive execPtpDelayReqSend execPtpSyncLoss execPpsEdge
      execHoldoverExpire execLineTimeCorrect execReferenceLoss execPathProbeTimeout
    exact answers_tree

theorem engines_answer (h : area i = .engines) : Answers (exec i s) := by
  cases i <;> cases h
  all_goals
    unfold exec
    dsimp only
    delta execCollMessageDeliver execStageClose execUeUnitRun execRightAwayCommit execRightAwayReject execDepotMessageReceive
      execDepotSeed execPeerProbe execPeerLost execHolderAnswerTimeout
    exact answers_tree

theorem power_answers (h : area i = .power) : Answers (exec i s) := by
  cases i <;> cases h
  all_goals
    unfold exec
    dsimp only
    delta execClockStretchRequest execMarginWarn execTrimLapse execAgeingMeasure execFastLimitWindow execFastCeilingRise execCapWindow
      execThermalWindow execRampMeterGrant execStationFallRequest execStationRiseRequest execPowerStateRelax execPreRampHoldEnd
      execTempConversion execThermalTrip execPowerFault
    exact answers_tree

theorem controls_answer (h : area i = .controls) : Answers (exec i s) := by
  cases i <;> cases h
  all_goals
    unfold exec
    dsimp only
    delta execSqTailWrite execCqHeadWrite execQueueEnable execQueueDisable execEvtHeadWrite execEventRingEnable execRegisterWrite
      execCommandFetch execMctpRequest execMsixMessage execEventRecordFlush execCensusLatch execInputShutdown execPowerUpBegin
      execInrushComplete execStandbyComplete execMainRailsComplete execSelftestComplete execModReset execPerstDeassert
      execPcieResetPrimary execPcieResetSecondary execPcieConfigRequest execPcieLinkDown execPcieLinkUp execI3cDynamicAddress
    exact answers_tree

/-! ## The commands that name a frame -/

theorem tierFrames_advance (n tier : Nat) : (s.advance n).tierFrames tier = s.tierFrames tier := by
  simp only [State.tierFrames, advance_fields]

theorem answers_or_stops {p : Prop} [Decidable p] {o : Out} (h : Answers o) :
    Answers (if p then .fault .noFrame else o) ∨ (if p then .fault .noFrame else o) = .fault .noFrame ∧ p := by
  split
  next stops => exact .inr ⟨rfl, stops⟩
  · exact .inl h

/-- R255: `SCRUB_READ` stops where its frame, or its granule of a frame, is not there. -/
theorem scrubRead_answers (tier : Fin 3) (frame gran : Nat) (ecc : Ecc) (now : Nat) : Answers (exec (.scrubRead tier frame gran ecc now) s) ∨
    exec (.scrubRead tier frame gran ecc now) s = .fault .noFrame ∧ (s.tierFrames tier ≤ frame ∨ 131072 ≤ gran) := by
  rw [← tierFrames_advance s now]
  unfold exec
  exact answers_or_stops answers_tree

/-- R255: `TIER_TRAINING_COMPLETE` stops where a failed frame is not there. -/
theorem tierTrainingComplete_answers (tier : Fin 3) (bad : List Nat) (now : Nat) : Answers (exec (.tierTrainingComplete tier bad now) s) ∨
    exec (.tierTrainingComplete tier bad now) s = .fault .noFrame ∧ ∃ f ∈ bad, s.tierFrames tier ≤ f := by
  rw [← tierFrames_advance s now]
  show Answers (execTierTrainingComplete tier bad now s) ∨ execTierTrainingComplete tier bad now s = _ ∧ _
  unfold execTierTrainingComplete
  dsimp only
  split
  · exact .inl (answers_next _)
  · refine (answers_or_stops (answers_next _)).imp_right fun ⟨stops, absent⟩ => ⟨stops, ?_⟩
    simpa using absent

/-- Settles O3: by the part of the module to which the command belongs. -/
theorem onlyAbsentFramesStop : Obligations.OnlyAbsentFramesStop := by
  unfold Obligations.OnlyAbsentFramesStop
  intro i s
  cases part : area i with
  | signalBox => exact .inl (signalBox_answers s part)
  | departures => exact .inl (departures_answer s part)
  | stations => exact .inl (stations_answer s part)
  | memory => exact .inl (memory_answers s part)
  | network => exact .inl (network_answers s part)
  | engines => exact .inl (engines_answer s part)
  | power => exact .inl (power_answers s part)
  | controls => exact .inl (controls_answer s part)
  | frames =>
    cases i <;> cases part
    · exact (scrubRead_answers s _ _ _ _ _).imp_right fun ⟨stops, absent⟩ => ⟨stops, .inl ⟨_, _, _, _, _, rfl, absent⟩⟩
    · exact (tierTrainingComplete_answers s _ _ _).imp_right fun ⟨stops, f, hf, absent⟩ => ⟨stops, .inr ⟨_, _, _, f, rfl, hf, absent⟩⟩

end Sys2Proof.Proofs
end

section
/-! A Signal Box command looks for the command that its queue runs (O12): what the look touches, and that a queue which runs no command of
the opcode does no more. -/

namespace Sys2Proof.Proofs

open Sys2Proof Sys2Proof.Machine Sys2Proof.Laws

variable {s : State} {q now op : Nat} {mine : FetchedCmd → Bool}

/-- The look touches line time, the slots, and what replies touch. -/
theorem looked_onlyReplied (s : State) (q now : Nat) :
    ({ s with time := (s.advance now).time, slots := (s.looked q now).slots } : State).onlyReplied (s.looked q now) := by
  obtain ⟨u, replied, hu⟩ := looked_replied s q now
  have began : u = { s with time := (s.advance now).time, slots := u.slots } := by
    rcases hu with rfl | ⟨c, run, -, -, rfl⟩
    · rw [advance_eq_time]
    · rw [advance_eq_time]
      rfl
  have slots : (s.looked q now).slots = u.slots := by
    obtain ⟨_, _, _, _, _, _, _, e, _⟩ := replied
    rw [e]
  rw [slots, ← began]
  exact onlyReplied_of_replied replied

/-- R279: of a slot it touches the mark of its run alone. -/
theorem looked_epochSeen (s : State) (q now c : Nat) : ∃ b, (s.looked q now).slot c =
    { s.slot c with run := (s.slot c).run.map (fun r => { r with epochSeen := b }) } := by
  rcases looked_slot s q now c with same | ⟨run, hr, marked⟩
  · rw [same]
    cases hr : (s.slot c).run with
    | none => exact ⟨false, by rw [Option.map_none, ← hr]⟩
    | some run => exact ⟨run.epochSeen, by rw [Option.map_some, ← hr]⟩
  · exact ⟨true, by rw [marked, hr, Option.map_some]⟩

/-- R428, R436: a queue whose command is not one to run now does no more than look. -/
theorem runCommand_looks (fresh again : State → FetchedCmd → State)
    (h : ∀ cmd, (s.looked q now).current q = some cmd → cmd.opcode ≠ op ∨ mine cmd = false ∨ (s.looked q now).mustWait cmd = true) :
    s.runCommand q op now mine fresh again = .next (s.looked q now) := by
  unfold State.runCommand
  extract_lets +onlyGivenNames u
  split
  · rfl
  next cmd current =>
    exact if_pos (h cmd current)

/-- A Signal Box command has its queue run the command of its opcode. -/
theorem box_exec {i : Instr} {q : Fin 9} (h : i.box = some (q, op, now, mine)) :
    ∃ fresh again, ∀ s, exec i s = s.runCommand q op now mine fresh again := by
  cases i <;> cases h
  all_goals
    unfold exec
    exact ⟨_, _, fun _ => rfl⟩

/-- Settles O12: each Signal Box command begins with the look, and goes on only with a command that its queue runs. -/
theorem lookingTouchesOnlyQueues : Obligations.LookingTouchesOnlyQueues := by
  unfold Obligations.LookingTouchesOnlyQueues
  intro i q op now mine s h
  obtain ⟨fresh, again, runs⟩ := box_exec h
  exact ⟨looked_onlyReplied s q now, looked_epochSeen s q now, fun waits => (runs s).trans (runCommand_looks fresh again waits)⟩

end Sys2Proof.Proofs
end

section
/-! `START` beside a frame that is to be retired (O22). Readying the Stations for the run drains the frames whose fill or write-back was
under way; a frame of them that is to be retired is then retired (R282), and a bound context that no longer fits is stopped and its command
replied. Where that context is the one that `START` names, its run begins all the same. -/

namespace Sys2Proof.Proofs

open Sys2Proof Sys2Proof.Machine Sys2Proof.Laws

/-- `START` of context 0 at run epoch 100,000 (R441). -/
def startCommand : FetchedCmd :=
  { header := BitVec.ofNat 256 (place 8 179 + place 0x13 152), params := leBytes 8 100000, seq := 1, accepted := false,
    parked := false, hostErr := false }

def startImage : Image := { bytes := [], digest := 0, ranges := [] }

/-- A binding whose peak is every frame of the module (R256). -/
def startBinding : Binding :=
  { jobRank := 0, g := 0, k := 0, rho := 0, depotFrames := 0, peerTimeoutMs := 0, shard1 := 0, shard2 := 0, t3Frames := [],
    t3Ranges := [], flows := [], mapBase := [], peak := 328055 }

/-- The module with context 0 bound and its `START` next, where frame 0 of Tier S is draining and to be retired. -/
def startState : State :=
  { State.reset with
    modState := .ready, startup := { Startup.init with phase := .up }, policies := { Policies.init with padded := true }
    queues := [(0, { Queue.init with enable := true, log2 := 4, cmds := [startCommand] })]
    slots := [(0, { Slot.init with state := .bound, image := some startImage, binding := some startBinding })]
    tiers := { State.reset.tiers with draining := [0] }, shunter := { State.reset.shunter with retiring := [0] } }

theorem startState_runsCommand : startState.runsCommand 0 0x13 0 startCommand := by
  refine ⟨?_, ?_, ?_, ?_, ?_⟩ <;> decide +kernel

/-- R282, R402: the context no longer fits, and the command is replied `CONTEXT_STOPPED`; but the slot is left `RUNNING`. -/
theorem startState_exec : ∃ t, exec (.start 0 0) startState = .next t ∧ (t.slot 0).state = .running ∧
    ∀ x ∈ (t.queue 0).cmds, x.seq ≠ startCommand.seq :=
  ⟨_, by unfold exec; rfl, by decide +kernel⟩

/-- Refutes O22: an accepted `START` whose command has ended can leave the slot `RUNNING`, because the retirement of a draining frame stops
the context and replies the command before the run begins. -/
theorem not_startBeginsRun : ¬ Obligations.StartBeginsRun := by
  unfold Obligations.StartBeginsRun
  intro h
  have claim := (h 0 0 startState startCommand startImage startBinding rfl rfl (by decide +kernel) (by decide +kernel) (by decide +kernel)
    (by decide +kernel)).1 startState_runsCommand (by decide +kernel)
  obtain ⟨t, -, ht, either, -⟩ := claim
  obtain ⟨u, hu, running, gone⟩ := startState_exec
  obtain rfl := Host.Outcome.next.inj (ht.symm.trans hu)
  rcases either with ⟨-, x, inQueue, same, -⟩ | ⟨stopped, -⟩
  · exact gone x inQueue same
  · exact absurd (running.symm.trans stopped) (by decide)

end Sys2Proof.Proofs
end

section
/-! PCIe links and resets (O60): what a link event changes, what `LINK_DOWN` reports, and what a reset of a function leaves. -/

namespace Sys2Proof.Proofs

open Sys2Proof Sys2Proof.Machine Sys2Proof.Laws

variable {s : State} {now : Nat} {link : Fin 2}

/-! ## One link -/

theorem link_advance (s : State) (n i : Nat) : (s.advance n).link i = s.link i := by
  simp only [State.link, advance_fields]

/-- From `s`, link i alone has changed, and is `x`. -/
def LinkSet (s u : State) (i : Nat) (x : Pcie) : Prop :=
  u = { s with pcie := u.pcie } ∧ u.link i = x ∧ ∀ j, j ≠ i → u.link j = s.link j

theorem setLink_linkSet (s : State) (i : Nat) (x : Pcie) : LinkSet s (s.setLink i x) i x :=
  ⟨rfl, link_setLink_self s i x, fun j hj => by rw [link_setLink, if_neg hj]⟩

/-- An event at line time `now` that sets link i, in terms of the links before it. -/
theorem LinkSet.advanced {u : State} {i : Nat} {x : Pcie} (h : LinkSet (s.advance now) u i x) :
    u = { s.advance now with pcie := u.pcie } ∧ u.link i = x ∧ ∀ j, j ≠ i → u.link j = s.link j := by
  obtain ⟨same, set, others⟩ := h
  exact ⟨same, set, fun j hj => (others j hj).trans (link_advance s now j)⟩

/-- R466: with the rails up, the link leaves Detect. -/
theorem perstDeassert_leavesDetect (runs : (s.advance now).timeRuns = true) (low : (s.link link).perstLow = true) :
    exec (.perstDeassert link now) s =
      .next ((s.advance now).setLink link { s.link link with perstLow := false, readyFrom := some (s.advance now).time.lt }) := by
  show execPerstDeassert link now s = _
  unfold execPerstDeassert
  dsimp only
  rw [link_advance, if_pos low, if_pos runs]

/-- R466: the free time to readiness is at most 100 ms. -/
theorem linkReady_le (i t : Nat) : linkReady i t ≤ t + 100000000 := by
  unfold linkReady
  omega

theorem configRequest_answered {a : Nat} (hr : (s.link link).readyFrom = some a) (ready : a + 100000000 ≤ (s.advance now).time.lt) :
    exec (.pcieConfigRequest link now) s =
      .next ((s.advance now).setLink link { s.link link with up := true, configured := true }) := by
  show execPcieConfigRequest link now s = _
  unfold execPcieConfigRequest
  dsimp only
  rw [link_advance, hr]
  exact if_pos ((linkReady_le link a).trans ready)

theorem linkUp_returns {a : Nat} (hr : (s.link link).readyFrom = some a) :
    exec (.pcieLinkUp link now) s = .next ((s.advance now).setLink link { s.link link with up := true }) := by
  show execPcieLinkUp link now s = _
  unfold execPcieLinkUp
  dsimp only
  rw [link_advance, hr]
  rfl

/-! ## A link that goes down -/

/-- The `LINK_DOWN` fault (R403). -/
def linkDownFault (i : Nat) : EvtRec := { EvtRec.blank with family := 4, code := 0, scope := scopeNone, loc := i }

theorem tier3Up_iff (s : State) : s.tier3Up = true ↔ ∃ i < 2, (s.link i).up = true := by
  simp only [State.tier3Up, Bool.or_eq_true]
  constructor
  · rintro (h | h)
    · exact ⟨0, by omega, h⟩
    · exact ⟨1, by omega, h⟩
  · rintro ⟨i, hi, h⟩
    obtain rfl | rfl : i = 0 ∨ i = 1 := by omega
    · exact .inl h
    · exact .inr h

/-- With link i down, Tier 3 has the other link (R284). -/
theorem tier3Up_setLink_down {x : Pcie} (i : Nat) (down : x.up = false) :
    (s.setLink i x).tier3Up = true ↔ ∃ j < 2, j ≠ i ∧ (s.link j).up = true := by
  rw [tier3Up_iff]
  constructor
  · rintro ⟨j, hj, h⟩
    have other : j ≠ i := by
      rintro rfl
      simp [down] at h
    rw [link_setLink, if_neg other] at h
    exact ⟨j, hj, other, h⟩
  · rintro ⟨j, hj, other, h⟩
    exact ⟨j, hj, by rwa [link_setLink, if_neg other]⟩

/-- The link goes down, and the fault is reported where no link is left. -/
theorem linkDown_exec (up : (s.link link).up = true) :
    exec (.pcieLinkDown link now) s =
      let w := (s.advance now).setLink link { s.link link with up := false }
      .next (if w.tier3Up then w else w.report (linkDownFault link)) := by
  show execPcieLinkDown link now s = _
  unfold execPcieLinkDown
  dsimp only
  rw [link_advance, up, apply_ite Host.Outcome.next]
  rfl

theorem link_report (r : EvtRec) (i : Nat) : (s.report r).link i = s.link i := by
  simp only [State.link, report_fields]

/-- A fault waits in the buffer of a disabled ring with its scope (R451). -/
theorem report_scope {r : EvtRec} (hr : r.family ≠ 0) (he : s.evt.enable = false) (hb : s.evt.buffer.length < 64) :
    ∃ x, (s.report r).evt.buffer = s.evt.buffer ++ [x] ∧ x.family = r.family ∧ x.code = r.code ∧ x.scope = r.scope := by
  unfold State.report
  extract_lets +onlyGivenNames q w
  have posted : w.evt.buffer = s.evt.buffer ++ [{ q with lt := s.time.lt, seq := s.evt.seq }] := by
    rw [show w = _ from emit_buffer s (r := q) hr he hb]
  have kept : ∃ x, w.evt.buffer = s.evt.buffer ++ [x] ∧ x.family = r.family ∧ x.code = r.code ∧ x.scope = r.scope :=
    ⟨_, posted, rfl, rfl, rfl⟩
  clear_value w
  split
  · split <;> exact kept
  · exact kept

/-- What LINK_DOWN of a link leaves, with the fault reported or not. -/
theorem linkDown_keeps (up : (s.link link).up = true) :
    ∃ u, exec (.pcieLinkDown link now) s = .next u ∧ u.link link = { s.link link with up := false } ∧
      u.slots = s.slots ∧ u.stations = s.stations ∧ u.flows = s.flows := by
  refine ⟨_, linkDown_exec up, ?_⟩
  split
  · simp
  · simp [link_report, report_slots]

theorem linkDown_other (up : (s.link link).up = true) (other : ∃ i < 2, i ≠ link.val ∧ (s.link i).up = true) :
    ∃ u, exec (.pcieLinkDown link now) s = .next u ∧ u = { s.advance now with pcie := u.pcie } := by
  refine ⟨_, linkDown_exec up, ?_⟩
  have left : ((s.advance now).setLink link { s.link link with up := false }).tier3Up = true := by
    rw [tier3Up_setLink_down link.val rfl]
    simpa only [link_advance] using other
  rw [if_pos left]
  rfl

/-- R284: with both links down, `LINK_DOWN` is raised. -/
theorem linkDown_raises (up : (s.link link).up = true) (others : ∀ i < 2, i ≠ link.val → (s.link i).up = false)
    (disabled : s.evt.enable = false) (room : s.evt.buffer.length < 64) :
    ∃ u x, exec (.pcieLinkDown link now) s = .next u ∧ u.evt.buffer = s.evt.buffer ++ [x] ∧ x.family = 4 ∧ x.code = 0 ∧
      x.scope = scopeNone := by
  have none : ¬ ((s.advance now).setLink link { s.link link with up := false }).tier3Up = true := by
    rw [tier3Up_setLink_down link.val rfl]
    rintro ⟨i, hi, other, h⟩
    rw [link_advance, others i hi other] at h
    contradiction
  have raised := report_scope (s := (s.advance now).setLink link { s.link link with up := false }) (r := linkDownFault link)
    (by simp [linkDownFault]) (by simpa using disabled) (by simpa using room)
  obtain ⟨x, buffer, record⟩ := raised
  refine ⟨_, x, linkDown_exec up, ?_, record⟩
  rw [if_neg none, buffer]
  simp

/-! ## A reset of a function -/

/-- The link with its function reset: it is not configured, and `LINK_DOWN` is reported where no link is left. -/
theorem resetLink_cases (s : State) (i : Nat) (cause : Fin 3) : ∃ x, x.configured = false ∧
    (s.resetLink i cause = s.setLink i x ∨ s.resetLink i cause = (s.setLink i x).report (linkDownFault i)) := by
  have cases (w : State) (b : Bool) {r : EvtRec} : (if b then w.report r else w) = w ∨ (if b then w.report r else w) = w.report r := by
    cases b <;> simp
  unfold State.resetLink
  match cause with
  | 0 => exact ⟨_, rfl, cases _ _⟩
  | 1 => exact ⟨_, rfl, cases _ _⟩
  | 2 => exact ⟨_, rfl, cases _ _⟩

/-- What the reset of a link keeps, but for the report of its fault. -/
theorem resetLink_fields (s : State) (i : Nat) (cause : Fin 3) :
    (s.resetLink i cause).slots = s.slots ∧ (s.resetLink i cause).flows = s.flows ∧ (s.resetLink i cause).queues = s.queues ∧
    (s.resetLink i cause).modState = s.modState ∧ (s.resetLink i cause).startup = s.startup ∧
    (s.resetLink i cause).tiers = s.tiers ∧ (s.resetLink i cause).policies = s.policies ∧ (s.resetLink i cause).time = s.time ∧
    (s.resetLink i cause).flash = s.flash := by
  obtain ⟨x, -, h | h⟩ := resetLink_cases s i cause
  · simp [h]
  · simp [h, report_slots]

theorem link_resetLink (s : State) (i : Nat) (cause : Fin 3) :
    ((s.resetLink i cause).link i).configured = false ∧ ∀ j, j ≠ i → (s.resetLink i cause).link j = s.link j := by
  obtain ⟨x, hx, h | h⟩ := resetLink_cases s i cause
  · simp +contextual [h, hx, link_setLink]
  · simp +contextual [h, hx, link_report, link_setLink]

/-- R467: a reset of the secondary function touches link 1 alone. -/
theorem resetSecondary_keeps (cause : Fin 3) :
    ∃ u, exec (.pcieResetSecondary cause now) s = .next u ∧ u.slots = s.slots ∧ u.flows = s.flows ∧ u.queues = s.queues ∧
      u.modState = s.modState ∧ u.flash.lastReset = 3 ∧ u.link 0 = s.link 0 ∧ (u.link 1).configured = false := by
  obtain ⟨slots, flows, queues, modState, -⟩ := resetLink_fields (s.advance now) 1 cause
  obtain ⟨reset, others⟩ := link_resetLink (s.advance now) 1 cause
  refine ⟨_, rfl, ?_, ?_, ?_, ?_, rfl, (others 0 (by decide)).trans (link_advance s now 0), reset⟩
  · exact slots.trans (by simp)
  · exact flows.trans (by simp)
  · exact queues.trans (by simp)
  · exact modState.trans (by simp)

/-- The retirement of the frames that waited (R468) leaves the contents of the tiers, and the links. -/
theorem retireWaiting_keeps (s : State) : s.retireWaiting.tiers.mem = s.tiers.mem ∧ s.retireWaiting.pcie = s.pcie := by
  refine foldl_keeps (fun t : State => t.tiers.mem = s.tiers.mem ∧ t.pcie = s.pcie) _ (fun t k kept => ?_) _ s ⟨rfl, rfl⟩
  unfold State.retireFrame
  dsimp only
  split
  · split
    · exact kept
    · simpa using kept
  · split
    · exact kept
    · simpa using kept

/-- Contexts, flows, queues, the Census and the map are gone; the tiers' contents, the policies, flash and line time stay (R467, R468). -/
structure WarmlyReset (s u : State) : Prop where
  modState : u.modState = .training
  phase : u.startup.phase = .training
  slots : u.slots = []
  flows : u.flows = []
  queues : u.queues = []
  census : u.census = .idle
  map : u.tiers.map = []
  mem : u.tiers.mem = s.tiers.mem
  policies : u.policies = s.policies
  time : u.time = s.time
  retired : u.flash.retired = s.flash.retired
  lastReset : u.flash.lastReset = 1
  pcie : u.pcie = s.pcie

theorem warmReset_warmly (s : State) (cause : Nat) : WarmlyReset s (s.warmReset cause) := by
  obtain ⟨mem, pcie⟩ := retireWaiting_keeps s
  obtain ⟨-, -, retired, -, -, -, time, -, policies⟩ := retireWaiting_apart s
  constructor
  case mem => exact mem
  case policies => exact policies
  case time => exact time
  case retired => exact retired
  case pcie => exact pcie
  all_goals rfl

/-- R438, R467: past its power-up the module takes a reset of the primary function as a warm reset. -/
theorem resetPrimary_warm (cause : Fin 3) (h : s.modState = .ready ∨ s.modState = .noSpare) :
    exec (.pcieResetPrimary cause now) s = .next (((s.advance now).resetLink 0 cause).endManagement.warmReset 3) := by
  have state : ((s.advance now).resetLink 0 cause).modState = s.modState := by simp [resetLink_fields]
  show execPcieResetPrimary cause now s = _
  unfold execPcieResetPrimary State.resetLeaves
  dsimp only
  rw [state]
  rcases h with h | h <;> rw [h] <;> rfl

/-- R438: before `READY` it takes it as a reset of the link alone. -/
theorem resetPrimary_linkAlone (cause : Fin 3) (h : s.modState = .resetting ∨ s.modState = .training) :
    exec (.pcieResetPrimary cause now) s = .next ((s.advance now).resetLink 0 cause) := by
  have state : ((s.advance now).resetLink 0 cause).modState = s.modState := by simp [resetLink_fields]
  show execPcieResetPrimary cause now s = _
  unfold execPcieResetPrimary
  dsimp only
  rw [state]
  rcases h with h | h <;> rw [h] <;> rfl

theorem resetPrimary_clears (cause : Fin 3) (h : s.modState = .ready ∨ s.modState = .noSpare) :
    ∃ u, exec (.pcieResetPrimary cause now) s = .next u ∧ u.modState = .training ∧ u.startup.phase = .training ∧
      (∀ c, (u.slot c).state = .empty) ∧ (∀ f, (u.flow f).state = 0) ∧ u.queues = [] ∧ u.census = .idle ∧ u.tiers.map = [] ∧
      u.tiers.mem = s.tiers.mem ∧ u.policies = s.policies ∧ u.time = (s.advance now).time ∧ u.flash.retired = s.flash.retired ∧
      u.flash.lastReset = 1 ∧ u.link 1 = s.link 1 ∧ (u.link 0).configured = false := by
  refine ⟨_, resetPrimary_warm cause h, ?_⟩
  obtain ⟨-, -, -, -, -, tiers, policies, time, flash⟩ := resetLink_fields (s.advance now) 0 cause
  obtain ⟨reset, others⟩ := link_resetLink (s.advance now) 0 cause
  have links : ((s.advance now).resetLink 0 cause).endManagement.pcie = ((s.advance now).resetLink 0 cause).pcie := by
    simp [State.endManagement]
  have w := warmReset_warmly ((s.advance now).resetLink 0 cause).endManagement 3
  refine ⟨w.modState, w.phase, fun c => ?_, fun f => ?_, w.queues, w.census, w.map, w.mem.trans ?_, w.policies.trans ?_,
    w.time.trans ?_, w.retired.trans ?_, w.lastReset, ?_, ?_⟩
  · rw [State.slot, w.slots]
    rfl
  · rw [State.flow, w.flows]
    rfl
  · simp [State.endManagement, tiers]
  · simp [State.endManagement, policies]
  · simp [State.endManagement, time]
  · simp [State.endManagement, flash]
  · rw [State.link, w.pcie, links]
    exact (others 1 (by decide)).trans (link_advance s now 1)
  · rw [State.link, w.pcie, links]
    exact reset

theorem resetPrimary_keeps (cause : Fin 3) (h : s.modState = .resetting ∨ s.modState = .training) :
    ∃ u, exec (.pcieResetPrimary cause now) s = .next u ∧ u.modState = s.modState ∧ u.slots = s.slots ∧
      u.queues = s.queues ∧ u.startup = s.startup ∧ (u.link 0).configured = false :=
  ⟨_, resetPrimary_linkAlone cause h, by simp [resetLink_fields, (link_resetLink (s.advance now) 0 cause).1]⟩

/-- Settles O60, clause by clause. -/
theorem linksAndResets : Obligations.LinksAndResets := by
  unfold Obligations.LinksAndResets
  intro now s
  refine ⟨fun link runs => ⟨fun low => ?_, fun a hr ready => ?_, fun a hr => ?_⟩,
    fun link up => ⟨linkDown_keeps up, linkDown_other up, linkDown_raises up⟩,
    fun cause => ⟨resetSecondary_keeps cause, resetPrimary_clears cause, resetPrimary_keeps cause⟩, fun a off inrush => ?_⟩
  · exact ⟨_, perstDeassert_leavesDetect runs low, (setLink_linkSet _ _ _).advanced⟩
  · exact ⟨_, configRequest_answered hr ready, (setLink_linkSet _ _ _).advanced⟩
  · exact ⟨_, linkUp_returns hr, (setLink_linkSet _ _ _).advanced⟩
  · exact ⟨_, if_neg (not_or.mpr ⟨off, inrush⟩), rfl⟩

end Sys2Proof.Proofs
end
